-- ==== Sys2Proof/Word.lean ====
section
/-! DEFINITION. The word types of the part and fixed-size tables of like things. -/

namespace Sys2Proof

/-- A 32-bit word: parameter words, keys and the block count. -/
abbrev Word := BitVec 32

/-- A 16-bit field: tags and stamps. -/
abbrev Half := BitVec 16

/-- A byte. -/
abbrev Byte := BitVec 8

/-- A stereo sample pair, left then right; each side a signed 24-bit sample held as an integer. -/
abbrev Pair := Int × Int

/-- One block of a channel: 48 sample pairs. -/
abbrev Block := List Pair

/-- `n` like things, numbered from 0. -/
abbrev Tab (α : Type) (n : Nat) := Vector α n

/-- The table with entry `i` replaced. -/
def Tab.put {α : Type} {n : Nat} (v : Tab α n) (i : Fin n) (x : α) : Tab α n := v.set i.val x i.isLt

/-- Entry `i` of the table. -/
def Tab.at {α : Type} {n : Nat} (v : Tab α n) (i : Fin n) : α := v[i.val]'i.isLt

/-- The table with `f` applied to every entry. -/
def Tab.each {α β : Type} {n : Nat} (v : Tab α n) (f : α → β) : Tab β n :=
  Vector.ofFn fun i => f (Tab.at v i)

/-- `k` as an index below `n`, when it is one. -/
def index? (n k : Nat) : Option (Fin n) := if h : k < n then some ⟨k, h⟩ else none

end Sys2Proof
end

