-- ==== Sys2Proof/Machine/Arith.lean ====
section
/-! DEFINITION. The arithmetic that several units share: limiting, the source stage's rounding (R45),
ramped gains (R42, R43), the tone table (R183), and bit and byte order. All divisions here have a
positive divisor, so `/` on `Int` is the manual's floor. -/

namespace Sys2Proof.Machine

/-- sat24 (Conventions): the value limited to the 24-bit sample range. -/
def sat24 (x : Int) : Int := max (-8388608) (min 8388607 x)

/-- A value limited to the 16-bit sample range. -/
def sat16 (x : Int) : Int := max (-32768) (min 32767 x)

/-- A count limited to `lo` to `hi`, both ends included (R194). -/
def clampNat (lo hi v : Nat) : Nat := max lo (min hi v)

/-- A saturating increase of a counter that stops at `top`. -/
def bump (top n : Nat) : Nat := min top (n + 1)

/-- A saturating increase by `k`. -/
def bumpBy (top k n : Nat) : Nat := min top (n + k)

/-- The source stage (R45): sample `x` under gain `g`. -/
def applyGain (x g : Int) : Int := sat24 ((x * g + 2048) / 4096)

/-- 24-bit to 16-bit conversion (R57, R138): rounded and saturated. -/
def toSixteen (x : Int) : Int := sat16 ((x + 128) / 256)

/-- A block of silence. -/
def silence : Block := List.replicate 48 (0, 0)

/-- A run of frames made up to exactly 48 with silence. -/
def block48 (b : Block) : Block := (b ++ silence).take 48

/-- The larger absolute value of a pair. -/
def pairPeak (p : Pair) : Nat := max p.1.natAbs p.2.natAbs

/-- The largest absolute value among a block's samples. -/
def blockPeak (b : Block) : Nat := b.foldl (fun m p => max m (pairPeak p)) 0

/-- A ramped gain (R42): current value, target, start value C0, ramp length n and ramp position b. -/
structure Ramp where
  current : Nat
  target : Nat
  start : Nat
  length : Nat
  position : Nat
deriving DecidableEq, Repr, Inhabited

/-- A ramped gain at rest at `v`. -/
def Ramp.rest (v : Nat) : Ramp := ⟨v, v, v, 1, 1⟩

/-- A ramped gain is at rest when b has reached n (R42). -/
def Ramp.atRest (r : Ramp) : Bool := r.length ≤ r.position

/-- The gain at sample `k` of the block it is applied to (R42). -/
def Ramp.gain (r : Ramp) (k : Nat) : Int :=
  if r.atRest then (r.current : Int)
  else (r.start : Int)
    + (((r.target : Int) - r.start) * (48 * r.position + k + 1 : Nat)) / ((48 * r.length : Nat) : Int)

/-- The gains of a block's 48 samples. -/
def Ramp.gains (r : Ramp) : List Int := (List.range 48).map r.gain

/-- The ramp after the block it was applied to (R42). -/
def Ramp.advance (r : Ramp) : Ramp :=
  if r.atRest then r
  else { r with current := (r.gain 47).toNat, position := r.position + 1 }

/-- A new target with a ramp length (R43), clamped to `0 … top`; length 0 is a jump. -/
def Ramp.give (top : Nat) (r : Ramp) (target length : Nat) : Ramp :=
  let t := min top target
  if length = 0 then Ramp.rest t
  else { current := r.current, target := t, start := r.current, length := length, position := 0 }

/-- Gains and trims lie in 0 to 8,192 (R43). -/
def Ramp.giveGain (r : Ramp) (target length : Nat) : Ramp := r.give 8192 target length

/-- Envelopes lie in 0 to 4,096 (R43). -/
def Ramp.giveEnvelope (r : Ramp) (target length : Nat) : Ramp := r.give 4096 target length

/-- The block that this one ramp block brings to rest is the ramp's last (R89, R99). -/
def Ramp.finishes (r : Ramp) : Bool := r.length ≤ r.position + 1

/-- A block passed through the source stage under a ramped gain; both sides take the same gain. -/
def applyRamp (r : Ramp) (b : Block) : Block :=
  (r.gains.zip b).map fun gp => (applyGain gp.2.1 gp.1, applyGain gp.2.2 gp.1)

/-- The program gain P formed from a clip's trim and an entry's gain (R44). -/
def programGain (trim gain : Nat) : Nat := min 8192 ((trim * gain + 2048) / 4096)

/-- A tone voice's phase increment for a frequency in hertz (R183): rounded half up. -/
def phaseIncrement (f : Nat) : Nat := (f * 4294967296 * 2 + 48000) / 96000

/-- The first quarter of the sine table, entries 0 to 64: round(8,388,607 × sin(2πi / 256)). -/
def sineQuarter : List Int :=
  [0, 205867, 411609, 617104, 822227, 1026855, 1230864, 1434132, 1636536, 1837954, 2038265, 2237349, 2435084] ++
  [2631353, 2826037, 3019018, 3210181, 3399410, 3586592, 3771613, 3954362, 4134729, 4312606, 4487885, 4660460, 4830229] ++
  [4997087, 5160936, 5321676, 5479210, 5633444, 5784285, 5931641, 6075424, 6215548, 6351927, 6484481, 6613128, 6737792] ++
  [6858398, 6974872, 7087145, 7195148, 7298818, 7398091, 7492908, 7583211, 7668946, 7750062, 7826510, 7898243, 7965219] ++
  [8027396, 8084739, 8137211, 8184782, 8227422, 8265107, 8297813, 8325521, 8348214, 8365878, 8378503, 8386081, 8388607]

/-- Entry `i` of the 256-entry sine table (R183), from its first quarter by symmetry. -/
def sineEntry (i : Nat) : Int :=
  let q := i % 64
  match i % 256 / 64 with
  | 0 => sineQuarter.getD q 0
  | 1 => sineQuarter.getD (64 - q) 0
  | 2 => -sineQuarter.getD q 0
  | _ => -sineQuarter.getD (64 - q) 0

/-- The bits of a word, most significant first. -/
def bitsOf {n : Nat} (v : BitVec n) : List Bool := (List.range n).map v.getMsbD

/-- The bytes of a 16-bit field, most significant first. -/
def be16 (v : Half) : List Byte := [v.extractLsb' 8 8, v.extractLsb' 0 8]

/-- The bytes of a 24-bit field, most significant first. -/
def be24 (v : BitVec 24) : List Byte := [v.extractLsb' 16 8, v.extractLsb' 8 8, v.extractLsb' 0 8]

/-- The bytes of a 32-bit field, most significant first. -/
def be32 (v : Word) : List Byte :=
  [v.extractLsb' 24 8, v.extractLsb' 16 8, v.extractLsb' 8 8, v.extractLsb' 0 8]

/-- The number that a run of bytes spells, most significant first. -/
def ofBytes (bs : List Byte) : Nat := bs.foldl (fun n b => n * 256 + b.toNat) 0

/-- Byte `i` of a message, 0 beyond its end. -/
def byteAt (bs : List Byte) (i : Nat) : Byte := bs.getD i 0

/-- The 16-bit field at byte `i`. -/
def halfAt (bs : List Byte) (i : Nat) : Half := byteAt bs i ++ byteAt bs (i + 1)

/-- The 32-bit field at byte `i`. -/
def wordAt (bs : List Byte) (i : Nat) : Word := halfAt bs i ++ halfAt bs (i + 2)

/-- The signed 24-bit field at byte `i`. -/
def sampleAt (bs : List Byte) (i : Nat) : Int :=
  (byteAt bs i ++ byteAt bs (i + 1) ++ byteAt bs (i + 2)).toInt

/-- One step of the CRC register (R206). -/
def crcStep (r : Word) (bit : Bool) : Word :=
  if r.msb == bit then r <<< 1 else (r <<< 1) ^^^ 0x04C11DB7#32

/-- The CRC-32 of a run of bits in the order in which they are sent (R206). -/
def crc32 (bits : List Bool) : Word := ~~~ (bits.foldl crcStep 0xFFFFFFFF#32)

/-- The CRC-32 of a run of bytes, each sent most significant bit first. -/
def crcBytes (bs : List Byte) : Word := crc32 (bs.flatMap bitsOf)

/-- A natural number as a response or notice word. -/
def word (n : Nat) : Word := BitVec.ofNat 32 n

/-- A signed number as a word, two's complement (R210). -/
def wordInt (i : Int) : Word := BitVec.ofInt 32 i

/-- A flag as a word (R210). -/
def wordFlag (b : Bool) : Word := if b then 1 else 0

/-- A value with two names as a word, by the place of its name in their list (R210): ON or OFF, and ACTIVE or INACTIVE
(R106); `b` says that it has the first (DEDUCED, log entry 75). -/
def wordName (b : Bool) : Word := if b then 0 else 1

/-- None as a word (R210). -/
def wordNone : Word := 0xFFFFFFFF#32

/-- An item that may be none, as a word. -/
def wordOpt (o : Option Nat) : Word := (o.map word).getD wordNone

end Sys2Proof.Machine
end

