-- ==== Sys2Proof/Config.lean ====
section
/-! DEFINITION. The names the configuration image speaks of, the values every unit takes from an
accepted image (R200), and the free values: what the manual leaves open and nothing here fixes. -/

namespace Sys2Proof

/-- The four tiers, highest first (Conventions: a lower number is a higher tier). -/
inductive Tier where
  | alert | live | playout | filler
deriving DecidableEq, Repr, Inhabited

/-- The roles a node may have (Introduction, Roles). -/
structure Roles where
  desk : Bool
  playout : Bool
  caller : Bool
  alert : Bool
  link : Bool
  site : Bool
deriving DecidableEq, Repr, Inhabited

/-- The empty role set. -/
def Roles.none : Roles := ⟨false, false, false, false, false, false⟩

/-- The buses of the mix engine (R52), in the order READ METERS lists them. -/
inductive Bus where
  | program | cue | hold | mixMinus1 | mixMinus2 | mixMinus3
deriving DecidableEq, Repr, Inhabited

/-- Clip formats (R65). -/
inductive ClipFormat where
  | m16 | s16 | m24 | s24
deriving DecidableEq, Repr, Inhabited

/-- Lamp conditions (R188). -/
inductive LampCondition where
  | none | micLive | callerWaiting | alertHeld | linkFault | seatHolding
deriving DecidableEq, Repr, Inhabited

/-- Lamp mode (R188): STEADY, or BLINK with a half-period in blocks. -/
inductive LampMode where
  | steady
  | blink (half : Nat)
deriving DecidableEq, Repr, Inhabited

/-- A lamp's assignment. -/
structure LampAssign where
  condition : LampCondition
  mode : LampMode
deriving DecidableEq, Repr, Inhabited

/-- Status input actions (R190); `cough i` and `airToggle i` name desk input `i + 1`. -/
inductive InputAction where
  | none
  | remoteStart
  | cough (desk : Fin 2)
  | airToggle (desk : Fin 2)
deriving DecidableEq, Repr, Inhabited

/-- Notice classes (R196), numbered in this order (R210). -/
inductive NoticeClass where
  | line | playout | caller | alert | link | port
deriving DecidableEq, Repr, Inhabited

/-- One value per tier. -/
structure PerTier (α : Type) where
  alert : α
  live : α
  playout : α
  filler : α
deriving DecidableEq, Repr, Inhabited

/-- The value of one tier. -/
def PerTier.get {α : Type} (p : PerTier α) : Tier → α
  | .alert => p.alert
  | .live => p.live
  | .playout => p.playout
  | .filler => p.filler

/-- The duck matrix (R36): `alertOverLive` is the weight LIVE receives while ALERT is active, and so on. -/
structure Duck where
  alertOverLive : Nat
  alertOverPlayout : Nat
  alertOverFiller : Nat
  liveOverPlayout : Nat
  liveOverFiller : Nat
  playoutOverFiller : Nat
deriving DecidableEq, Repr, Inhabited

/-- A capture clip's definition (R74): capacity in frames and its extents in order. -/
structure CaptureDef where
  capacity : Nat
  extents : List (Fin 512)
deriving DecidableEq, Repr, Inhabited

/-- The values the units take from an accepted configuration image, in the order of R200. -/
structure Settings where
  nodeId : Fin 8
  roles : Roles
  seatEnable : Bool
  outMap : Tab (Option Bus) 8
  screenerSlot : Fin 8
  alertAudioSlot : Fin 8
  duck : Duck
  holdWeight : Nat
  silenceFloor : Nat
  silenceLimit : Nat
  fillerDelay : Nat
  fillerClip : Option (Fin 256)
  captures : Tab (Option CaptureDef) 4
  checkFrequency : Nat
  checkLevel : Nat
  checkLength : Nat
  deadFloor : Nat
  echoCeiling : Nat
  maxOnAir : Nat
  attentionF1 : Nat
  attentionF2 : Nat
  attentionLevel : Nat
  attentionLength : Nat
  alertInterval : Nat
  defaultDuration : Nat
  trimLimit : Nat
  targetDepth : Nat
  slipThreshold : Nat
  safeLevels : Tab Nat 4
  siteAlertClip : Option (Fin 256)
  offAirSlot : Fin 8
  lamps : Tab LampAssign 4
  inputs : Tab InputAction 4
  counterEnable : Tab Bool 5
  routing : Tab (Option (Fin 4)) 6
deriving DecidableEq, Repr

/-- The defaults that the owning rules state (R36, R53, R59, R110, R111, R115, R131's table, the
Transmitter Link and Tones tables, R13, R197). Fields whose default no rule states hold the value the
part shows before configuration: node id 0, no roles (R198), no output assigned (R55; DESIGN CHOICE, log entry 45). -/
def Settings.initial : Settings where
  nodeId := 0
  roles := Roles.none
  seatEnable := false
  outMap := Vector.replicate 8 none
  screenerSlot := 0
  alertAudioSlot := 0
  duck := ⟨0, 0, 0, 6, 0, 0⟩
  holdWeight := 8
  silenceFloor := 8389
  silenceLimit := 8000
  fillerDelay := 2000
  fillerClip := none
  captures := Vector.replicate 4 none
  checkFrequency := 1020
  checkLevel := 1024
  checkLength := 200
  deadFloor := 2100
  echoCeiling := 4200000
  maxOnAir := 2
  attentionF1 := 745
  attentionF2 := 1175
  attentionLevel := 2896
  attentionLength := 8000
  alertInterval := 120000
  defaultDuration := 60
  trimLimit := 255
  targetDepth := 1024
  slipThreshold := 768
  safeLevels := Vector.replicate 4 0
  siteAlertClip := none
  offAirSlot := 0
  lamps := Vector.replicate 4 ⟨.none, .steady⟩
  inputs := Vector.replicate 4 .none
  counterEnable := Vector.replicate 5 true
  routing := Vector.replicate 6 (some 0)

namespace Config

/-- FREE VALUE (R19: the generator's sequence is not specified). The `k`-th draw of an instance stamp
lands this many places beyond the stamp after the one in use: any of the other 65,535 values. -/
opaque stampOffset : Nat → Fin 65535

/-- FREE VALUE. What a field word takes that asks for its default where no rule states one (R200). -/
opaque defaultWord : Nat → Word

/-- FREE VALUE (R195). How a notice's contents lie in its three parameter words where the rule that
posts it names more than three items, or fewer: by notice kind, contents and word number. -/
opaque noticeWord : Nat → List Word → Nat → Word

/-- FREE VALUE (R27, R29). MONO of a Contribution Table entry between its creation and its first
presence decision, by channel number. -/
opaque newEntryMono : Nat → Bool

/-- FREE VALUE (R27, R29). Tag of a Contribution Table entry between its creation and its first
presence decision, by channel number. -/
opaque newEntryTag : Nat → Half

/-- FREE VALUE (R193). The type and tag of the answer to a message too short to hold them. -/
opaque shortHeader : List Byte → Half × Half

/-- FREE VALUE (R192). The tag and the PORT_BUSY flag of a response of type NONE, by result code. -/
opaque noneHeader : Nat → Half × Bool

/-- FREE VALUE (R125, R164). The state or level that an ANSWER carries for a line or output that the node
does not have, by the item asked for. -/
opaque answerAfter : Nat → Byte

/-- FREE VALUE (R174). The frame that a slip repeats when the elastic buffer is empty, by the slip count. -/
opaque slipFrame : Nat → BitVec 24 × BitVec 24

/-- FREE VALUE (R176). The one sample that stands for a site alert clip's frame whose two sides differ. -/
opaque siteAlertSample : Int → Int → BitVec 24

/-- FREE VALUE (R179, R180). The class of a relayed CANCEL whose key no record of the site alert list
holds, by key: a CANCEL message carries no class. -/
opaque cancelClass : Word → Fin 4

end Config

end Sys2Proof
end

