-- ==== Sys2Proof/Syntax.lean ====
section
/-! DEFINITION. The commands and events of the part: one constructor for every row of
spec/opcode_table.json, with what the outside world supplies with it.

Host commands carry the parameter words of their message, in the order the command's rule names them
(R210). Events at the studio line, the link and the receiver carry what arrives there; a block start
carries the samples and levels that the node's own inputs took during the block that it closes. -/

namespace Sys2Proof

/-- What the node's input ports took during the block that a block start closes: the eight stereo
slots of the audio TDM input, the three phone slots (16 samples each, R56), and the levels of the
status inputs and of the ring and loop lines at the block start (`true` for ACTIVE). `sinceCrc` counts
the bit times from the last CRC bit of the frame received last to the block start: it is read where a
mark begins (R1, R11). -/
structure BlockInput where
  tdm : List Block
  phone : List (List Int)
  status : List Bool
  ring : List Bool
  loop : List Bool
  sinceCrc : Nat
deriving DecidableEq, Repr

/-- An AUDIO frame as read off the line, from its first arbitration bit to its CRC (Frame and Message
Formats). `tier` is the 2-bit field as sent. -/
structure RxAudio where
  cls : BitVec 3
  node : Fin 8
  slot : Fin 8
  tier : BitVec 2
  air : Bool
  cue : Bool
  mono : Bool
  last : Bool
  seq : Byte
  tag : Half
  fill : BitVec 5
  samples : Block
  crc : Word
deriving DecidableEq, Repr

/-- A control frame as read off the line: arbitration field, length, fill, body and CRC. `kind` is the
3-bit field as sent, 5 to 7 included. -/
structure RxControl where
  cls : BitVec 3
  node : Fin 8
  low : BitVec 3
  kind : BitVec 3
  len : BitVec 7
  fill : BitVec 12
  body : List Byte
  crc : Word
deriving DecidableEq, Repr

/-- A frame of either layout. -/
inductive RxFrame where
  | audio (f : RxAudio)
  | control (f : RxControl)
deriving DecidableEq, Repr

/-- The readers of the clip store (R73), in the order in which fetches asked for in one event are
granted (R72): player A, player B, the alert player, the filler player; at a SITE node the site alert
player before the site filler player. -/
inductive Reader where
  | playerA | playerB | alert | filler | siteAlert | siteFiller
deriving DecidableEq, Repr, Inhabited

/-- The two contact inputs of a phone line (R107). -/
inductive Contact where
  | ring | loop
deriving DecidableEq, Repr, Inhabited

/-- The commands and events of the part, in the table's order. -/
inductive Instr where
  -- power, reset, start-up and the control port
  | powerOn
  | resetAsserted
  | resetReleased (boot : Bool)
  | flashReadComplete (flash : Option (List Byte))
  | commandWriteComplete (bytes : List Byte)
  | responseReadComplete
  -- host commands
  | readCounters
  | rejoin
  | readChannels
  | readTiers
  | setGain (slot gain : Word)
  | setChannel (slot air cue : Word)
  | setTrim (bus trim : Word)
  | readMeters
  | defineClip (clip format length : Word) (extents : List Word)
  | clipData (clip offset : Word) (bytes : List Byte)
  | sealClip (clip : Word)
  | deleteClip (clip : Word)
  | setClip (clip trim segue : Word)
  | setGroup (group mode : Word) (clips : List Word) (start : Word)
  | clearGroup (group : Word)
  | readClip (clip : Word)
  | readGroup (group : Word)
  | readExtents (first count : Word)
  | cueInsert (position tag kind source startMode startTime gain fadeIn fadeOut tier hold endAction : Word)
  | cueRemove (tag : Word)
  | cueMove (tag position : Word)
  | cueGain (tag gain : Word)
  | play
  | stop (tag : Word)
  | seatReset
  | readCue
  | readPlayer (player : Word)
  | readSeat
  | answerLine (line : Word)
  | screenLine (line : Word)
  | holdLine (line : Word)
  | readyLine (line : Word)
  | takeNext
  | takeCaller (node line : Word)
  | dropCaller (node line : Word)
  | hangUpCaller (node line : Word)
  | readLines
  | readAirQueue
  | readRequests
  | remoteOutput (output level : Word)
  | alertIssue (cls repeats clip key : Word)
  | alertCancel (id : Word)
  | readAlerts
  | readLink
  | lineUpOn (route : Word)
  | lineUpOff
  | readPanel
  | configure (image : List Byte)
  | readStatus
  | readNotice
  -- block timing and the studio line; `elapsed` counts local bit times since the last timed event
  | markBegin (elapsed : Nat) (input : BlockInput)
  | localExpiry (input : BlockInput)
  | sendMark (input : BlockInput)
  | siteBlockStart (input : BlockInput)
  | frameOffer (offset : Nat)
  | arbitrationLost
  | frameSendComplete
  | frameAbandoned (mark : Bool)
  | readbackMute
  | controlFrameAged
  | audioFrameReceived (f : RxAudio)
  | announceReceived (f : RxControl)
  | alertFrameReceived (f : RxControl)
  | requestReceived (f : RxControl)
  | setRemoteOutputReceived (f : RxControl)
  | answerReceived (f : RxControl)
  | lineJoinedMarks
  | lineJoinedAlone
  | announceDue
  | peerLost (node : Fin 8)
  | peerAbsent (node : Fin 8)
  | channelGone (node slot : Fin 8)
  | programSilent
  | programRestored
  -- the clip store and playout
  | dramWriteGrant
  | dramWriteComplete
  | fetchRequest (reader : Reader)
  | fetchGrant
  | fetchComplete
  | playerLoad
  | entryDueAtTime (tag : Half)
  | seguePointReached (player : Fin 2)
  | playerEnding (player : Fin 2)
  | holdFadeComplete (player : Fin 2)
  | playersReleased
  | seatHolding
  | seatYielded
  | yieldTimerExpiry
  -- caller lines
  | callRinging (line : Fin 3)
  | callAbandoned (line : Fin 3)
  | lineChecked (line : Fin 3)
  | lineDeadTimeout (line : Fin 3)
  | callerGone (line : Fin 3)
  | clearingComplete (line : Fin 3)
  | lineInputAccepted (line : Fin 3) (contact : Contact)
  | requestNoAnswer (tag : Half)
  -- emergency alerts; the receiver events carry the bytes that reach the framer
  | receiverBegin (bytes : List Byte)
  | receiverEnd (bytes : List Byte)
  | receiverCancel (bytes : List Byte)
  | receiverTimeout
  | alertFrameRefresh (id : Nat)
  | alertStart
  | attentionEnd
  | gapEnd
  | intervalEnd (id : Nat)
  | alertFadeComplete
  | alertExpired (id : Nat)
  | alertSilentRemoval (id : Nat)
  -- the transmitter link; the two frame events carry bytes of their stream, markers included (log entry 67), and
  -- feedValidRun the frame that completes the run, from its length field on
  | backFrameReceived (bytes : List Byte)
  | backFrameMissing
  | fillerOn
  | fillerFadeInDone
  | fillerOff
  | forwardFrameReceived (bytes : List Byte) (levels : List Bool)
  | missingEvent
  | feedLossLimit
  | feedValidRun (bytes : List Byte) (levels : List Bool)
  | backFrameSend
  | siteStatusAccepted (level : Fin 8)
  | siteReceiverBegin (bytes : List Byte)
  | siteReceiverEnd (bytes : List Byte)
  | siteReceiverCancel (bytes : List Byte)
  | siteAlertExpiry (key : Word)
  | siteAlertAiring
  | siteAttentionEnd
  | siteGapEnd
  | siteAlertCutDone
  -- status inputs and what the line and the receivers discard
  | inputChange (input : Fin 4)
  | startBitReceived
  | noMarkAfterExpiry
  | invalidFrameReceived (f : RxFrame)
  | receiverBadMessage (bytes : List Byte)
  | siteReceiverError (bytes : List Byte)
deriving DecidableEq, Repr

end Sys2Proof
end

