-- ==== Sys2Proof/Decode.lean ====
section
/-! DEFINITION. Host command messages read into commands and written from them (R210), and the host's
table words (this part's table gives no row any bits). -/

namespace Sys2Proof

open Machine

/-- Command types, numbered from 1 in the order of R193's owner table (R210). -/
def commandType : Instr → Option Nat
  | .readCounters => some 1
  | .rejoin => some 2
  | .readChannels => some 3
  | .readTiers => some 4
  | .setGain _ _ => some 5
  | .setChannel _ _ _ => some 6
  | .setTrim _ _ => some 7
  | .readMeters => some 8
  | .defineClip _ _ _ _ => some 9
  | .clipData _ _ _ => some 10
  | .sealClip _ => some 11
  | .deleteClip _ => some 12
  | .setClip _ _ _ => some 13
  | .setGroup _ _ _ _ => some 14
  | .clearGroup _ => some 15
  | .readClip _ => some 16
  | .readGroup _ => some 17
  | .readExtents _ _ => some 18
  | .cueInsert _ _ _ _ _ _ _ _ _ _ _ _ => some 19
  | .cueRemove _ => some 20
  | .cueMove _ _ => some 21
  | .cueGain _ _ => some 22
  | .play => some 23
  | .stop _ => some 24
  | .seatReset => some 25
  | .readCue => some 26
  | .readPlayer _ => some 27
  | .readSeat => some 28
  | .answerLine _ => some 29
  | .screenLine _ => some 30
  | .holdLine _ => some 31
  | .readyLine _ => some 32
  | .takeNext => some 33
  | .takeCaller _ _ => some 34
  | .dropCaller _ _ => some 35
  | .hangUpCaller _ _ => some 36
  | .readLines => some 37
  | .readAirQueue => some 38
  | .readRequests => some 39
  | .remoteOutput _ _ => some 40
  | .alertIssue _ _ _ _ => some 41
  | .alertCancel _ => some 42
  | .readAlerts => some 43
  | .readLink => some 44
  | .lineUpOn _ => some 45
  | .lineUpOff => some 46
  | .readPanel => some 47
  | .configure _ => some 48
  | .readStatus => some 49
  | .readNotice => some 50
  | _ => none

/-- The parameter words of a command of fixed words (R210), in the order its rule names them. A list is a
count word followed by its entries. CLIP DATA and CONFIGURE carry bytes and are written apart. -/
def paramWords : Instr → List Word
  | .setGain a b => [a, b]
  | .setChannel a b c => [a, b, c]
  | .setTrim a b => [a, b]
  | .defineClip a b c l => [a, b, c, word l.length] ++ l
  | .sealClip a => [a]
  | .deleteClip a => [a]
  | .setClip a b c => [a, b, c]
  | .setGroup a b l c => [a, b, word l.length] ++ l ++ [c]
  | .clearGroup a => [a]
  | .readClip a => [a]
  | .readGroup a => [a]
  | .readExtents a b => [a, b]
  | .cueInsert a b c d e f g h i j k l => [a, b, c, d, e, f, g, h, i, j, k, l]
  | .cueRemove a => [a]
  | .cueMove a b => [a, b]
  | .cueGain a b => [a, b]
  | .stop a => [a]
  | .readPlayer a => [a]
  | .answerLine a => [a]
  | .screenLine a => [a]
  | .holdLine a => [a]
  | .readyLine a => [a]
  | .takeCaller a b => [a, b]
  | .dropCaller a b => [a, b]
  | .hangUpCaller a b => [a, b]
  | .remoteOutput a b => [a, b]
  | .alertIssue a b c d => [a, b, c, d]
  | .alertCancel a => [a]
  | .lineUpOn a => [a]
  | _ => []

/-- The parameter bytes of a host command (R210). -/
def commandParams : Instr → List Byte
  | .clipData a b l => be32 a ++ be32 b ++ be32 (word l.length) ++ l
  | .configure l => l
  | i => (paramWords i).flatMap be32

/-- The command message that spells a host command under a tag (R210): type, tag, parameter length and
parameters. -/
def encodeCommand (tag : Half) (i : Instr) : Option (List Byte) :=
  (commandType i).map fun ty =>
    be16 (BitVec.ofNat 16 ty) ++ be16 tag ++ be16 (BitVec.ofNat 16 (commandParams i).length) ++ commandParams i

/-- The words of a run of bytes, when it is a whole number of them. -/
def wordsOf : List Byte → Option (List Word)
  | [] => some []
  | a :: b :: c :: d :: rest => (wordsOf rest).map fun ws => (a ++ b ++ (c ++ d)) :: ws
  | _ => none

/-- A command without parameters. -/
def params0 (i : Instr) : List Word → Option Instr
  | [] => some i
  | _ => none

/-- A command of one word. -/
def params1 (f : Word → Instr) : List Word → Option Instr
  | [a] => some (f a)
  | _ => none

/-- A command of two words. -/
def params2 (f : Word → Word → Instr) : List Word → Option Instr
  | [a, b] => some (f a b)
  | _ => none

/-- A command of three words. -/
def params3 (f : Word → Word → Word → Instr) : List Word → Option Instr
  | [a, b, c] => some (f a b c)
  | _ => none

/-- A command of four words. -/
def params4 (f : Word → Word → Word → Word → Instr) : List Word → Option Instr
  | [a, b, c, d] => some (f a b c d)
  | _ => none

/-- The words of DEFINE CLIP: three words, a count and so many extents. -/
def paramsDefine : List Word → Option Instr
  | a :: b :: c :: n :: l => if l.length = n.toNat then some (.defineClip a b c l) else none
  | _ => none

/-- The words of SET GROUP: two words, a count, so many clips, and the start value. -/
def paramsGroup : List Word → Option Instr
  | a :: b :: n :: l =>
    if l.length = n.toNat + 1 then some (.setGroup a b (l.take n.toNat) (l.getD n.toNat 0)) else none
  | _ => none

/-- The words of CUE INSERT. -/
def paramsCue : List Word → Option Instr
  | [a, b, c, d, e, f, g, h, i, j, k, l] => some (.cueInsert a b c d e f g h i j k l)
  | _ => none

/-- The command that words of a type spell; `none` where the type is unknown or the parameter length is
not the type's own (R193). -/
def decodeWords (ty : Nat) : List Word → Option Instr :=
  match ty with
  | 1 => params0 .readCounters
  | 2 => params0 .rejoin
  | 3 => params0 .readChannels
  | 4 => params0 .readTiers
  | 5 => params2 .setGain
  | 6 => params3 .setChannel
  | 7 => params2 .setTrim
  | 8 => params0 .readMeters
  | 9 => paramsDefine
  | 11 => params1 .sealClip
  | 12 => params1 .deleteClip
  | 13 => params3 .setClip
  | 14 => paramsGroup
  | 15 => params1 .clearGroup
  | 16 => params1 .readClip
  | 17 => params1 .readGroup
  | 18 => params2 .readExtents
  | 19 => paramsCue
  | 20 => params1 .cueRemove
  | 21 => params2 .cueMove
  | 22 => params2 .cueGain
  | 23 => params0 .play
  | 24 => params1 .stop
  | 25 => params0 .seatReset
  | 26 => params0 .readCue
  | 27 => params1 .readPlayer
  | 28 => params0 .readSeat
  | 29 => params1 .answerLine
  | 30 => params1 .screenLine
  | 31 => params1 .holdLine
  | 32 => params1 .readyLine
  | 33 => params0 .takeNext
  | 34 => params2 .takeCaller
  | 35 => params2 .dropCaller
  | 36 => params2 .hangUpCaller
  | 37 => params0 .readLines
  | 38 => params0 .readAirQueue
  | 39 => params0 .readRequests
  | 40 => params2 .remoteOutput
  | 41 => params4 .alertIssue
  | 42 => params1 .alertCancel
  | 43 => params0 .readAlerts
  | 44 => params0 .readLink
  | 45 => params1 .lineUpOn
  | 46 => params0 .lineUpOff
  | 47 => params0 .readPanel
  | 49 => params0 .readStatus
  | 50 => params0 .readNotice
  | _ => fun _ => none

/-- The bytes of CLIP DATA: clip, offset, a count word and so many bytes. -/
def paramsData (ps : List Byte) : Option Instr :=
  let bytes := ps.drop 12
  if 12 ≤ ps.length ∧ bytes.length = (wordAt ps 8).toNat then
    some (.clipData (wordAt ps 0) (wordAt ps 4) bytes)
  else none

/-- The command that a message's type and parameter bytes spell (R193, R210). Parameters are at most
1,024 bytes. CONFIGURE takes any length: the image's own check judges it (R201, index 0). -/
def decodeCommand (ty : Nat) (ps : List Byte) : Option Instr :=
  if 1024 < ps.length then none
  else match ty with
    | 10 => paramsData ps
    | 48 => some (.configure ps)
    | _ => (wordsOf ps).bind (decodeWords ty)

/-- What a whole command message spells: its header's length must be the number of parameter bytes the
transfer held (R192, R193). -/
def decodeMessage (bytes : List Byte) : Option (Half × Half × List Byte × Instr) :=
  if 6 ≤ bytes.length ∧ (halfAt bytes 4).toNat = (bytes.drop 6).length then
    (decodeCommand (halfAt bytes 0).toNat (bytes.drop 6)).map fun i =>
      (halfAt bytes 0, halfAt bytes 2, bytes.drop 6, i)
  else none

/-- No row of spec/opcode_table.json gives bits, so no word spells a command (DEDUCED, log entry 51). -/
def decodeTableWord (_nbits _w : Nat) : Option Instr := none

end Sys2Proof
end

