-- ==== Sys2Proof/Machine/State.lean ====
section
/-! DEFINITION. Everything the manual gives the part, unit by unit, as plain data, and the state right
after reset. Fields marked MODEL are the model's own: they hold what the manual speaks of without
giving it a register (an event already told, a frame on the wire, what a port shows). -/

namespace Sys2Proof.Machine

/-- No event or command of this part faults: the manual gives every one an effect, and DRAM has no
address outside its 512 extents (R63). -/
inductive Fault where
deriving DecidableEq, Repr

/-- Why a command could be refused by the model. -/
inductive Refusal where
  /-- Raised by `exec` for a row that has no meaning yet. Safe: nothing can be proved through it. -/
  | notModelled (mnemonic : String)
deriving DecidableEq, Repr

/-! ## Line Unit -/

/-- Line states (R14 to R17). -/
inductive LineState where
  | offline | listening | joined | muted
deriving DecidableEq, Repr, Inhabited

/-- Seat states (R101), coded in this order in announces. -/
inductive SeatState where
  | standby | bidding | holding | yielded
deriving DecidableEq, Repr, Inhabited

/-- Link states (R160), coded in this order in announces. -/
inductive LinkState where
  | down | acquiring | up | degraded
deriving DecidableEq, Repr, Inhabited

/-- Caller line states (R106), coded in this order in announces. -/
inductive CallState where
  | idle | ringing | checking | screening | holding | ready | onAir | dead | clearing
deriving DecidableEq, Repr, Inhabited

/-- A caller line's summary in an announce (R21). -/
structure LineSummary where
  state : CallState
  age : Nat
deriving DecidableEq, Repr, Inhabited

/-- The items of an ANNOUNCE (R21). -/
structure AnnounceBody where
  node : Byte
  stamp : Half
  roles : Roles
  seat : SeatState
  silence : Bool
  link : LinkState
  echo : Option Nat
  lines : Tab LineSummary 3
deriving DecidableEq, Repr

/-- Origin kinds (R131), in code order. -/
inductive OriginKind where
  | receiver | command | site
deriving DecidableEq, Repr, Inhabited

/-- Alert classes (R132), highest first, in code order. -/
inductive AlertClass where
  | emergency | warning | advisory | test
deriving DecidableEq, Repr, Inhabited

/-- Alert record states (R131), in code order. -/
inductive AlertState where
  | capturing | pending | airing | interval
deriving DecidableEq, Repr, Inhabited

/-- Airing phases (R131), in code order. -/
inductive AlertPhase where
  | attention | gap | message
deriving DecidableEq, Repr, Inhabited

/-- End reasons (R142), coded from 1. -/
inductive EndReason where
  | complete | expired | cancelled | duplicate | displaced
deriving DecidableEq, Repr, Inhabited

/-- The items of an ALERT frame (R142); `ended` marks an ENDED frame, and `reason` is its end reason. -/
structure AlertBody where
  id : Nat
  key : Word
  origin : OriginKind
  cls : AlertClass
  state : AlertState
  phase : AlertPhase
  ended : Bool
  reason : Option EndReason
  repeats : Nat
  remaining : Nat
  duration : Nat
  age : Nat
  message : Bool
  truncated : Bool
  noCapture : Bool
deriving DecidableEq, Repr

/-- Request verbs (R122), in code order. -/
inductive Verb where
  | take | drop | hangUp | setRemoteOutput
deriving DecidableEq, Repr, Inhabited

/-- The items of a REQUEST (R122). -/
structure RequestBody where
  verb : Verb
  tag : Half
  target : Nat
  item : Nat
  argument : Nat
deriving DecidableEq, Repr

/-- Answer outcomes (R124), in code order. -/
inductive Answer where
  | accepted | refusedState | refusedLimit | refusedRole
deriving DecidableEq, Repr, Inhabited

/-- The items of an ANSWER (R125). -/
structure AnswerBody where
  requester : Nat
  tag : Half
  outcome : Answer
  item : Nat
  after : Nat
deriving DecidableEq, Repr

/-- What a control frame carries. -/
inductive ControlBody where
  | announce (b : AnnounceBody)
  | alert (b : AlertBody)
  | request (b : RequestBody)
  | answer (b : AnswerBody)
deriving DecidableEq, Repr

/-- A frame of the control transmit queue (R6, R10): its frame sequence number, its body and its age. -/
structure ControlFrame where
  seq : Byte
  body : ControlBody
  age : Nat
deriving DecidableEq, Repr

/-- A frame of the AUDIO transmit queue (R6, R9): its class, and what the source stage handed. -/
structure AudioFrame where
  cls : Nat
  tier : Tier
  air : Bool
  cue : Bool
  mono : Bool
  last : Bool
  seq : Byte
  tag : Half
  samples : Block
deriving DecidableEq, Repr

/-- Which queued frame the node is sending: a slot's AUDIO frame, or a frame of the control queue as it stood
when it was offered. -/
inductive SendSource where
  | slot (i : Fin 8)
  | control (f : ControlFrame)
deriving DecidableEq, Repr

/-- MODEL. A frame on the wire: its queue place, its kind and its bits from the first arbitration bit
to the last CRC bit. -/
structure Sending where
  source : SendSource
  announce : Bool
  bits : List Bool
deriving DecidableEq, Repr

/-- Block timing (R3, R15). -/
structure Clock where
  timer : Nat
  running : Bool
  blockCount : Word
  /-- MODEL. Local bit times from the last recognised mark begin to the last timer restart, or none
  when no mark has been recognised since the line state left OFFLINE or LISTENING was entered. -/
  sinceMark : Option Nat
  /-- MODEL. A local expiry has given a block start and neither a mark nor 64 bit times have followed. -/
  expiryOpen : Bool
deriving DecidableEq, Repr

/-- The line state and the counts that decide it (R14 to R21). -/
structure LineUnit where
  state : LineState
  goodMarks : Nat
  noMarks : Nat
  stamp : Half
  announceCount : Nat
  mismatchRun : Nat
  /-- MODEL. A frame is being received and its last CRC bit has not been read (R1, R11). -/
  receiving : Bool
  /-- MODEL. A frame has been received to its last CRC bit since the last mark begin: the node goes on receiving through
  the 16 bit times of its gap (R1, R11). -/
  gap : Bool
  /-- MODEL. How many stamps have been drawn: the argument of the free value. -/
  draws : Nat
deriving DecidableEq, Repr

/-- The transmit side (R6 to R10). -/
structure Transmit where
  audio : Tab (Option AudioFrame) 8
  control : List ControlFrame
  frameSeq : Byte
  sending : Option Sending
  /-- MODEL. The bits of the last frame completed on the line. -/
  sent : List Bool
  /-- MODEL. A block mark is the last thing this node began to send. -/
  markSent : Bool
deriving DecidableEq, Repr

/-- The error counters (R13), in mask order: CRC, TRUNCATED, OVERRUN, TX_MISMATCH, TABLE_FULL. -/
inductive Counter where
  | crc | truncated | overrun | txMismatch | tableFull
deriving DecidableEq, Repr

/-- Peer Table entry states (R22). -/
inductive PeerState where
  | absent | present | lost | self
deriving DecidableEq, Repr, Inhabited

/-- A Peer Table entry (R22). -/
structure Peer where
  state : PeerState
  stamp : Half
  roles : Roles
  since : Nat
  body : Option AnnounceBody
deriving DecidableEq, Repr

/-! ## Contribution Unit -/

/-- Presence of a channel (R31). -/
inductive Presence where
  | present | concealed | stale
deriving DecidableEq, Repr, Inhabited

/-- A channel's block as it arrives (R26, R28, R30), labelled with its block count. -/
structure Arrival where
  block : Word
  tier : Tier
  air : Bool
  cue : Bool
  mono : Bool
  last : Bool
  tag : Half
  seq : Byte
  samples : Block
deriving DecidableEq, Repr

/-- A Contribution Table entry (R27). -/
structure Entry where
  node : Fin 8
  slot : Fin 8
  tier : Tier
  air : Bool
  cue : Bool
  mono : Bool
  own : Bool
  tag : Half
  presence : Presence
  missing : Nat
  arrival : Option Arrival
  samples : Block
  seq : Byte
  endPending : Bool
deriving DecidableEq, Repr

/-- The Contribution Unit's state. -/
structure Contribution where
  table : List Entry
  active : PerTier Bool
  inForce : Option Tier
  targets : PerTier Nat
  weights : PerTier Nat
  fullReported : Bool
deriving DecidableEq, Repr

/-! ## Mix Engine -/

/-- A desk input's source stage (R46, R49). -/
structure DeskSource where
  gain : Ramp
  level : Nat
  cough : Bool
  air : Bool
  cue : Bool
deriving DecidableEq, Repr

/-- A caller line's source stage (R46, R49, R56). -/
structure CallerSource where
  gain : Ramp
  level : Nat
  cue : Bool
  previous : Int
deriving DecidableEq, Repr

/-- A bus's meters (R58). -/
structure Meter where
  last : Nat
  held : Nat
  clips : Nat
deriving DecidableEq, Repr

/-- The Mix Engine's state. -/
structure MixEngine where
  desk : Tab DeskSource 2
  caller : Tab CallerSource 3
  playerGain : Tab Ramp 2
  playerEnvelope : Tab Ramp 2
  alertEnvelope : Ramp
  trims : Tab Ramp 6
  endOwed : Tab Bool 8
  seq : Tab Byte 8
  /-- MODEL. The slots that produced in the previous block (R48). -/
  produced : Tab Bool 8
  outputs : Tab Block 8
  phoneOutputs : Tab (List Int) 3
  /-- MODEL. What the ports play during the present block: the buffers as they stood before (R41). -/
  playing : Tab Block 8
  phonePlaying : Tab (List Int) 3
  meters : Tab Meter 6
  silent : Bool
  quietRun : Nat
  soundRun : Nat
deriving DecidableEq, Repr

/-! ## Clip Store -/

/-- Clip states (R65). -/
inductive ClipState where
  | empty | filling | ready
deriving DecidableEq, Repr, Inhabited

/-- A clip descriptor (R65). PROTECTED is the clip number's: clips 252 to 255. -/
structure Clip where
  state : ClipState
  format : ClipFormat
  length : Nat
  map : List (Fin 512)
  queued : Nat
  written : Nat
  sealPending : Bool
  segue : Nat
  trim : Nat
  assigned : Bool
  capacity : Nat
deriving DecidableEq, Repr

/-- A run of fill bytes' DRAM addresses (R69): the first byte's, and where the run crosses an extent
boundary, the place in the run and the address beyond it. -/
structure FillRun where
  clip : Fin 256
  offset : Nat
  count : Nat
  address : Nat
  split : Option (Nat × Nat)
deriving DecidableEq, Repr

/-- A fill queue entry (R69): an address entry, or up to 64 bytes of a clip. -/
inductive FillEntry where
  | address (run : FillRun)
  | data (clip : Fin 256) (bytes : List Byte)
deriving DecidableEq, Repr

/-- The drain position (R70): the run last taken and how many of its bytes are written. -/
structure Drain where
  run : FillRun
  done : Nat
deriving DecidableEq, Repr

/-- A fetch request (R73): its reader, clip and starting frame. MODEL: `place` is the reader's fetch
position when it asked, and `live` is cleared when the reader no longer wants the frames. -/
structure Fetch where
  reader : Reader
  clip : Fin 256
  frame : Nat
  place : Nat
  live : Bool
deriving DecidableEq, Repr

/-- What the DRAM port carries (R72): nothing, the head data entry's write (`marks` clear once its
clip has been released, R76), or a fetch with the frames read. -/
inductive DramPort where
  | free
  | write (marks : Bool)
  | fetch (request : Fetch) (frames : Block)
deriving DecidableEq, Repr

/-- The two kinds of DRAM operation (R72). -/
inductive DramKind where
  | write | fetch
deriving DecidableEq, Repr, Inhabited

/-- Rotation group modes (R77). -/
inductive GroupMode where
  | single | sweep
deriving DecidableEq, Repr, Inhabited

/-- A rotation group (R77). -/
structure Group where
  clips : List (Fin 256)
  mode : GroupMode
  start : Nat
  pointer : Nat
deriving DecidableEq, Repr

/-- The Clip Store's state; the DRAM contents stand in `State.dram`. -/
structure ClipStore where
  owner : Tab (Option (Fin 256)) 512
  directory : Tab Clip 256
  fill : List FillEntry
  drain : Option Drain
  port : DramPort
  lastKind : DramKind
  waiting : List Fetch
  /-- MODEL. How many of the waiting requests, at the tail, were asked for in the present event (R72). -/
  asked : Nat
  groups : Tab Group 16
deriving DecidableEq, Repr

/-! ## Playout Unit -/

/-- What a cue entry plays (R80). -/
inductive CueSource where
  | clip (c : Fin 256)
  | group (g : Fin 16)
deriving DecidableEq, Repr

/-- Start modes (R80). -/
inductive StartMode where
  | follow | manual | atTime
deriving DecidableEq, Repr, Inhabited

/-- Hold behaviours (R80). -/
inductive HoldBehaviour where
  | resume | restart | skip
deriving DecidableEq, Repr, Inhabited

/-- End actions (R80). -/
inductive EndAction where
  | remove | requeue
deriving DecidableEq, Repr, Inhabited

/-- Cue entry states (R80). -/
inductive CueState where
  | waiting | loaded | playing | held
deriving DecidableEq, Repr, Inhabited

/-- A cue list entry (R80). -/
structure CueEntry where
  tag : Half
  source : CueSource
  startMode : StartMode
  startTime : Word
  gain : Nat
  fadeIn : Nat
  fadeOut : Nat
  tier : Tier
  hold : HoldBehaviour
  endAction : EndAction
  state : CueState
  due : Bool
  dueSince : Nat
deriving DecidableEq, Repr

/-- Player states (R85). -/
inductive PlayerState where
  | idle | loading | loaded | playing | held | ending
deriving DecidableEq, Repr, Inhabited

/-- Hold phases (R85). -/
inductive HoldPhase where
  | fading | waiting
deriving DecidableEq, Repr, Inhabited

/-- Causes with which an entry ends (R96). -/
inductive EntryEnd where
  | complete | stop | skip | removed
deriving DecidableEq, Repr, Inhabited

/-- The entry a player holds (R85). MODEL: `gain` is the entry's cue gain, kept for an entry that has left
the list (R82, R87). -/
structure HeldEntry where
  tag : Half
  tier : Tier
  gain : Nat
  fadeIn : Nat
  fadeOut : Nat
  hold : HoldBehaviour
deriving DecidableEq, Repr

/-- One clip of a stream (R85): trim, segue point, format and length once copied. -/
structure StreamClip where
  clip : Fin 256
  copied : Bool
  trim : Nat
  segue : Nat
  format : ClipFormat
  length : Nat
deriving DecidableEq, Repr

/-- A buffered frame: its samples, whether it came from a mono clip, and its clip's place in the stream. -/
structure BufFrame where
  pair : Pair
  mono : Bool
  part : Nat
deriving DecidableEq, Repr

/-- A player record (R85). -/
structure Player where
  state : PlayerState
  phase : HoldPhase
  entry : Option HeldEntry
  stream : List StreamClip
  position : Nat
  fetchPosition : Nat
  buffer : List BufFrame
  holdPosition : Nat
  segueGiven : Bool
  low : Bool
  underruns : Nat
  /-- MODEL. The entry has posted its PLAYER_UNDERRUN (R89). -/
  underrunTold : Bool
  /-- MODEL. A NOT_WRITTEN completion has come since the last block start (R88). -/
  notWritten : Bool
  /-- MODEL. The stream place of the clip last heard (R87). -/
  part : Nat
  /-- MODEL. The entry's END block has been produced (R89). -/
  ended : Bool
  /-- MODEL. With what cause the entry will end. -/
  cause : EntryEnd
  /-- MODEL. The entry has been taken out of the cue list (R82). -/
  detached : Bool
  /-- MODEL. The player reloads after a release (R100), by this behaviour. -/
  reload : Option HoldBehaviour
  /-- MODEL. AIR kept through a fade that began as the seat was lost (R101). -/
  airKept : Bool
  /-- MODEL. The release count reached 16 while the player was FADING (R100). -/
  releaseDue : Bool
deriving DecidableEq, Repr

/-- The Playout Unit's state. -/
structure Playout where
  cues : List CueEntry
  players : Tab Player 2
  seat : SeatState
  bidCount : Nat
  yieldTimer : Nat
  airRun : Nat
  holdLatch : Bool
  releaseCount : Nat
  /-- MODEL. The release count has reached 16 and the release has not yet been made (R97). -/
  releaseReached : Bool
deriving DecidableEq, Repr

/-! ## Contact filters -/

/-- A contact filter (R178): accepted level, run count and hold-off count. -/
structure Filter where
  level : Bool
  run : Nat
  holdOff : Nat
deriving DecidableEq, Repr

/-! ## Caller Unit -/

/-- The voice field of a caller line (R106). -/
inductive VoiceHold where
  | none
  | waiting
  | held (v : Fin 4)
deriving DecidableEq, Repr

/-- A caller line record (R106). -/
structure CallLine where
  state : CallState
  hook : Bool
  ring : Filter
  loop : Filter
  timer : Nat
  loopAbsent : Nat
  voice : VoiceHold
  checkCount : Nat
  checkPeak : Nat
  poorHybrid : Bool
  readyAge : Nat
deriving DecidableEq, Repr

/-- An Air Queue entry (R118). -/
structure AirEntry where
  node : Fin 8
  line : Fin 3
  stamp : Word
deriving DecidableEq, Repr

/-- Request phases (R122). -/
inductive RequestPhase where
  | queued | sent
deriving DecidableEq, Repr, Inhabited

/-- A pending request (R122). -/
structure Request where
  tag : Half
  verb : Verb
  target : Fin 8
  item : Nat
  argument : Nat
  phase : RequestPhase
  wait : Nat
deriving DecidableEq, Repr

/-- The Caller Unit's state. -/
structure Caller where
  lines : Tab CallLine 3
  onAir : Nat
  airQueue : List AirEntry
  requests : List Request
  tagCounter : Half
  /-- MODEL. REJOIN has emptied the Air Queue; own READY lines return at the next block start (R120). -/
  requeueOwn : Bool
deriving DecidableEq, Repr

/-! ## Alert Unit -/

/-- An alert record (R131). -/
structure Alert where
  key : Word
  id : Nat
  origin : OriginKind
  cls : AlertClass
  duration : Nat
  minuteCount : Nat
  repeats : Nat
  remaining : Nat
  interval : Nat
  clip : Option (Fin 256)
  /-- Whether a message clip is held: at a heard record, as its origin's frames say (R143). -/
  message : Bool
  state : AlertState
  phase : AlertPhase
  phaseCount : Nat
  age : Nat
  truncated : Bool
  noCapture : Bool
  confirmed : Bool
  testWait : Nat
  silence : Nat
  /-- MODEL. Block starts since the record's last frame was handed (R142). -/
  sinceFrame : Nat
  /-- MODEL. The record's frame was dropped unsent; a fresh one is due (R142). -/
  frameOwed : Bool
deriving DecidableEq, Repr

/-- Where a link receiver stands on its stream (R208): hunting for A5h; for 5Ah after it; at the length field,
with its first byte once read; or collecting a frame, newest byte first, with so many bytes to come. -/
inductive LinkRx where
  | hunt
  | marker
  | size (first : Option Byte)
  | body (bytes : List Byte) (left : Nat)
deriving DecidableEq, Repr

/-- A receiver framer (R135): HUNT; HEADER with the type once read; BODY with what has been read;
CHECK with the whole body. -/
inductive Framer where
  | hunt
  | header (type : Option Byte)
  | body (type length : Byte) (bytes : List Byte)
  | check (type length : Byte) (bytes : List Byte)
deriving DecidableEq, Repr

/-- States of an alert player (R147). -/
inductive AlertPlay where
  | idle | tone | silent | message | fading
deriving DecidableEq, Repr, Inhabited

/-- The alert player's record (R147). -/
structure AlertPlayer where
  state : AlertPlay
  alert : Option Nat
  clip : Option (Fin 256)
  position : Nat
  fetchPosition : Nat
  buffer : Block
  underruns : Nat
  /-- MODEL. What the player was handing when it was cut (R150). -/
  cutFrom : AlertPlay
  /-- MODEL. A block of this airing has been handed (R150). -/
  handed : Bool
  /-- MODEL. The airing has posted its ALERT_UNDERRUN (R148). -/
  underrunTold : Bool
  /-- MODEL. The clip's last frame has been fetched. -/
  fetchedAll : Bool
  /-- MODEL. A NOT_WRITTEN completion has come since the last block start. -/
  notWritten : Bool
deriving DecidableEq, Repr

/-- The Alert Unit's state. -/
structure AlertUnit where
  table : List Alert
  recent : List Word
  originSeq : Byte
  framer : Framer
  /-- MODEL. Block starts since the start byte of the message being framed (R209). -/
  framerBlocks : Nat
  errors : Nat
  errorTold : Bool
  heardDropped : Nat
  player : AlertPlayer
deriving DecidableEq, Repr

/-! ## Link Unit -/

/-- Filler player states (R165). -/
inductive FillerState where
  | off | fadingIn | on | fadingOut
deriving DecidableEq, Repr, Inhabited

/-- A filler player's record (R165). -/
structure Filler where
  state : FillerState
  trim : Nat
  position : Nat
  fetchPosition : Nat
  buffer : Block
  primed : Bool
  gain : Ramp
  envelope : Ramp
  underruns : Nat
  /-- MODEL. FILLER_UNDERRUN has been posted since the player left OFF. -/
  underrunTold : Bool
  /-- MODEL. The trim has been copied for this priming. -/
  trimCopied : Bool
  /-- MODEL. A NOT_WRITTEN completion has come since the last block start. -/
  notWritten : Bool
deriving DecidableEq, Repr

/-- Site states (R172), in code order. -/
inductive SiteState where
  | noFeed | locking | feeding | filling
deriving DecidableEq, Repr, Inhabited

/-- Back history outcomes (R159). -/
inductive BackOutcome where
  | valid | missing
deriving DecidableEq, Repr, Inhabited

/-- The Link Unit at a LINK node. -/
structure LinkEnd where
  forwardCount : Half
  state : LinkState
  history : List BackOutcome
  validRun : Nat
  missingRun : Nat
  backWait : Nat
  lastSiteCount : Option Half
  reportState : SiteState
  reportDepth : Nat
  reportTrim : Int
  reportPeak : Nat
  status : Tab Bool 8
  changed : Tab Bool 8
  echo : Option Nat
  outputs : Tab Nat 4
  forwardErrors : Nat
  backErrors : Nat
  filler : Filler
  fillerDelay : Nat
  /-- MODEL. Where the receiver stands on the back stream (R208). -/
  stream : LinkRx
  /-- MODEL. The bytes of the last forward frame sent, from its marker on (R208). -/
  sent : List Byte
deriving DecidableEq, Repr

/-- A site alert record (R179). -/
structure SiteAlert where
  key : Word
  cls : AlertClass
  duration : Nat
  minuteCount : Nat
  age : Nat
  aired : Bool
deriving DecidableEq, Repr

/-- Site alert events (R180). -/
inductive SiteEventKind where
  | start | cancel
deriving DecidableEq, Repr, Inhabited

/-- A relay queue event (R180). -/
structure SiteEvent where
  kind : SiteEventKind
  key : Word
  cls : AlertClass
  sends : Nat
deriving DecidableEq, Repr

/-- The site alert player (R181). -/
structure SitePlayer where
  state : AlertPlay
  key : Option Word
  /-- MODEL. The class of the record being aired, for the SITE_ALERT notices of its end. -/
  cls : AlertClass
  phaseCount : Nat
  clip : Option (Fin 256)
  position : Nat
  fetchPosition : Nat
  buffer : Block
  envelope : Ramp
  cutFrom : AlertPlay
  handed : Bool
  fetchedAll : Bool
  notWritten : Bool
deriving DecidableEq, Repr

/-- The Link Unit at a SITE node. -/
structure SiteEnd where
  state : SiteState
  lockingOrigin : SiteState
  expected : Half
  gapWait : Nat
  lossRun : Nat
  validRun : Nat
  buffer : Block
  lastFrame : Block
  trim : Int
  backCount : Nat
  frameCount : Half
  reportAlert : Option Nat
  reportClass : Option AlertClass
  reportFiller : Bool
  reportLineUp : Bool
  forwardCrc : Nat
  offAirPeak : Nat
  filler : Filler
  levels : Tab Nat 4
  status : Tab Filter 8
  alerts : List SiteAlert
  recent : List Word
  relay : List SiteEvent
  player : SitePlayer
  underruns : Nat
  overflows : Nat
  lates : Nat
  breaks : Nat
  slips : Nat
  forwardCrcTotal : Nat
  errors : Nat
  errorTold : Bool
  framer : Framer
  framerBlocks : Nat
  /-- MODEL. FEED_OVERFLOW has been posted since FEEDING was entered. -/
  overflowTold : Bool
  /-- MODEL. FEED_UNDERRUN has been posted since FEEDING was entered. -/
  underrunTold : Bool
  /-- MODEL. The last sample frame drawn since FEEDING was entered (R173). -/
  lastDrawn : Pair
  /-- The output block formed at the last site block start, and the one the ports now play (R176). -/
  output : Block
  playing : Block
  /-- MODEL. Where the receiver stands on the forward stream (R208). -/
  stream : LinkRx
  /-- MODEL. The bytes of the last back frame sent, from its marker on (R208). -/
  sent : List Byte
deriving DecidableEq, Repr

/-! ## Tone Generator -/

/-- Who holds or asks for a tone voice (R183, R186). -/
inductive Holder where
  | alertUnit
  | line (l : Fin 3)
  | lineUp
deriving DecidableEq, Repr

/-- A tone voice (R183). -/
structure Voice where
  holder : Option Holder
  dual : Bool
  f1 : Nat
  f2 : Nat
  i1 : Nat
  i2 : Nat
  p1 : Word
  p2 : Word
  level : Nat
  /-- MODEL. The block the voice formed at the last block start (R183). -/
  block : List Int
deriving DecidableEq, Repr

/-- Line-up states (R187). -/
inductive LineUp where
  | off | waiting | on
deriving DecidableEq, Repr, Inhabited

/-- Line-up routes (R187). -/
inductive Route where
  | air | cue
deriving DecidableEq, Repr, Inhabited

/-- A lamp output (R188). -/
structure Lamp where
  lit : Bool
  blink : Nat
deriving DecidableEq, Repr

/-- The Tone Generator's state. -/
structure Tones where
  voices : Tab Voice 4
  waitList : List Holder
  lineUp : LineUp
  route : Route
  lamps : Tab Lamp 4
  inputs : Tab Filter 4
  coughs : Tab Nat 2
deriving DecidableEq, Repr

/-! ## Control Port -/

/-- Device states (R199). -/
inductive DeviceState where
  | unconfigured | running
deriving DecidableEq, Repr, Inhabited

/-- Boot status (R203), in the order of the state table. -/
inductive BootStatus where
  | none | reading | accepted | refused
deriving DecidableEq, Repr, Inhabited

/-- Causes of a refused flash image (R203). -/
inductive BootCause where
  | noImage | check | field
deriving DecidableEq, Repr, Inhabited

/-- Port states (R192). -/
inductive PortState where
  | idle | acting | ready
deriving DecidableEq, Repr, Inhabited

/-- Result codes, numbered in this order (R210). -/
inductive ResultCode where
  | ok | pending | busy | full | noSuch | inUse | badParam | wrongState | notRole | notConfigured
  | extentOwned | badOffset | notOrigin | limit
deriving DecidableEq, Repr, Inhabited

/-- A command message (R210) as it stands in the command slot. -/
structure CommandMessage where
  type : Half
  tag : Half
  params : List Byte
deriving DecidableEq, Repr

/-- A response message (R210); its data are words, each four bytes most significant first. -/
structure Response where
  type : Half
  tag : Half
  code : ResultCode
  portBusy : Bool
  data : List Word
deriving DecidableEq, Repr

/-- The notice kinds, numbered from 1 in this order (R196, R210). -/
inductive NoticeKind where
  | controlDropped | lineJoined | duplicateId | peerState | channelsFull | channelGone | tierChange
  | clipReady | entryEnded | playerLow | playerUnderrun | startIgnored | entryStarted | lateStart
  | playersReleased | playersHeld | seatState
  | callRinging | callAbandoned | lineDead | lineChecked | callerGone | lineState | airQueue | requestDone
  | alertNew | alertDisplaced | alertDropped | receiverError | alertCaptured | alertAiring | alertEnded
  | alertUnderrun | alertYielded | alertUnconfirmed | alertConfirmed | siteAlert
  | programSilent | programRestored | linkState | siteState | siteStatus | remoteOutputSet
  | fillerUnderrun | fillerMissing | fillerOn | fillerOff | feedOverflow | feedState | feedUnderrun | slip
  | inputChange | configured | configRefused
deriving DecidableEq, Repr, Inhabited

/-- A notice (R195): its kind, the block count at which it was posted, and what its rule says it
tells, in that rule's order. -/
structure Notice where
  kind : NoticeKind
  block : Word
  items : List Word
deriving DecidableEq, Repr

/-- The Control Port's state. -/
structure ControlPort where
  device : DeviceState
  boot : BootStatus
  bootCause : Option BootCause
  bootField : Nat
  port : PortState
  slot : Option CommandMessage
  response : Option Response
  busyFlag : Bool
  rdy : Bool
  notices : List Notice
  dropped : Nat
  routing : Tab (Option (Fin 4)) 6
  ints : Tab Bool 4
  /-- MODEL. What the host read at its last completed response read. -/
  lastRead : Option Response
  /-- MODEL. The bytes that this read shifted out (R210). -/
  shifted : List Byte
  /-- MODEL. Reset has been asserted, or power has come on, and has not yet been released. -/
  resetHeld : Bool
deriving DecidableEq, Repr

/-! ## The whole part -/

/-- The state of the part. -/
structure State where
  cp : ControlPort
  settings : Settings
  clock : Clock
  lu : LineUnit
  tx : Transmit
  counters : Tab Nat 5
  peers : Tab Peer 8
  cu : Contribution
  me : MixEngine
  cs : ClipStore
  /-- DRAM contents: addresses strictly rising, no entry equal to what an unlisted address reads as. -/
  dram : List Host.Cell
  pu : Playout
  ku : Caller
  au : AlertUnit
  link : LinkEnd
  site : SiteEnd
  tg : Tones
  /-- MODEL. The commands and events that wait, first in, first out. -/
  pending : List Instr
deriving DecidableEq, Repr

/-! ## Reset -/

/-- An absent peer (R22). -/
def Peer.absent : Peer := ⟨.absent, 0, Roles.none, 0, none⟩

/-- A contact filter at reset (R178). -/
def Filter.reset : Filter := ⟨false, 0, 0⟩

/-- An EMPTY descriptor at its reset values (R65), which give no format: M16 (DESIGN CHOICE, log entry 58). -/
def Clip.empty : Clip := ⟨.empty, .m16, 0, [], 0, 0, false, 0, 4096, false, 0⟩

/-- An empty rotation group (R77). -/
def Group.empty : Group := ⟨[], .single, 0, 0⟩

/-- An IDLE player (R85). -/
def Player.idle : Player where
  state := .idle
  phase := .fading
  entry := none
  stream := []
  position := 0
  fetchPosition := 0
  buffer := []
  holdPosition := 0
  segueGiven := false
  low := false
  underruns := 0
  underrunTold := false
  notWritten := false
  part := 0
  ended := false
  cause := .complete
  detached := false
  reload := none
  airKept := false
  releaseDue := false

/-- A caller line at reset (R106). -/
def CallLine.reset : CallLine :=
  ⟨.idle, false, Filter.reset, Filter.reset, 0, 0, .none, 0, 0, false, 0⟩

/-- The alert player at reset (R147). -/
def AlertPlayer.reset : AlertPlayer :=
  ⟨.idle, none, none, 0, 0, [], 0, .idle, false, false, false, false⟩

/-- A filler player at reset (R165). -/
def Filler.reset : Filler :=
  ⟨.off, 4096, 0, 0, [], false, Ramp.rest 0, Ramp.rest 4096, 0, false, false, false⟩

/-- The site alert player at reset (Transmitter Link, state table). -/
def SitePlayer.reset : SitePlayer :=
  ⟨.idle, none, .test, 0, none, 0, 0, [], Ramp.rest 4096, .idle, false, false, false⟩

/-- A tone voice at reset (R183). -/
def Voice.reset : Voice := ⟨none, false, 20, 20, 0, 0, 0, 0, 0, []⟩

/-- The Control Port at reset (its state table, R205). -/
def ControlPort.reset : ControlPort where
  device := .unconfigured
  boot := .none
  bootCause := none
  bootField := 0
  port := .idle
  slot := none
  response := none
  busyFlag := false
  rdy := false
  notices := []
  dropped := 0
  routing := Vector.replicate 6 (some 0)
  ints := Vector.replicate 4 false
  lastRead := none
  shifted := []
  resetHeld := true

/-- The Mix Engine at reset (its state table). -/
def MixEngine.reset : MixEngine where
  desk := Vector.replicate 2 ⟨Ramp.rest 4096, 4096, false, false, false⟩
  caller := Vector.replicate 3 ⟨Ramp.rest 4096, 4096, false, 0⟩
  playerGain := Vector.replicate 2 (Ramp.rest 4096)
  playerEnvelope := Vector.replicate 2 (Ramp.rest 0)
  alertEnvelope := Ramp.rest 0
  trims := Vector.replicate 6 (Ramp.rest 4096)
  endOwed := Vector.replicate 8 false
  seq := Vector.replicate 8 0
  produced := Vector.replicate 8 false
  outputs := Vector.replicate 8 silence
  phoneOutputs := Vector.replicate 3 (List.replicate 16 0)
  playing := Vector.replicate 8 silence
  phonePlaying := Vector.replicate 3 (List.replicate 16 0)
  meters := Vector.replicate 6 ⟨0, 0, 0⟩
  silent := false
  quietRun := 0
  soundRun := 0

/-- The Clip Store at reset (its state table, R72). -/
def ClipStore.reset : ClipStore where
  owner := Vector.replicate 512 none
  directory := Vector.replicate 256 Clip.empty
  fill := []
  drain := none
  port := .free
  lastKind := .fetch
  waiting := []
  asked := 0
  groups := Vector.replicate 16 Group.empty

/-- The Link Unit's LINK end at reset (its state table). -/
def LinkEnd.reset : LinkEnd where
  forwardCount := 0
  state := .down
  history := []
  validRun := 0
  missingRun := 0
  backWait := 0
  lastSiteCount := none
  reportState := .noFeed
  reportDepth := 0
  reportTrim := 0
  reportPeak := 0
  status := Vector.replicate 8 false
  changed := Vector.replicate 8 false
  echo := none
  outputs := Vector.replicate 4 0
  forwardErrors := 0
  backErrors := 0
  filler := Filler.reset
  fillerDelay := 0
  stream := .hunt
  sent := []

/-- The Link Unit's SITE end at reset (its state table). -/
def SiteEnd.reset : SiteEnd where
  state := .noFeed
  lockingOrigin := .noFeed
  expected := 0
  gapWait := 0
  lossRun := 0
  validRun := 0
  buffer := []
  lastFrame := silence
  trim := 0
  backCount := 0
  frameCount := 0
  reportAlert := none
  reportClass := none
  reportFiller := false
  reportLineUp := false
  forwardCrc := 0
  offAirPeak := 0
  filler := Filler.reset
  levels := Vector.replicate 4 0
  status := Vector.replicate 8 Filter.reset
  alerts := []
  recent := []
  relay := []
  player := SitePlayer.reset
  underruns := 0
  overflows := 0
  lates := 0
  breaks := 0
  slips := 0
  forwardCrcTotal := 0
  errors := 0
  errorTold := false
  framer := .hunt
  framerBlocks := 0
  overflowTold := false
  underrunTold := false
  lastDrawn := (0, 0)
  output := silence
  playing := silence
  stream := .hunt
  sent := []

/-- The part right after reset (R205): every unit at the reset values its rules state. -/
def State.reset : State where
  cp := ControlPort.reset
  settings := Settings.initial
  clock := ⟨0, false, 0, none, false⟩
  lu := ⟨.offline, 0, 0, 0, 0, 0, false, false, 0⟩
  tx := ⟨Vector.replicate 8 none, [], 0, none, [], false⟩
  counters := Vector.replicate 5 0
  peers := Vector.replicate 8 Peer.absent
  cu := ⟨[], ⟨false, false, false, false⟩, none, ⟨16, 16, 16, 16⟩, ⟨16, 16, 16, 16⟩, false⟩
  me := MixEngine.reset
  cs := ClipStore.reset
  dram := []
  pu := ⟨[], Vector.replicate 2 Player.idle, .standby, 0, 0, 0, false, 0, false⟩
  ku := ⟨Vector.replicate 3 CallLine.reset, 0, [], [], 1, false⟩
  au := ⟨[], [], 0, .hunt, 0, 0, false, 0, AlertPlayer.reset⟩
  link := LinkEnd.reset
  site := SiteEnd.reset
  tg := ⟨Vector.replicate 4 Voice.reset, [], .off, .cue, Vector.replicate 4 ⟨false, 0⟩,
    Vector.replicate 4 Filter.reset, Vector.replicate 2 0⟩
  pending := []

end Sys2Proof.Machine
end

