-- ==== Sys2Proof/Machine/Flags.lean ====
section
/-! DEFINITION. Flags computed from state: the INT lines (R197), notice numbering (R196, R210), the
contact filters (R178) and the error counters (R13). -/

namespace Sys2Proof.Machine

/-- A notice kind's number: its place in R196's table, from 1 (R210). -/
def noticeNumber (k : NoticeKind) : Nat := k.ctorIdx + 1

/-- A notice kind's class (R196). -/
def noticeClass (k : NoticeKind) : NoticeClass :=
  let n := noticeNumber k
  if n ≤ 7 then .line else if n ≤ 17 then .playout else if n ≤ 25 then .caller
  else if n ≤ 37 then .alert else if n ≤ 51 then .link else .port

/-- A notice class's number (R210), as a place in the routing. -/
def NoticeClass.index : NoticeClass → Fin 6
  | .line => 0
  | .playout => 1
  | .caller => 2
  | .alert => 3
  | .link => 4
  | .port => 5

/-- INT line `j` is asserted while the queue holds a notice of a class routed to it (R197). -/
def intLine (routing : Tab (Option (Fin 4)) 6) (notices : List Notice) (j : Fin 4) : Bool :=
  notices.any fun n => Tab.at routing (NoticeClass.index (noticeClass n.kind)) == some j

/-- The four INT lines as the notice queue and the routing give them (R197). -/
def intLines (routing : Tab (Option (Fin 4)) 6) (notices : List Notice) : Tab Bool 4 :=
  Vector.ofFn fun j => intLine routing notices j

/-- The notice's three parameter words: what its rule tells, in that rule's order, where it fits; the
manual does not say how more items are packed nor what an unused word holds (R195; DESIGN CHOICE, log entry 11). -/
def noticeWords (n : Notice) : List Word :=
  let free := Config.noticeWord (noticeNumber n.kind) n.items
  if n.items.length ≤ 3 then (List.range 3).map fun i => n.items.getD i (free i)
  else (List.range 3).map free

/-- A filter accepts when its run count has reached 3: the level changes over, the run count returns to
0 and the hold-off count is set to 64 (R178). -/
def Filter.settle (f : Filter) : Filter :=
  if 3 ≤ f.run then ⟨!f.level, 0, 64⟩ else f

/-- One sample into a filter, before acceptance (R178). -/
def Filter.count (f : Filter) (sample : Bool) : Filter :=
  if 0 < f.holdOff then { f with holdOff := f.holdOff - 1, run := 0 }
  else if sample != f.level then { f with run := f.run + 1 }
  else { f with run := 0 }

/-- One sample into a filter (R178). -/
def Filter.sample (f : Filter) (level : Bool) : Filter := (f.count level).settle

/-- A counter's place in the mask (R211, index 33). -/
def Counter.index : Counter → Fin 5
  | .crc => 0
  | .truncated => 1
  | .overrun => 2
  | .txMismatch => 3
  | .tableFull => 4

end Sys2Proof.Machine
end

