-- ==== Sys2Proof/Machine/Formats.lean ====
section
/-! DEFINITION. The layouts of studio line frames and link frames, written and read (Frame and Message
Formats, R206 to R208), and the line's signalling (R1, R2). -/

namespace Sys2Proof.Machine

/-! ## Signalling -/

/-- The two halves of a bit time (R1): `true` is dominant. A 0 bit is dominant then recessive, a 1 bit
recessive in both. -/
def bitHalves (b : Bool) : Bool × Bool := (!b, false)

/-- A mark bit time is dominant in both halves (R1). -/
def markHalves : Bool × Bool := (true, true)

/-- The frame gap: 16 bit times left recessive (R1). -/
def gapHalves : List (Bool × Bool) := List.replicate 16 (false, false)

/-- A block mark and its guard, 48 bit times in all (R2). -/
def markSignal : List (Bool × Bool) := List.replicate 32 markHalves ++ gapHalves

/-- A frame as the line carries it: the start bit, which is a 0, the bits given, and the gap (R1). -/
def frameSignal (bits : List Bool) : List (Bool × Bool) :=
  bitHalves false :: bits.map bitHalves ++ gapHalves

/-- A second half read dominant is always part of a block mark (R1, R2). -/
def isMarkTime (h : Bool × Bool) : Bool := h.2

/-- A frame's length in bit times with its start bit and its gap. -/
def frameTimes (bits : List Bool) : Nat := (frameSignal bits).length

/-! ## Codes -/

/-- The bits 0 to 5 of a role set (ANNOUNCE body; bit 5 SITE in the image, R211). -/
def Roles.code (r : Roles) : Nat :=
  r.desk.toNat + 2 * r.playout.toNat + 4 * r.caller.toNat + 8 * r.alert.toNat + 16 * r.link.toNat
    + 32 * r.site.toNat

/-- The role set of an ANNOUNCE's roles byte; bits 5 to 7 are disregarded (R207). -/
def rolesOf (b : Byte) : Roles :=
  ⟨b.getLsbD 0, b.getLsbD 1, b.getLsbD 2, b.getLsbD 3, b.getLsbD 4, false⟩

/-- The seat state of a code; an unknown one reads as STANDBY (R207). -/
def seatOf : Nat → SeatState
  | 1 => .bidding
  | 2 => .holding
  | 3 => .yielded
  | _ => .standby

/-- The link state of a code; an unknown one reads as DOWN (R207). -/
def linkOf : Nat → LinkState
  | 1 => .acquiring
  | 2 => .up
  | 3 => .degraded
  | _ => .down

/-- The caller line state of a code; an unknown one reads as IDLE (R207). -/
def callOf : Nat → CallState
  | 1 => .ringing
  | 2 => .checking
  | 3 => .screening
  | 4 => .holding
  | 5 => .ready
  | 6 => .onAir
  | 7 => .dead
  | 8 => .clearing
  | _ => .idle

/-- The tier of a code. -/
def tierOf : Nat → Option Tier
  | 0 => some .alert
  | 1 => some .live
  | 2 => some .playout
  | 3 => some .filler
  | _ => none

/-- The alert class of a code. -/
def classOf : Nat → Option AlertClass
  | 0 => some .emergency
  | 1 => some .warning
  | 2 => some .advisory
  | 3 => some .test
  | _ => none

/-- The origin kind of a code. -/
def originOf : Nat → Option OriginKind
  | 0 => some .receiver
  | 1 => some .command
  | 2 => some .site
  | _ => none

/-- The record state of an ALERT frame's state code, with whether it is ENDED. -/
def alertStateOf : Nat → Option (AlertState × Bool)
  | 0 => some (.capturing, false)
  | 1 => some (.pending, false)
  | 2 => some (.airing, false)
  | 3 => some (.interval, false)
  | 4 => some (.pending, true)
  | _ => none

/-- The phase of a code. -/
def phaseOf : Nat → Option AlertPhase
  | 0 => some .attention
  | 1 => some .gap
  | 2 => some .message
  | _ => none

/-- The end reason of a code, 0 being none. -/
def reasonOf : Nat → Option (Option EndReason)
  | 0 => some none
  | 1 => some (some .complete)
  | 2 => some (some .expired)
  | 3 => some (some .cancelled)
  | 4 => some (some .duplicate)
  | 5 => some (some .displaced)
  | _ => none

/-- The code of an end reason. -/
def reasonCode (r : Option EndReason) : Nat := (r.map fun x => x.ctorIdx + 1).getD 0

/-- The verb of a code. -/
def verbOf : Nat → Option Verb
  | 0 => some .take
  | 1 => some .drop
  | 2 => some .hangUp
  | 3 => some .setRemoteOutput
  | _ => none

/-- The outcome of a code. -/
def answerOf : Nat → Option Answer
  | 0 => some .accepted
  | 1 => some .refusedState
  | 2 => some .refusedLimit
  | 3 => some .refusedRole
  | _ => none

/-- The site state of a code. -/
def siteStateOf : Nat → Option SiteState
  | 0 => some .noFeed
  | 1 => some .locking
  | 2 => some .feeding
  | 3 => some .filling
  | _ => none

/-- An alert id field: FFFFh for none. -/
def idField (o : Option Nat) : Half := (o.map (BitVec.ofNat 16)).getD 0xFFFF#16

/-! ## Studio line frames -/

/-- Four 3-bit parts of an arbitration field as the number that arbitration compares (R6). -/
def arbitration (cls node slot kind : Nat) : Nat := cls * 512 + node * 64 + slot * 8 + kind

/-- The class of a control frame by its kind (R6). -/
def controlClass : ControlBody → Nat
  | .alert _ => 0
  | .request _ => 2
  | .answer _ => 2
  | .announce _ => 3

/-- The kind code of a control frame. -/
def controlKind : ControlBody → Nat
  | .announce _ => 1
  | .alert _ => 2
  | .request _ => 3
  | .answer _ => 4

/-- The bytes of an ANNOUNCE body. -/
def announceBytes (b : AnnounceBody) : List Byte :=
  let line (l : LineSummary) : List Byte :=
    BitVec.ofNat 8 l.state.ctorIdx :: be16 (BitVec.ofNat 16 (min 65535 l.age))
  [b.node] ++ be16 b.stamp
    ++ [BitVec.ofNat 8 (Roles.code b.roles % 32), BitVec.ofNat 8 b.seat.ctorIdx,
        BitVec.ofNat 8 b.silence.toNat, BitVec.ofNat 8 b.link.ctorIdx]
    ++ be16 (idField b.echo)
    ++ line (Tab.at b.lines 0) ++ line (Tab.at b.lines 1) ++ line (Tab.at b.lines 2)
    ++ List.replicate 22 0

/-- An ANNOUNCE body as it is read (R207). -/
def parseAnnounce (bs : List Byte) : AnnounceBody :=
  let line (at_ : Nat) : LineSummary :=
    ⟨callOf (byteAt bs at_).toNat, (halfAt bs (at_ + 1)).toNat⟩
  let echo := (halfAt bs 7).toNat
  { node := byteAt bs 0
    stamp := halfAt bs 1
    roles := rolesOf (byteAt bs 3)
    seat := seatOf (byteAt bs 4).toNat
    silence := (byteAt bs 5).getLsbD 0
    link := linkOf (byteAt bs 6).toNat
    echo := if 2047 < echo then none else some echo
    lines := #v[line 9, line 12, line 15] }

/-- The bytes of an ALERT body; the age field saturates (R206). -/
def alertBytes (b : AlertBody) : List Byte :=
  be16 (BitVec.ofNat 16 b.id) ++ be32 b.key
    ++ [BitVec.ofNat 8 b.origin.ctorIdx, BitVec.ofNat 8 b.cls.ctorIdx,
        BitVec.ofNat 8 (if b.ended then 4 else b.state.ctorIdx),
        BitVec.ofNat 8 (if !b.ended && b.state == .airing then b.phase.ctorIdx else 0),
        BitVec.ofNat 8 b.repeats, BitVec.ofNat 8 b.remaining]
    ++ be16 (BitVec.ofNat 16 b.duration) ++ be32 (BitVec.ofNat 32 (min 0xFFFFFFFF b.age))
    ++ [BitVec.ofNat 8 (b.message.toNat + 2 * b.truncated.toNat + 4 * b.noCapture.toNat),
        BitVec.ofNat 8 (reasonCode b.reason)]
    ++ List.replicate 12 0

/-- Repeats and remaining repeats lie in 1 to 8 (R207). -/
def repeatsOk (n : Nat) : Bool := decide (1 ≤ n) && decide (n ≤ 8)

/-- An ALERT body as it is read; `none` where the AU discards the frame (R207). A key of 0, an alert id above 2,047 and a
duration outside 1 to 1,440 (R131) are read as given (DESIGN CHOICE, log entry 94). -/
def parseAlert (bs : List Byte) : Option AlertBody := do
  let origin ← originOf (byteAt bs 6).toNat
  let cls ← classOf (byteAt bs 7).toNat
  let st ← alertStateOf (byteAt bs 8).toNat
  let phase ← phaseOf (byteAt bs 9).toNat
  let reason ← reasonOf (byteAt bs 19).toNat
  let repeats := (byteAt bs 10).toNat
  let remaining := (byteAt bs 11).toNat
  if repeatsOk repeats && repeatsOk remaining then
    some { id := (halfAt bs 0).toNat, key := wordAt bs 2, origin := origin, cls := cls, state := st.1,
           phase := phase, ended := st.2, reason := reason, repeats := repeats, remaining := remaining,
           duration := (halfAt bs 12).toNat, age := (wordAt bs 14).toNat,
           message := (byteAt bs 18).getLsbD 0, truncated := (byteAt bs 18).getLsbD 1,
           noCapture := (byteAt bs 18).getLsbD 2 }
  else none

/-- The bytes of a REQUEST body; a level above 65,535 is carried as 65,535 (DEDUCED, log entry 37). -/
def requestBytes (b : RequestBody) : List Byte :=
  [BitVec.ofNat 8 b.verb.ctorIdx] ++ be16 b.tag ++ [BitVec.ofNat 8 b.target, BitVec.ofNat 8 b.item]
    ++ be16 (BitVec.ofNat 16 (min 65535 b.argument)) ++ [0]

/-- A REQUEST body as it is read; `none` for an unknown verb (R207). -/
def parseRequest (bs : List Byte) : Option RequestBody :=
  (verbOf (byteAt bs 0).toNat).map fun v =>
    { verb := v, tag := halfAt bs 1, target := (byteAt bs 3).toNat, item := (byteAt bs 4).toNat,
      argument := (halfAt bs 5).toNat }

/-- The bytes of an ANSWER body. -/
def answerBytes (b : AnswerBody) : List Byte :=
  [BitVec.ofNat 8 b.requester] ++ be16 b.tag
    ++ [BitVec.ofNat 8 b.outcome.ctorIdx, BitVec.ofNat 8 b.item, BitVec.ofNat 8 b.after]

/-- An ANSWER body as it is read; `none` for an unknown outcome, which matches no request (R207). -/
def parseAnswer (bs : List Byte) : Option AnswerBody :=
  (answerOf (byteAt bs 3).toNat).map fun o =>
    { requester := (byteAt bs 0).toNat, tag := halfAt bs 1, outcome := o, item := (byteAt bs 4).toNat,
      after := (byteAt bs 5).toNat }

/-- The bytes of a control body. -/
def bodyBytes : ControlBody → List Byte
  | .announce b => announceBytes b
  | .alert b => alertBytes b
  | .request b => requestBytes b
  | .answer b => answerBytes b

/-- The bits of a control frame from its first arbitration bit to its last CRC bit. -/
def controlBits (node : Fin 8) (f : ControlFrame) : List Bool :=
  let body := bodyBytes f.body
  let covered :=
    bitsOf (BitVec.ofNat 3 (controlClass f.body)) ++ bitsOf (BitVec.ofNat 3 node)
      ++ bitsOf (BitVec.ofNat 3 f.seq.toNat) ++ bitsOf (BitVec.ofNat 3 (controlKind f.body))
      ++ bitsOf (BitVec.ofNat 7 body.length) ++ List.replicate 12 true ++ body.flatMap bitsOf
  covered ++ bitsOf (crc32 covered)

/-- A control frame as it stands on the line: an ALERT's age is brought up to date by the frame's
control queue age (R142, R206). -/
def atSending (f : ControlFrame) : ControlFrame :=
  match f.body with
  | .alert b => { f with body := .alert { b with age := min 0xFFFFFFFF (b.age + f.age) } }
  | _ => f

/-- The bits of a pair of samples, left then right, 24 bits each. -/
def pairBits (p : Pair) : List Bool := bitsOf (BitVec.ofInt 24 p.1) ++ bitsOf (BitVec.ofInt 24 p.2)

/-- The bits of an AUDIO frame from its first arbitration bit to its last CRC bit. A MONO sender sends
the left value on both sides. -/
def audioBits (node slot : Fin 8) (f : AudioFrame) : List Bool :=
  let pairs := if f.mono then f.samples.map fun p => (p.1, p.1) else f.samples
  let covered :=
    bitsOf (BitVec.ofNat 3 f.cls) ++ bitsOf (BitVec.ofNat 3 node) ++ bitsOf (BitVec.ofNat 3 slot)
      ++ bitsOf 0#3 ++ bitsOf (BitVec.ofNat 2 f.tier.ctorIdx) ++ [f.air, f.cue, f.mono, f.last]
      ++ bitsOf f.seq ++ bitsOf f.tag ++ List.replicate 5 true ++ pairs.flatMap pairBits
  covered ++ bitsOf (crc32 covered)

/-- The covered bits of a received AUDIO frame. -/
def rxAudioBits (f : RxAudio) : List Bool :=
  bitsOf f.cls ++ bitsOf (BitVec.ofNat 3 f.node) ++ bitsOf (BitVec.ofNat 3 f.slot) ++ bitsOf 0#3
    ++ bitsOf f.tier ++ [f.air, f.cue, f.mono, f.last] ++ bitsOf f.seq ++ bitsOf f.tag ++ bitsOf f.fill
    ++ f.samples.flatMap pairBits

/-- The covered bits of a received control frame. -/
def rxControlBits (f : RxControl) : List Bool :=
  bitsOf f.cls ++ bitsOf (BitVec.ofNat 3 f.node) ++ bitsOf f.low ++ bitsOf f.kind ++ bitsOf f.len
    ++ bitsOf f.fill ++ f.body.flatMap bitsOf

/-- The body length fixed for a control kind (R11). -/
def kindLength : Nat → Option Nat
  | 1 => some 40
  | 2 => some 32
  | 3 => some 8
  | 4 => some 6
  | _ => none

/-- A received AUDIO frame passes R11 when its CRC is right. -/
def RxAudio.passes (f : RxAudio) : Bool := crc32 (rxAudioBits f) == f.crc

/-- A received control frame passes R11: right CRC, kind 1 to 4, and the length fixed for the kind. -/
def RxControl.passes (f : RxControl) : Bool :=
  crc32 (rxControlBits f) == f.crc && kindLength f.kind.toNat == some f.len.toNat

/-- A frame of either layout passes R11. -/
def RxFrame.passes : RxFrame → Bool
  | .audio f => RxAudio.passes f
  | .control f => RxControl.passes f

/-! ## Link frames -/

/-- The items of a forward frame (R157). -/
structure ForwardFrame where
  count : Half
  samples : Block
  levels : Tab Nat 4
  alert : Option Nat
  cls : Option AlertClass
  filler : Bool
  lineUp : Bool
deriving DecidableEq, Repr

/-- A site alert event as a back frame carries it (R208); `kind` is BEGIN 1, END 2 or CANCEL 3. -/
structure BackEvent where
  kind : Nat
  key : Word
  cls : AlertClass
deriving DecidableEq, Repr

/-- The items of a back frame (R175). -/
structure BackFrame where
  count : Half
  state : SiteState
  depth : Nat
  trim : Int
  levels : Tab Bool 8
  event : Option BackEvent
  echo : Option Nat
  crcCount : Nat
  peak : Nat
deriving DecidableEq, Repr

/-- A link frame from its length field on: length, payload and CRC over both (R206, R208). -/
def linkBytes (payload : List Byte) : List Byte :=
  let covered := be16 (BitVec.ofNat 16 (payload.length + 4)) ++ payload
  covered ++ be32 (crcBytes covered)

/-- The payload of a link frame of a fixed length: `none` for another length, or a wrong CRC (R208). -/
def linkPayload (length : Nat) (bytes : List Byte) : Option (List Byte) :=
  if (halfAt bytes 0).toNat = length ∧ bytes.length = length + 2 then
    let covered := bytes.take (length - 2)
    if crcBytes covered = wordAt bytes (length - 2) then some (covered.drop 2) else none
  else none

/-- A frame as its stream carries it: A5h, 5Ah, then the frame from its length field on (R208). -/
def onStream (frame : List Byte) : List Byte := 0xA5#8 :: 0x5A#8 :: frame

/-- What a link receiver comes to at a byte: a frame of another length than its kind's, discarded at once, or a
frame collected, from its length field on (R208). -/
inductive LinkFound where
  | wrongLength
  | frame (bytes : List Byte)
deriving DecidableEq, Repr

/-- One byte into a link receiver for frames of a fixed length (R208). After a wrong length it hunts again from the
next byte. -/
def linkStep (length : Nat) (r : LinkRx) (b : Byte) : LinkRx × Option LinkFound :=
  match r with
  | .hunt => (if b = 0xA5#8 then .marker else .hunt, none)
  | .marker => (if b = 0x5A#8 then .size none else if b = 0xA5#8 then .marker else .hunt, none)
  | .size none => (.size (some b), none)
  | .size (some a) =>
    if (a ++ b).toNat = length then (.body [b, a] length, none) else (.hunt, some .wrongLength)
  | .body bs (left + 2) => (.body (b :: bs) (left + 1), none)
  | .body bs _ => (.hunt, some (.frame (b :: bs).reverse))

/-- Bytes into a link receiver: where it then stands, and what it came to, in order (R208). -/
def linkScan (length : Nat) (r : LinkRx) : List Byte → LinkRx × List LinkFound
  | [] => (r, [])
  | b :: rest =>
    let a := linkStep length r b
    let t := linkScan length a.1 rest
    (t.1, a.2.toList ++ t.2)

/-- The bytes of a pair of samples. -/
def pairBytes (p : Pair) : List Byte := be24 (BitVec.ofInt 24 p.1) ++ be24 (BitVec.ofInt 24 p.2)

/-- A level as a byte. -/
def levelByte (n : Nat) : Byte := BitVec.ofNat 8 (min 255 n)

/-- The bytes of a forward frame, from its length field on (R208). -/
def forwardBytes (f : ForwardFrame) : List Byte :=
  linkBytes (be16 f.count ++ (block48 f.samples).flatMap pairBytes ++ f.levels.toList.map levelByte
    ++ be16 (idField f.alert) ++ [(f.cls.map fun c => BitVec.ofNat 8 c.ctorIdx).getD 0xFF#8,
      BitVec.ofNat 8 (f.filler.toNat + 2 * f.lineUp.toNat)])

/-- An alert id field of a link frame as read (R208): FFFFh is none, and an id above 2,047 is taken as given (DESIGN CHOICE,
log entry 113). -/
def idOf (h : Half) : Option Nat := if h = 0xFFFF#16 then none else some h.toNat

/-- A forward frame as it is read (R208); an airing class outside the class codes is read as none (DESIGN CHOICE, log entry
101). -/
def parseForward (bytes : List Byte) : Option ForwardFrame :=
  (linkPayload 302 bytes).map fun p =>
    { count := halfAt p 0
      samples := (List.range 48).map fun i => (sampleAt p (2 + 6 * i), sampleAt p (5 + 6 * i))
      levels := Vector.ofFn fun i => (byteAt p (290 + i.val)).toNat
      alert := idOf (halfAt p 294)
      cls := classOf (byteAt p 296).toNat
      filler := (byteAt p 297).getLsbD 0
      lineUp := (byteAt p 297).getLsbD 1 }

/-- Eight levels as the bits of a byte, level 1 in bit 0. -/
def levelsByte (l : Tab Bool 8) : Byte :=
  BitVec.ofNat 8 ((List.finRange 8).foldl (fun n i => n + (Tab.at l i).toNat * 2 ^ i.val) 0)

/-- The bytes of a back frame, from its length field on (R208); without an event the key and the class are 0 (DESIGN CHOICE,
log entry 100). -/
def backBytes (f : BackFrame) : List Byte :=
  linkBytes (be16 f.count ++ [BitVec.ofNat 8 f.state.ctorIdx] ++ be16 (BitVec.ofNat 16 f.depth)
    ++ be16 (BitVec.ofInt 16 f.trim) ++ [levelsByte f.levels]
    ++ [BitVec.ofNat 8 ((f.event.map BackEvent.kind).getD 0)]
    ++ be32 ((f.event.map BackEvent.key).getD 0)
    ++ [BitVec.ofNat 8 ((f.event.map fun e => e.cls.ctorIdx).getD 0)]
    ++ be16 (idField f.echo) ++ be16 (BitVec.ofNat 16 (min 65535 f.crcCount))
    ++ be24 (BitVec.ofNat 24 f.peak))

/-- A back frame's event: kind 0 is none, and one whose kind or class is outside the codes is
disregarded (R208). -/
def backEvent (kind : Nat) (key : Word) (cls : Nat) : Option BackEvent :=
  if 1 ≤ kind ∧ kind ≤ 3 then (classOf cls).map fun c => ⟨kind, key, c⟩ else none

/-- A back frame as it is read; `none` where the LINK node discards it: wrong CRC or length, or an
unknown site state (R158). -/
def parseBack (bytes : List Byte) : Option BackFrame := do
  let p ← linkPayload 25 bytes
  let st ← siteStateOf (byteAt p 2).toNat
  some { count := halfAt p 0
         state := st
         depth := (halfAt p 3).toNat
         trim := (halfAt p 5).toInt
         levels := Vector.ofFn fun i => (byteAt p 7).getLsbD i.val
         event := backEvent (byteAt p 8).toNat (wordAt p 9) (byteAt p 13).toNat
         echo := idOf (halfAt p 14)
         crcCount := (halfAt p 16).toNat
         peak := (byteAt p 18 ++ halfAt p 19).toNat }

end Sys2Proof.Machine
end

