-- ==== Sys2Proof/Machine/Ops.lean ====
section
/-! DEFINITION. The operations every unit shares: DRAM, notices (R195 to R197), the error counters (R13),
responses and the check of a host command (R192, R193), and queries of the roles and the line state. -/

namespace Sys2Proof.Machine

/-! ## DRAM -/

/-- What an address that nothing has written reads as. DESIGN CHOICE, unsafe (log entry 3): the manual
treats DRAM contents as empty (R63) and never reads a byte at or above a written mark. -/
def dramUnwritten : Byte := 0

/-- The byte at an address. -/
def memRead (m : List Host.Cell) (a : Nat) : Byte :=
  match m with
  | [] => dramUnwritten
  | c :: rest => if c.1 = a then c.2 else memRead rest a

/-- A byte written, keeping the canonical form. -/
def memWrite (m : List Host.Cell) (a : Nat) (b : Byte) : List Host.Cell :=
  match m with
  | [] => if b = dramUnwritten then [] else [(a, b)]
  | c :: rest =>
    if a < c.1 then (if b = dramUnwritten then c :: rest else (a, b) :: c :: rest)
    else if a = c.1 then (if b = dramUnwritten then rest else (a, b) :: rest)
    else c :: memWrite rest a b

/-- The canonical form: addresses strictly rising, each entry a byte of DRAM that differs from what an
unlisted address reads as. -/
def Memory.wf (m : List Host.Cell) : Bool :=
  match m with
  | [] => true
  | [c] => c.2 != dramUnwritten
  | c :: d :: rest => c.2 != dramUnwritten && decide (c.1 < d.1) && Memory.wf (d :: rest)

/-- Bytes written one after another, each at the address its place gives. -/
def memWriteAll (m : List Host.Cell) : List (Nat × Byte) → List Host.Cell
  | [] => m
  | p :: rest => memWriteAll (memWrite m p.1 p.2) rest

/-! ## Roles and line state -/

/-- The device has taken an image and is no SITE node: the units on the studio line run. -/
def onLine (s : State) : Bool := s.cp.device == .running && !s.settings.roles.site

/-- The device has taken an image and is a SITE node. -/
def atSite (s : State) : Bool := s.cp.device == .running && s.settings.roles.site

/-- The node is JOINED. -/
def joined (s : State) : Bool := s.lu.state == .joined

/-- The node takes part in the line: LISTENING, JOINED or MUTED. -/
def receives (s : State) : Bool := s.lu.state != .offline

/-! ## Notices and counters -/

/-- A notice posted at the Control Port (R195): it joins the tail, or is dropped and counted; the INT
lines follow (R197). -/
def ControlPort.post (cp : ControlPort) (n : Notice) : ControlPort :=
  if cp.notices.length < 32 then
    { cp with notices := cp.notices ++ [n], ints := intLines cp.routing (cp.notices ++ [n]) }
  else { cp with dropped := bump 255 cp.dropped }

/-- A notice of a kind, telling the given items, posted at the present block count (R195). -/
def post (k : NoticeKind) (items : List Word) (s : State) : State :=
  { s with cp := s.cp.post ⟨k, s.clock.blockCount, items⟩ }

/-- A notice posted where a condition holds. -/
def postIf (c : Bool) (k : NoticeKind) (items : List Word) (s : State) : State :=
  if c then post k items s else s

/-- One count of an error counter (R13): only while its mask bit is set, stopping at 65,535. -/
def count (c : Counter) (s : State) : State :=
  if Tab.at s.settings.counterEnable c.index then
    { s with counters := s.counters.put c.index (bump 65535 (Tab.at s.counters c.index)) }
  else s

/-- So many counts of an error counter. -/
def countTimes (c : Counter) : Nat → State → State
  | 0, s => s
  | n + 1, s => countTimes c n (count c s)

/-! ## Host commands -/

/-- A command's result: its code and its response data. -/
structure Reply where
  code : ResultCode
  data : List Word
deriving DecidableEq, Repr

/-- A bare result code. -/
def Reply.only (c : ResultCode) : Reply := ⟨c, []⟩

/-- OK with data. -/
def Reply.okWith (data : List Word) : Reply := ⟨.ok, data⟩

/-- A response formed (R192): it enters the response slot with the PORT_BUSY flag, which is then clear;
the command slot is emptied, RDY rises and the port is READY. -/
def ControlPort.respond (cp : ControlPort) (ty tag : Half) (r : Reply) : ControlPort :=
  { cp with
    response := some ⟨ty, tag, r.code, cp.busyFlag, r.data⟩, busyFlag := false, slot := none
    rdy := true, port := .ready }

/-- The message in the command slot, when the port is ACTING on this very command. -/
def ControlPort.held (cp : ControlPort) (i : Instr) : Option CommandMessage :=
  match cp.port, cp.slot with
  | .acting, some m => if decodeCommand m.type.toNat m.params = some i then some m else none
  | _, _ => none

/-- CONFIGURE, READ STATUS and READ NOTICE are taken before configuration (R193). -/
def takenUnconfigured : Instr → Bool
  | .configure _ => true
  | .readStatus => true
  | .readNotice => true
  | _ => false

/-- The Control Port acts on the command in its slot (R193): before configuration most are refused
NOT_CONFIGURED; otherwise the owning unit acts in one event and the response is formed from its result.
Where the port is not ACTING on this command there is nothing to act on (DEDUCED, log entry 4). -/
def hostCommand (i : Instr) (act : State → State × Reply) (s : State) : State :=
  match s.cp.held i with
  | none => s
  | some m =>
    if s.cp.device = .unconfigured ∧ takenUnconfigured i = false then
      { s with cp := s.cp.respond m.type m.tag (.only .notConfigured) }
    else
      let r := act s
      { r.1 with cp := r.1.cp.respond m.type m.tag r.2 }

/-- A command that only reads: the state stays as it is. -/
def reading (f : State → Reply) (s : State) : State × Reply := (s, f s)

/-- A refusal: nothing changes. -/
def refuse (c : ResultCode) (s : State) : State × Reply := (s, .only c)

/-- The state after so many items, one after another. -/
def forEach {α : Type} (l : List α) (f : α → State → State) (s : State) : State :=
  l.foldl (fun s x => f x s) s

end Sys2Proof.Machine
end

