-- ==== Sys2Proof/Machine/LineUnit.lean ====
section
/-! DEFINITION. The Line Unit's transmit side: the control queue (R6, R10), the AUDIO queue (R9), offering
and sending (R5, R7, R8), and what becomes of requests and alert frames that are dropped (R10, R122,
R123, R142). -/

namespace Sys2Proof.Machine

/-! ## Requests that end -/

/-- Outcomes of a pending request (R122, R123, R126). -/
inductive RequestOutcome where
  | answered (a : Answer)
  | notSent
  | noAnswer
deriving DecidableEq, Repr

/-- An outcome's word in REQUEST_DONE: the ANSWER's code, then NOT_SENT and NO_ANSWER (DESIGN CHOICE, log entry 12). -/
def RequestOutcome.code : RequestOutcome → Nat
  | .answered a => a.ctorIdx
  | .notSent => 4
  | .noAnswer => 5

/-- A request leaves the list at its outcome, which posts REQUEST_DONE with tag, verb, target node and
item, outcome, and the line state after where an ANSWER gave it (R122). -/
def endRequest (tag : Half) (o : RequestOutcome) (after : Option Nat) (s : State) : State :=
  match s.ku.requests.find? (fun r => r.tag == tag) with
  | none => s
  | some r =>
    post .requestDone
      [word r.tag.toNat, word r.verb.ctorIdx, word r.target, word r.item, word o.code, wordOpt after]
      { s with ku := { s.ku with requests := s.ku.requests.filter fun q => q.tag != tag } }

/-! ## The control queue -/

/-- Why a control frame was removed unsent (R10). -/
inductive DropReason where
  | aged | displaced | full
deriving DecidableEq, Repr

/-- A control frame's tag, where it has one (R10). -/
def ControlFrame.tag? (f : ControlFrame) : Option Nat :=
  match f.body with
  | .request b => some b.tag.toNat
  | .answer b => some b.tag.toNat
  | _ => none

/-- The alert record of an id marked for a fresh frame at the next block start in JOINED (R142). -/
def oweAlertFrame (id : Nat) (s : State) : State :=
  { s with au := { s.au with table := s.au.table.map fun r => if r.id = id then { r with frameOwed := true } else r } }

/-- A frame removed unsent posts CONTROL_DROPPED with its kind, tag and reason, and the unit that handed
it is told: a REQUEST ends NOT_SENT, an ALERT frame not ENDED is handed afresh (R10, R123, R142). One that is
being sent when it is displaced goes on on the line (DEDUCED, log entry 55). -/
def dropFrame (f : ControlFrame) (why : DropReason) (s : State) : State :=
  let s := post .controlDropped [word (controlKind f.body), wordOpt f.tag?, word why.ctorIdx] s
  match f.body with
  | .request b => endRequest b.tag .notSent none s
  | .alert b => if b.ended then s else oweAlertFrame b.id s
  | _ => s

/-- A frame put in its place: after every frame of its own class or a lower one (R10). -/
def insertControl (f : ControlFrame) (q : List ControlFrame) : List ControlFrame :=
  q.takeWhile (fun g => controlClass g.body ≤ controlClass f.body) ++
    f :: q.dropWhile (fun g => controlClass g.body ≤ controlClass f.body)

/-- A frame queued: it takes the frame sequence's present value, which then increases by 1 (R6). -/
def queueControl (b : ControlBody) (s : State) : State :=
  { s with tx := { s.tx with
      control := insertControl ⟨s.tx.frameSeq, b, 0⟩ s.tx.control
      frameSeq := s.tx.frameSeq + 1 } }

/-- A unit hands a control frame (R10). To a full queue of 8, a frame of lower class than the last in
queue order displaces it; otherwise it is not queued, with reason FULL. -/
def handControl (b : ControlBody) (s : State) : State :=
  if s.tx.control.length < 8 then queueControl b s
  else match s.tx.control.getLast? with
    | none => queueControl b s
    | some last =>
      if controlClass b < controlClass last.body then
        dropFrame last .displaced
          (queueControl b { s with tx := { s.tx with control := s.tx.control.dropLast } })
      else dropFrame ⟨s.tx.frameSeq, b, 0⟩ .full s

/-- CONTROL_FRAME_AGED (R10): every queued frame whose age has reached 8 is removed with reason AGED. -/
def dropAged (s : State) : State :=
  forEach (s.tx.control.filter fun f => 8 ≤ f.age) (fun f => dropFrame f .aged)
    { s with tx := { s.tx with control := s.tx.control.filter fun f => f.age < 8 } }

/-- At every block start every queued frame's age increases by 1 (R10). -/
def ageControl (s : State) : State :=
  dropAged { s with tx := { s.tx with control := s.tx.control.map fun f => { f with age := f.age + 1 } } }

/-! ## The AUDIO queue -/

/-- The class of an AUDIO frame (R6). -/
def audioClass (lineUp : Bool) (slot : Fin 8) (t : Tier) : Nat :=
  if lineUp ∧ slot = 0 then 7
  else match t with
    | .alert => 1
    | .live => 4
    | .playout => 5
    | .filler => 6

/-- At a block start in JOINED every unsent AUDIO frame is emptied, OVERRUN counted once for each (R9). -/
def emptyAudio (s : State) : State :=
  countTimes .overrun (s.tx.audio.toList.filter Option.isSome).length
    { s with tx := { s.tx with audio := Vector.replicate 8 none } }

/-- A slot's newly produced frame takes its entry, in JOINED alone (R9). -/
def queueAudio (slot : Fin 8) (f : AudioFrame) (s : State) : State :=
  if joined s then { s with tx := { s.tx with audio := s.tx.audio.put slot (some f) } } else s

/-! ## Offering and sending -/

/-- A frame of so many bit times fits at a window offset (R5). -/
def fits (offset times : Nat) : Bool := decide (offset + times ≤ 48960)

/-- Full lengths of frames in bit times, gap included. -/
def audioTimes : Nat := 2400

/-- A control frame's full length: 80 and 8 for each byte of its body. -/
def controlTimes (b : ControlBody) : Nat := 80 + 8 * (kindLength (controlKind b)).getD 0

/-- What a node may offer: a queued frame's arbitration field and where it stands. -/
abbrev Offer := Nat × SendSource

/-- The AUDIO frames that fit at an offset, with their fields (R7). -/
def audioOffers (offset : Nat) (s : State) : List Offer :=
  (List.finRange 8).filterMap fun i =>
    match Tab.at s.tx.audio i with
    | some f => if fits offset audioTimes then some (arbitration f.cls s.settings.nodeId i 0, .slot i) else none
    | none => none

/-- The first control frame, in queue order, that fits at an offset (R7). -/
def controlOffer (offset : Nat) (s : State) : List Offer :=
  ((s.tx.control.find? fun f => fits offset (controlTimes f.body)).map fun f =>
    (arbitration (controlClass f.body) s.settings.nodeId (f.seq.toNat % 8) (controlKind f.body),
      SendSource.control f)).toList

/-- The lower of two offers' fields; a lower field wins arbitration (R6). -/
def lowerOffer (a b : Offer) : Offer := if b.1 < a.1 then b else a

/-- The offer with the lowest field (R7). -/
def bestOffer : List Offer → Option Offer
  | [] => none
  | a :: rest => some (rest.foldl lowerOffer a)

/-- The frame at a queue place, ready to send: an ALERT frame's age is brought up to date and the CRC
formed as it goes on the line (R142, R206). -/
def sendingOf (src : SendSource) (s : State) : Option Sending :=
  match src with
  | .slot i => (Tab.at s.tx.audio i).map fun f => ⟨src, false, audioBits s.settings.nodeId i f⟩
  | .control f => some ⟨src, controlKind f.body == 1, controlBits s.settings.nodeId (atSending f)⟩

/-- FRAME_OFFER (R5, R7): at an idle bit time inside the window a JOINED node starts the queued frame with
the lowest field among those that fit. -/
def offerFrame (offset : Nat) (s : State) : State :=
  if joined s ∧ s.lu.receiving = false ∧ s.tx.sending = none then
    match bestOffer (audioOffers offset s ++ controlOffer offset s) with
    | none => s
    | some o => { s with tx := { s.tx with sending := sendingOf o.2 s, markSent := false } }
  else s

/-- ARBITRATION_LOST (R7, R11): the node stops driving, its frame stays queued unchanged, and it receives
the winner's frame from its start bit. -/
def loseArbitration (s : State) : State :=
  match s.tx.sending with
  | none => s
  | some _ =>
    { s with tx := { s.tx with sending := none }, lu := { s.lu with receiving := true } }

/-- A request whose frame has completed enters phase SENT with wait count 0 (R123). -/
def requestSent (tag : Half) (s : State) : State :=
  { s with ku := { s.ku with requests := s.ku.requests.map fun r =>
      if r.tag = tag then { r with phase := .sent, wait := 0 } else r } }

/-- What a control frame's completion means to the unit that handed it. -/
def frameCompleted (b : ControlBody) (s : State) : State :=
  match b with
  | .request r => requestSent r.tag s
  | .announce _ => { s with lu := { s.lu with mismatchRun := 0 } }
  | _ => s

/-- Two control frames are one frame: the same number and the same body, whatever their ages. -/
def ControlFrame.same (f g : ControlFrame) : Bool := f.seq == g.seq && f.body == g.body

/-- FRAME_SEND_COMPLETE (R8): a frame sent to its last CRC bit leaves its queue, and no other frame does. A control
frame displaced while it was being sent has been sent on (DEDUCED, log entry 55). -/
def completeFrame (s : State) : State :=
  match s.tx.sending with
  | none => s
  | some snd =>
    let done := { s with tx := { s.tx with sending := none, sent := snd.bits } }
    match snd.source with
    | .slot i => { done with tx := { done.tx with audio := done.tx.audio.put i none } }
    | .control f => frameCompleted f.body
        { done with tx := { done.tx with control := done.tx.control.eraseP f.same } }

/-- An own frame cut off by a mark (R8): TRUNCATED is counted, an AUDIO frame leaves its entry, a control frame stays queued
with its age. A mark begun while the arbitration field is still being sent does the same (DESIGN CHOICE, log entry 102). -/
def truncateOwn (s : State) : State :=
  match s.tx.sending with
  | none => s
  | some snd =>
    let s := count .truncated { s with tx := { s.tx with sending := none } }
    match snd.source with
    | .slot i => { s with tx := { s.tx with audio := s.tx.audio.put i none } }
    | .control _ => s

/-- An own frame abandoned because another node drives the line (R8, R20): TX_MISMATCH is counted, the
frame stays queued, and an announce attempt so ended adds to the announce mismatch run. -/
def mismatchOwn (s : State) : State :=
  match s.tx.sending with
  | none => s
  | some snd =>
    let s := count .txMismatch { s with tx := { s.tx with sending := none } }
    if snd.announce then { s with lu := { s.lu with mismatchRun := bump 3 s.lu.mismatchRun } } else s

/-- The 16 bit times of the frame gap, which end the length of a frame (R1, R11). -/
def gapTimes : Nat := 16

/-- The node is receiving (R1), so many bit times after the last CRC bit of the frame received last: from a start bit to
the last bit of the frame's length, the gap included. -/
def receivingAt (sinceCrc : Nat) (s : State) : Bool := s.lu.receiving || (s.lu.gap && decide (sinceCrc ≤ gapTimes))

/-- A mark begun while the node was receiving discards the frame and counts TRUNCATED (R11); a frame handed on at its
last CRC bit stays handed on (R12; DEDUCED, log entry 54). -/
def truncateReceived (sinceCrc : Nat) (s : State) : State :=
  let t : State := { s with lu := { s.lu with receiving := false, gap := false } }
  if receivingAt sinceCrc s then count .truncated t else t

/-- START_BIT_RECEIVED (R11): a node that takes part in the line and is not sending begins receiving. -/
def beginReceiving (s : State) : State :=
  if receives s ∧ s.tx.sending = none then { s with lu := { s.lu with receiving := true } } else s

/-- A received frame has been read to its last CRC bit: its gap follows (R1, R11). -/
def endReceiving (s : State) : State := { s with lu := { s.lu with receiving := false, gap := true } }

/-- A frame ends on the line at a node that was receiving it (R11, R12): one that fails R11 is discarded
with CRC counted; one that passes is handed on. -/
def receiveFrame (passes : Bool) (handOn : State → State) (s : State) : State :=
  if receives s ∧ s.lu.receiving then
    let s := endReceiving s
    if passes then handOn s else count .crc s
  else s

end Sys2Proof.Machine
end

