-- ==== Sys2Proof/Machine/ClipStore.lean ====
section
/-! DEFINITION. The Clip Store: extents and the directory (R63 to R68), filling (R69 to R71), the DRAM port
(R72, R73), capture clips (R74 to R76), rotation groups (R77, R78) and the host view (R79). -/

namespace Sys2Proof.Machine

/-! ## Clips and addresses -/

/-- An extent's size in bytes (R63). -/
def extentBytes : Nat := 1048576

/-- Bytes per frame of a format (R65). -/
def bytesPerFrame : ClipFormat → Nat
  | .m16 => 2
  | .s16 => 4
  | .m24 => 3
  | .s24 => 6

/-- The format of a code (R65). -/
def formatOf : Nat → Option ClipFormat
  | 0 => some .m16
  | 1 => some .s16
  | 2 => some .m24
  | 3 => some .s24
  | _ => none

/-- A mono format. -/
def isMono : ClipFormat → Bool
  | .m16 => true
  | .m24 => true
  | _ => false

/-- Clips 252 to 255 are PROTECTED (R65). -/
def isProtected (c : Fin 256) : Bool := decide (252 ≤ c.val)

/-- A clip's descriptor. -/
def clipAt (s : State) (c : Fin 256) : Clip := Tab.at s.cs.directory c

/-- A clip's descriptor replaced. -/
def setClip (c : Fin 256) (d : Clip) (s : State) : State :=
  { s with cs := { s.cs with directory := s.cs.directory.put c d } }

/-- A clip's length in bytes. -/
def Clip.bytes (d : Clip) : Nat := d.length * bytesPerFrame d.format

/-- The DRAM address of a byte offset of a clip (R64). -/
def translate (map : List (Fin 512)) (o : Nat) : Option Nat :=
  map[o / extentBytes]?.map fun e => e.val * extentBytes + o % extentBytes

/-- The extents of a list owned by a clip, or freed. -/
def ownExtents (l : List (Fin 512)) (o : Option (Fin 256)) (s : State) : State :=
  { s with cs := { s.cs with owner := l.foldl (fun t e => Tab.put t e o) s.cs.owner } }

/-- A clip number of a command: refused BAD_PARAM above 255, and IN_USE when PROTECTED. -/
def openClip (w : Word) (s : State) (act : Fin 256 → State × Reply) : State × Reply :=
  match index? 256 w.toNat with
  | none => refuse .badParam s
  | some c => if isProtected c then refuse .inUse s else act c

/-- DEFINE CLIP (R66; DEDUCED, log entry 36). -/
def defineClip (clip format length : Word) (extents : List Word) (s : State) : State × Reply :=
  openClip clip s fun c =>
    if (clipAt s c).state ≠ .empty then refuse .inUse s
    else match formatOf format.toNat, extents.mapM (fun w : Word => index? 512 w.toNat) with
      | some f, some map =>
        if length.toNat = 0 ∨ map = [] ∨ 255 < map.length ∨ ¬map.Nodup
            ∨ map.length * extentBytes < length.toNat * bytesPerFrame f then refuse .badParam s
        else match map.find? fun e => (Tab.at s.cs.owner e).isSome with
          | some e =>
            (s, ⟨.extentOwned, [word e, wordOpt ((Tab.at s.cs.owner e).map Fin.val)]⟩)
          | none =>
            let d : Clip :=
              { Clip.empty with
                state := .filling, format := f, length := length.toNat, map := map, segue := length.toNat }
            (setClip c d (ownExtents map (some c) s), .only .ok)
      | _, _ => refuse .badParam s

/-- SET CLIP (R67). -/
def setClipValues (clip trim segue : Word) (s : State) : State × Reply :=
  openClip clip s fun c =>
    let d := clipAt s c
    if d.state = .empty then refuse .wrongState s
    else
      let t := min 8192 trim.toNat
      let g := min d.length segue.toNat
      (setClip c { d with trim := t, segue := g } s, .okWith [word t, word g])

/-- A fill queue entry belongs to a clip. -/
def FillEntry.clip : FillEntry → Fin 256
  | .address r => r.clip
  | .data c _ => c

/-- The fill queue entries a clip has queued, a write in flight included (R68, R79). -/
def fillEntriesOf (c : Fin 256) (s : State) : Nat := (s.cs.fill.filter fun e => e.clip == c).length

/-- A player that holds an entry holds every clip of its stream (R85). -/
def playerHolds (p : Player) (c : Fin 256) : Bool :=
  p.state != .idle && p.stream.any fun x => x.clip == c

/-- The reader that has a clip loaded, if one has (R68): player A, B, the alert player, the filler player; a filler
player has the configured clip loaded once it has asked for its frames (R165; DEDUCED, log entry 44). -/
def loadedBy (c : Fin 256) (s : State) : Option Reader :=
  if playerHolds (Tab.at s.pu.players 0) c then some .playerA
  else if playerHolds (Tab.at s.pu.players 1) c then some .playerB
  else if s.au.player.clip = some c then some .alert
  else if s.settings.fillerClip = some c ∧ s.link.filler.trimCopied then some .filler
  else if s.site.player.clip = some c then some .siteAlert
  else if s.settings.fillerClip = some c ∧ s.site.filler.trimCopied then some .siteFiller
  else none

/-- The first reference that keeps a clip (R68): its place in the rule's table, and which one it is: the cue entry's
tag, the reader's number, the group's, how many fill entries, 0 for the filler clip or 1 for the site-alert clip,
and 0 (DESIGN CHOICE, log entry 60). -/
def clipReference (c : Fin 256) (s : State) : Option (Nat × Nat) :=
  match s.pu.cues.find? fun e => e.source == .clip c with
  | some e => some (0, e.tag.toNat)
  | none => match loadedBy c s with
    | some r => some (1, r.ctorIdx)
    | none => match (List.finRange 16).find? fun g => (Tab.at s.cs.groups g).clips.contains c with
      | some g => some (2, g.val)
      | none =>
        if 0 < fillEntriesOf c s then some (3, fillEntriesOf c s)
        else if s.settings.fillerClip = some c then some (4, 0)
        else if s.settings.siteAlertClip = some c then some (4, 1)
        else if (clipAt s c).assigned then some (5, 0)
        else none

/-- DELETE CLIP (R68). -/
def deleteClip (clip : Word) (s : State) : State × Reply :=
  openClip clip s fun c =>
    if (clipAt s c).state = .empty then refuse .wrongState s
    else match clipReference c s with
      | some r => (s, ⟨.inUse, [word r.1, word r.2]⟩)
      | none => (setClip c Clip.empty (ownExtents (clipAt s c).map none s), .only .ok)

/-! ## Filling -/

/-- Free places of the fill queue (R70: at most 64 entries). -/
def fillFree (s : State) : Nat := 64 - s.cs.fill.length

/-- Entries that a run of `n` bytes needs: one address entry and its data entries (R69). -/
def fillNeed (n : Nat) : Nat := 1 + (n + 63) / 64

/-- Bytes in data entries of 64, the last one holding the remainder. -/
def fillChunks (c : Fin 256) : Nat → List Byte → List FillEntry
  | 0, _ => []
  | k + 1, bs => if bs = [] then [] else .data c (bs.take 64) :: fillChunks c k (bs.drop 64)

/-- The address entry of a run at an offset (R69), with the boundary it crosses, if any. -/
def fillRun (c : Fin 256) (map : List (Fin 512)) (o n : Nat) : FillRun where
  clip := c
  offset := o
  count := n
  address := (translate map o).getD 0
  split :=
    if o % extentBytes + n ≤ extentBytes then none
    else
      let k := extentBytes - o % extentBytes
      (translate map (o + k)).map fun a => (k, a)

/-- Address entries at the head are taken at once (R70): the drain position takes the run. -/
def drainList : List FillEntry → Option Drain → List FillEntry × Option Drain
  | .address r :: rest, _ => drainList rest (some ⟨r, 0⟩)
  | l, d => (l, d)

/-- The head of the fill queue taken as far as address entries reach (R70). -/
def drainHead (s : State) : State :=
  let r := drainList s.cs.fill s.cs.drain
  { s with cs := { s.cs with fill := r.1, drain := r.2 } }

/-- Bytes queued at a clip's queued mark, which they advance (R69). -/
def queueBytes (c : Fin 256) (bs : List Byte) (s : State) : State :=
  let d := clipAt s c
  let run := fillRun c d.map d.queued bs.length
  let s := setClip c { d with queued := d.queued + bs.length } s
  drainHead { s with cs := { s.cs with fill := s.cs.fill ++ .address run :: fillChunks c bs.length bs } }

/-- CLIP DATA (R69). -/
def clipData (clip offset : Word) (bs : List Byte) (s : State) : State × Reply :=
  match index? 256 clip.toNat with
  | none => refuse .badParam s
  | some c =>
    let d := clipAt s c
    if bs = [] ∨ 256 < bs.length then refuse .badParam s
    else if isProtected c then refuse .inUse s
    else if d.state ≠ .filling ∨ d.sealPending then refuse .wrongState s
    else if offset.toNat ≠ d.queued then (s, ⟨.badOffset, [word d.queued]⟩)
    else if d.bytes < offset.toNat + bs.length then refuse .badParam s
    else if fillFree s < fillNeed bs.length then (s, ⟨.full, [word (fillFree s)]⟩)
    else (queueBytes c bs s, .okWith [word (d.queued + bs.length)])

/-- A clip with its seal pending that is wholly written becomes READY, with CLIP_READY (R71). -/
def settleSeal (c : Fin 256) (s : State) : State :=
  let d := clipAt s c
  if d.sealPending ∧ d.written = d.bytes then
    post .clipReady [word c] (setClip c { d with state := .ready, sealPending := false } s)
  else s

/-- The seal taken on a clip (R71): READY at once when wholly written, pending otherwise. -/
def takeSeal (c : Fin 256) (s : State) : State :=
  settleSeal c (setClip c { clipAt s c with sealPending := true } s)

/-- SEAL CLIP (R71). -/
def sealClip (clip : Word) (s : State) : State × Reply :=
  openClip clip s fun c =>
    let d := clipAt s c
    if d.state ≠ .filling ∨ d.queued < d.bytes then refuse .wrongState s
    else
      let s := if d.sealPending then s else takeSeal c s
      (s, .okWith [word (clipAt s c).state.ctorIdx])

/-! ## The DRAM port -/

/-- A fill write waits when a data entry is at the head of the fill queue (R70, R72). -/
def writeWaits (s : State) : Bool :=
  match s.cs.fill with
  | .data _ _ :: _ => true
  | _ => false

/-- DRAM_WRITE_GRANT (R72): the port is free, a write waits, and no fetch waits or a fetch was granted last. -/
def grantWrite (s : State) : State :=
  if s.cs.port = .free ∧ writeWaits s ∧ (s.cs.waiting = [] ∨ s.cs.lastKind = .fetch) then
    { s with cs := { s.cs with port := .write true, lastKind := .write } }
  else s

/-- The DRAM address of byte `k` of a run: past the boundary it follows on from the second address (R70). -/
def FillRun.addressOf (r : FillRun) (k : Nat) : Nat :=
  match r.split with
  | some (at_, a) => if at_ ≤ k then a + (k - at_) else r.address + k
  | none => r.address + k

/-- The bytes of a data entry with their addresses from the drain position on (R70). -/
def writeList (d : Drain) (bs : List Byte) : List (Nat × Byte) :=
  ((List.range bs.length).map fun k => d.run.addressOf (d.done + k)).zip bs

/-- The written mark advanced by a completed write (R70). -/
def advanceWritten (c : Fin 256) (n : Nat) (s : State) : State :=
  settleSeal c (setClip c { clipAt s c with written := (clipAt s c).written + n } s)

/-- DRAM_WRITE_COMPLETE (R70, R71, R76): the head data entry's bytes are in DRAM, the entry leaves the
queue, and the clip's written mark advances unless the clip was released meanwhile. -/
def completeWrite (s : State) : State :=
  match s.cs.port, s.cs.fill with
  | .write marks, .data c bs :: rest =>
    let dram := match s.cs.drain with
      | some d => memWriteAll s.dram (writeList d bs)
      | none => s.dram
    let drain := s.cs.drain.map fun d => { d with done := d.done + bs.length }
    let s := { s with dram := dram, cs := { s.cs with port := .free, fill := rest, drain := drain } }
    drainHead (if marks then advanceWritten c bs.length s else s)
  | _, _ => s

/-- A reader has a fetch request waiting or in flight (R73). -/
def hasFetch (r : Reader) (s : State) : Bool :=
  s.cs.waiting.any (fun f => f.reader == r) ||
    match s.cs.port with
    | .fetch f _ => f.reader == r
    | _ => false

/-- A request put among others of its event, in the order player A, player B, the alert player, the filler player,
and at a SITE node the site alert player before the site filler player (R72). -/
def insertFetch (f : Fetch) (l : List Fetch) : List Fetch :=
  l.takeWhile (fun g => g.reader.ctorIdx < f.reader.ctorIdx)
    ++ f :: l.dropWhile (fun g => g.reader.ctorIdx < f.reader.ctorIdx)

/-- A reader's fetch request, made at its fetch position `place`, joins those waiting, after every one asked for in
an earlier event (R72, R73; DEDUCED, log entry 62). -/
def requestFetch (r : Reader) (c : Fin 256) (frame place : Nat) (s : State) : State :=
  if hasFetch r s then s
  else
    let older := s.cs.waiting.length - s.cs.asked
    { s with cs := { s.cs with
        waiting := s.cs.waiting.take older ++ insertFetch ⟨r, c, frame, place, true⟩ (s.cs.waiting.drop older)
        asked := s.cs.asked + 1 } }

/-- A further event begins: requests made from here on come after those that wait (R72; DEDUCED, log entry 62). -/
def closeRequests (s : State) : State := { s with cs := { s.cs with asked := 0 } }

/-- A reader no longer wants what it has asked for: the frames are discarded when they come (R82). A fetch that waits for
its grant goes on waiting as one in flight goes on (DESIGN CHOICE, log entry 81). -/
def disownFetch (r : Reader) (s : State) : State :=
  let kill (f : Fetch) : Fetch := if f.reader = r then { f with live := false } else f
  let port := match s.cs.port with
    | .fetch f b => .fetch (kill f) b
    | p => p
  { s with cs := { s.cs with waiting := s.cs.waiting.map kill, port := port, asked := 0 } }

/-- How a fetch completes (R73). -/
inductive Completion where
  | ok (frames : Block)
  | pastEnd
  | notWritten
deriving DecidableEq, Repr

/-- A byte of a clip as DRAM holds it. -/
def clipByte (s : State) (map : List (Fin 512)) (o : Nat) : Byte :=
  ((translate map o).map (memRead s.dram)).getD dramUnwritten

/-- A clip frame brought to a pair of samples (R64, R88): least significant byte first, left before right,
16-bit formats multiplied by 256, mono on both sides. -/
def readFrame (s : State) (d : Clip) (f : Nat) : Pair :=
  let o := f * bytesPerFrame d.format
  let b (i : Nat) := clipByte s d.map (o + i)
  let two (i : Nat) : Int := (b (i + 1) ++ b i).toInt * 256
  let three (i : Nat) : Int := (b (i + 2) ++ b (i + 1) ++ b i).toInt
  match d.format with
  | .m16 => (two 0, two 0)
  | .s16 => (two 0, two 2)
  | .m24 => (three 0, three 0)
  | .s24 => (three 0, three 3)

/-- The comparison of a request with its clip's descriptor at the grant (R73). -/
def fetchOutcome (s : State) (f : Fetch) : Completion :=
  let d := clipAt s f.clip
  let stop := min (f.frame + 48) d.length
  if d.state = .empty ∨ d.length ≤ f.frame then .pastEnd
  else if d.written < stop * bytesPerFrame d.format then .notWritten
  else .ok ((List.range (stop - f.frame)).map fun k => readFrame s d (f.frame + k))

/-- FETCH_GRANT (R72, R73): the port is free, a fetch waits, and no write waits or a write was granted last.
The fetch asked for first is granted. One without frames completes at the grant and leaves the port free;
its completion is returned. -/
def grantFetch (s : State) : State × Option (Fetch × Completion) :=
  match s.cs.waiting with
  | [] => (s, none)
  | f :: rest =>
    if s.cs.port = .free ∧ (writeWaits s = false ∨ s.cs.lastKind = .write) then
      let cs := { s.cs with waiting := rest, lastKind := .fetch, asked := 0 }
      match fetchOutcome s f with
      | .ok frames => ({ s with cs := { cs with port := .fetch f frames } }, none)
      | c => ({ s with cs := cs }, some (f, c))
    else (s, none)

/-- The fetch in flight completes (R72, R73): the port is free and the frames go to their reader. -/
def finishFetch (s : State) : State × Option (Fetch × Completion) :=
  match s.cs.port with
  | .fetch f frames => ({ s with cs := { s.cs with port := .free, asked := 0 } }, some (f, .ok frames))
  | _ => (s, none)

/-! ## Capture clips -/

/-- The capture clips, lowest first. -/
def captureClips : List (Fin 256) := [252, 253, 254, 255]

/-- A capture clip is free: defined, EMPTY and not assigned (R74; DEDUCED, log entry 39). -/
def captureFree (s : State) (c : Fin 256) : Bool :=
  let d := clipAt s c
  decide (1 ≤ d.capacity) && d.state == .empty && !d.assigned

/-- The Clip Store opens a capture (R75): the lowest free capture clip is assigned, or NONE is answered. -/
def openCapture (s : State) : State × Option (Fin 256) :=
  match captureClips.find? (captureFree s) with
  | none => (s, none)
  | some c =>
    let d := clipAt s c
    (setClip c { d with
        state := .filling, assigned := true, queued := 0, written := 0
        length := d.capacity, sealPending := false } s, some c)

/-- A capture closed (R75): its length and segue point are set and its seal is taken as under R71. -/
def closeCapture (c : Fin 256) (length : Nat) (s : State) : State :=
  takeSeal c (setClip c { clipAt s c with length := length, segue := length } s)

/-- Why the Clip Store closed a capture (R75). -/
inductive CaptureClose where
  | fullLength | queueShort
deriving DecidableEq, Repr

/-- One capture block queued (R75): only the bytes below the capacity, closing the capture when they reach
it; with too few free entries it is not queued and the capture is closed. -/
def captureBlock (c : Fin 256) (bs : List Byte) (s : State) : State × Option CaptureClose :=
  let d := clipAt s c
  let bs := bs.take (d.capacity * 2 - d.queued)
  if fillFree s < fillNeed bs.length then (closeCapture c (d.queued / 2) s, some .queueShort)
  else
    let s := queueBytes c bs s
    if d.capacity * 2 ≤ d.queued + bs.length then (closeCapture c d.capacity s, some .fullLength)
    else (s, none)

/-- The fill queue without a released clip's entries, keeping a head write in flight (R76). -/
def fillWithout (c : Fin 256) (inFlight : Bool) (l : List FillEntry) : List FillEntry :=
  match inFlight, l with
  | true, h :: rest => h :: rest.filter fun e => e.clip != c
  | _, l => l.filter fun e => e.clip != c

/-- A write is in flight (R72). -/
def writeInFlight (s : State) : Bool :=
  match s.cs.port with
  | .write _ => true
  | _ => false

/-- The port with a released clip's write in flight no longer advancing its mark (R76). -/
def unmarkWrite (c : Fin 256) (s : State) : DramPort :=
  match s.cs.port, s.cs.fill with
  | .write m, .data c' _ :: _ => .write (m && c' != c)
  | p, _ => p

/-- A capture clip released (R76): its queued entries are removed, a write of it in flight will not advance
its mark, and its descriptor returns to the free state, keeping map and capacity. -/
def releaseCapture (c : Fin 256) (s : State) : State :=
  let d := clipAt s c
  let s := { s with cs := { s.cs with
      port := unmarkWrite c s, fill := fillWithout c (writeInFlight s) s.cs.fill } }
  drainHead (setClip c { Clip.empty with map := d.map, capacity := d.capacity, length := d.capacity } s)

/-- Capture definitions taken from an accepted image (R74): map, capacity and ownership. -/
def defineCapture (c : Fin 256) (d : CaptureDef) (s : State) : State :=
  setClip c { Clip.empty with map := d.extents, capacity := d.capacity, length := d.capacity }
    (ownExtents d.extents (some c) s)

/-! ## Rotation groups -/

/-- The rotation group modes in code order. -/
def groupModeOf : Nat → Option GroupMode
  | 0 => some .single
  | 1 => some .sweep
  | _ => none

/-- A cue entry names a group (R77). -/
def groupCued (g : Fin 16) (s : State) : Bool := s.pu.cues.any fun e => e.source == .group g

/-- SET GROUP (R77); of a list with both a PROTECTED and an EMPTY clip the answer is IN_USE (DEDUCED, log entry 71). -/
def setGroup (group mode : Word) (clips : List Word) (start : Word) (s : State) : State × Reply :=
  match index? 16 group.toNat, groupModeOf mode.toNat, clips.mapM (fun w : Word => index? 256 w.toNat) with
  | some g, some m, some l =>
    if l = [] ∨ 8 < l.length then refuse .badParam s
    else if l.any isProtected then refuse .inUse s
    else if l.any (fun c => (clipAt s c).state == .empty) then refuse .wrongState s
    else
      let start := if start.toNat = 0 then l.length else min l.length start.toNat
      ({ s with cs := { s.cs with groups := s.cs.groups.put g ⟨l, m, start, start⟩ } }, .only .ok)
  | _, _, _ => refuse .badParam s

/-- CLEAR GROUP (R77): the emptied group is as at reset, its mode SINGLE (DESIGN CHOICE, log entry 59). -/
def clearGroup (group : Word) (s : State) : State × Reply :=
  match index? 16 group.toNat with
  | none => refuse .badParam s
  | some g =>
    if groupCued g s then refuse .inUse s
    else ({ s with cs := { s.cs with groups := s.cs.groups.put g Group.empty } }, .only .ok)

/-- The clips a group answers to a load (R78). -/
def Group.answer (g : Group) : List (Fin 256) :=
  match g.mode with
  | .single => (g.clips[g.pointer - 1]?).toList
  | .sweep => (g.clips.take g.pointer).reverse

/-- The group after a resolution (R78). -/
def Group.turn (g : Group) : Group :=
  if g.clips = [] then g
  else match g.mode with
    | .single => { g with pointer := if g.pointer - 1 = 0 then g.start else g.pointer - 1 }
    | .sweep => { g with pointer := g.start }

/-- A group resolved for a load: the clips answered and the pointer moved (R78). -/
def resolveGroup (g : Fin 16) (s : State) : State × List (Fin 256) :=
  let grp := Tab.at s.cs.groups g
  ({ s with cs := { s.cs with groups := s.cs.groups.put g grp.turn } }, grp.answer)

/-! ## Host view -/

/-- READ CLIP (R79). -/
def readClipReply (clip : Word) (s : State) : Reply :=
  match index? 256 clip.toNat with
  | none => .only .badParam
  | some c =>
    let d := clipAt s c
    .okWith ([word d.state.ctorIdx, word d.format.ctorIdx, word d.length, word d.map.length,
        word d.map.length] ++ d.map.map (fun e => word e)
      ++ [word d.queued, word d.written, wordFlag d.sealPending, word d.segue, word d.trim,
          wordFlag (isProtected c), wordFlag d.assigned, word d.capacity, word (fillEntriesOf c s)])

/-- READ GROUP (R79). -/
def readGroupReply (group : Word) (s : State) : Reply :=
  match index? 16 group.toNat with
  | none => .only .badParam
  | some g =>
    let r := Tab.at s.cs.groups g
    .okWith (word r.clips.length :: r.clips.map (fun c => word c)
      ++ [word r.mode.ctorIdx, word r.start, word r.pointer])

/-- READ EXTENTS (R79): the count is clamped to 1 to 64 and to the extents that remain; FREE reads as FFFF_FFFFh
(DESIGN CHOICE, log entry 61). -/
def readExtentsReply (first count : Word) (s : State) : Reply :=
  match index? 512 first.toNat with
  | none => .only .badParam
  | some f =>
    let n := min (clampNat 1 64 count.toNat) (512 - f.val)
    let owners := (s.cs.owner.toList.drop f.val).take n
    .okWith (word owners.length :: owners.map (fun o => wordOpt (o.map Fin.val))
      ++ [word (s.cs.owner.toList.filter Option.isNone).length, word (fillFree s)])

end Sys2Proof.Machine
end

