-- ==== Sys2Proof/Machine/Contribution.lean ====
section
/-! DEFINITION. The Contribution Unit: arrivals (R25 to R30), the presence decision (R31 to R34), tiers and
weights (R35 to R37), and its host view (R40). -/

namespace Sys2Proof.Machine

/-! ## Channels and entries -/

/-- The tier by which a channel is taken (R25): fixed by the slot, except that a player slot takes PLAYOUT
or FILLER as the frame gives it, and any other as PLAYOUT. -/
def channelTier (slot : Fin 8) (sent : Tier) : Tier :=
  if slot = 4 then .alert
  else if slot = 2 ∨ slot = 3 then (if sent = .filler then .filler else .playout)
  else .live

/-- The samples of an arrival (R26): where MONO is set the left sample stands on both sides. -/
def monoSides (mono : Bool) (b : Block) : Block :=
  if mono then (block48 b).map fun p => (p.1, p.1) else block48 b

/-- The arrival that a received AUDIO frame makes in the block of a given count (R26, R28). -/
def arrivalOf (f : RxAudio) (block : Word) : Arrival where
  block := block
  tier := channelTier f.slot ((tierOf f.tier.toNat).getD .alert)
  air := f.air
  cue := f.cue
  mono := f.mono
  last := f.last
  tag := f.tag
  seq := f.seq
  samples := monoSides f.mono f.samples

/-- An entry is for this channel id. -/
def Entry.for (e : Entry) (node slot : Fin 8) : Bool := e.node == node && e.slot == slot

/-- The entry of a channel id. -/
def findEntry (node slot : Fin 8) (t : List Entry) : Option Entry := t.find? fun e => e.for node slot

/-- A channel's number, by which READ CHANNELS orders records (R40). -/
def channelNumber (node slot : Fin 8) : Nat := node * 8 + slot

/-- A channel id as one word: its number (DESIGN CHOICE, log entry 56). -/
def channelWord (node slot : Fin 8) : Word := word (channelNumber node slot)

/-- An entry put in its place by channel number. -/
def insertEntry (e : Entry) : List Entry → List Entry
  | [] => [e]
  | x :: rest =>
    if channelNumber e.node e.slot < channelNumber x.node x.slot then e :: x :: rest
    else x :: insertEntry e rest

/-- An entry created by its first arrival (R29, R30). It contributes nothing until the presence decision,
so AIR and CUE are clear; its tier is the arrival's, and MONO and tag are unstated until then (free values)
(DESIGN CHOICE, log entry 8). -/
def newEntry (node slot : Fin 8) (own : Bool) (a : Arrival) : Entry where
  node := node
  slot := slot
  tier := a.tier
  air := false
  cue := false
  mono := Config.newEntryMono (channelNumber node slot)
  own := own
  tag := Config.newEntryTag (channelNumber node slot)
  presence := .present
  missing := 0
  arrival := some a
  samples := silence
  seq := a.seq - 1
  endPending := false

/-- The reserved slots of a node (R29). -/
def reservedSlot (r : Roles) (slot : Fin 8) : Bool :=
  slot == 0 || slot == 4 || (slot == 1 && r.desk) || ((slot == 2 || slot == 3) && r.playout)
    || ((slot == 5 || slot == 6 || slot == 7) && r.caller)

/-- The unfilled reserved places: reserved slots without a LOCAL entry (R29). -/
def unfilledReserved (s : State) : Nat :=
  ((List.finRange 8).filter fun slot =>
    reservedSlot s.settings.roles slot && !s.cu.table.any fun e => e.own && e.slot == slot).length

/-- There is room for a heard channel when the entries and the unfilled reserved places are fewer than 24
(R29). -/
def roomForHeard (s : State) : Bool := decide (s.cu.table.length + unfilledReserved s < 24)

/-- The table with one channel's entry changed. -/
def changeEntry (node slot : Fin 8) (f : Entry → Entry) (s : State) : State :=
  { s with cu := { s.cu with table := s.cu.table.map fun e => if e.for node slot then f e else e } }

/-- An entry added for a channel that has none. -/
def addEntry (e : Entry) (s : State) : State :=
  { s with cu := { s.cu with table := insertEntry e s.cu.table } }

/-- A heard channel refused for want of room (R29): TABLE_FULL is counted, and the first refusal since the
last removal posts CHANNELS_FULL, with the channel id and the number of entries (DESIGN CHOICE, log entry 56). -/
def refuseChannel (node slot : Fin 8) (s : State) : State :=
  let s := count .tableFull s
  if s.cu.fullReported then s
  else post .channelsFull [channelWord node slot, word s.cu.table.length]
    { s with cu := { s.cu with fullReported := true } }

/-- A received AUDIO frame at the CU (R28, R29). One bearing the node's own id was sent by another node
with that id and is discarded (R12). -/
def takeHeard (f : RxAudio) (s : State) : State :=
  if f.node = s.settings.nodeId then s
  else
    let a := arrivalOf f s.clock.blockCount
    match findEntry f.node f.slot s.cu.table with
    | some e =>
      match e.arrival with
      | none => if f.seq = e.seq then s
                else changeEntry f.node f.slot (fun e => { e with arrival := some a }) s
      | some p => if p.block = a.block then s
                  else changeEntry f.node f.slot (fun e => { e with arrival := some a }) s
    | none =>
      if roomForHeard s then addEntry (newEntry f.node f.slot false a) s
      else refuseChannel f.node f.slot s

/-- An own channel's block taken as an arrival for the block just opened (R30). -/
def takeOwn (slot : Fin 8) (a : Arrival) (s : State) : State :=
  match findEntry s.settings.nodeId slot s.cu.table with
  | some _ => changeEntry s.settings.nodeId slot (fun e => { e with arrival := some a }) s
  | none => addEntry (newEntry s.settings.nodeId slot true a) s

/-! ## The presence decision -/

/-- What the decision for the closing block makes of one entry (R31, R33); `none` where it is removed.
An entry whose missing count comes to 64 is left for CHANNEL_GONE. -/
def decideEntry (closing : Word) (e : Entry) : Option Entry :=
  match e.arrival.filter fun a => a.block == closing with
  | some a =>
    some { e with
      tier := a.tier, air := a.air, cue := a.cue, mono := a.mono, tag := a.tag
      presence := .present, missing := 0, arrival := none
      samples := a.samples, seq := a.seq, endPending := a.last }
  | none =>
    if e.endPending then none
    else if e.missing = 0 then some { e with presence := .concealed, missing := 1, arrival := none }
    else some { e with presence := .stale, missing := e.missing + 1, arrival := none }

/-- An entry has run out: its missing count has reached 64 (R34). -/
def Entry.gone (e : Entry) : Bool := decide (64 ≤ e.missing)

/-- CHANNEL_GONE (R34): an entry whose missing count has reached 64 is removed, with its notice; a removal
clears the full-reported flag (R29). The notice gives the channel id in one word (DESIGN CHOICE, log entry 56). -/
def removeGone (node slot : Fin 8) (s : State) : State :=
  match findEntry node slot s.cu.table with
  | none => s
  | some e =>
    if e.gone then
      post .channelGone [channelWord node slot, word e.tier.ctorIdx, wordFlag e.air]
        { s with cu := { s.cu with
            table := s.cu.table.filter fun x => !x.for node slot, fullReported := false } }
    else s

/-- Every entry decided together (R31); the removals of R33 clear the full-reported flag (R29). -/
def decideAll (closing : Word) (s : State) : State :=
  let t := s.cu.table.filterMap (decideEntry closing)
  { s with cu := { s.cu with
      table := t, fullReported := s.cu.fullReported && decide (t.length = s.cu.table.length) } }

/-- A tier is active when an entry of it is PRESENT or CONCEALED with AIR set (R35). -/
def tierActive (t : List Entry) (tier : Tier) : Bool :=
  t.any fun e => e.tier == tier && e.air && e.presence != .stale

/-- The active tier set of a table (R35). -/
def activeTiers (t : List Entry) : PerTier Bool :=
  ⟨tierActive t .alert, tierActive t .live, tierActive t .playout, tierActive t .filler⟩

/-- The highest active tier (R35). -/
def highestTier (a : PerTier Bool) : Option Tier :=
  if a.alert then some .alert else if a.live then some .live
  else if a.playout then some .playout else if a.filler then some .filler else none

/-- The weight a duck value asks for while its upper tier is active, 16 otherwise. -/
def ducked (active : Bool) (v : Nat) : Nat := if active then v else 16

/-- The weight targets (R36): 16, or the smallest duck value among the active tiers above. -/
def duckTargets (d : Duck) (a : PerTier Bool) : PerTier Nat where
  alert := 16
  live := ducked a.alert (min 16 d.alertOverLive)
  playout := min (ducked a.alert (min 16 d.alertOverPlayout)) (ducked a.live (min 16 d.liveOverPlayout))
  filler := min (ducked a.alert (min 16 d.alertOverFiller))
    (min (ducked a.live (min 16 d.liveOverFiller)) (ducked a.playout (min 16 d.playoutOverFiller)))

/-- One step of a weight toward its target (R37). -/
def stepWeight (target w : Nat) : Nat :=
  if w < target then w + 1 else if target < w then w - 1 else w

/-- The four weights stepped (R37). -/
def stepWeights (t w : PerTier Nat) : PerTier Nat :=
  ⟨stepWeight t.alert w.alert, stepWeight t.live w.live, stepWeight t.playout w.playout,
   stepWeight t.filler w.filler⟩

/-- A tier, or none, as a word. -/
def tierWord (t : Option Tier) : Word := wordOpt (t.map Tier.ctorIdx)

/-- Tiers, targets and weights recomputed from the decided entries (R35 to R37), with TIER_CHANGE when the
tier in force changes. -/
def recomputeTiers (s : State) : State :=
  let active := activeTiers s.cu.table
  let force := highestTier active
  let targets := duckTargets s.settings.duck active
  postIf (force != s.cu.inForce) .tierChange [tierWord s.cu.inForce, tierWord force]
    { s with cu := { s.cu with
        active := active, inForce := force, targets := targets
        weights := stepWeights targets s.cu.weights } }

/-- The presence decision for the block now closing (R31 to R37); entries that end at one decision end in ascending order
of channel (R34; DESIGN CHOICE, log entry 70). -/
def presenceDecision (closing : Word) (s : State) : State :=
  let s := decideAll closing s
  recomputeTiers (forEach (s.cu.table.filter Entry.gone) (fun e => removeGone e.node e.slot) s)

/-- Concealment halves toward minus infinity (R32). -/
def halve (p : Pair) : Pair := (p.1 / 2, p.2 / 2)

/-- What an entry contributes to the mix of the closing block (R32). -/
def contribution (e : Entry) : Block :=
  match e.presence with
  | .present => e.samples
  | .concealed => e.samples.map halve
  | .stale => silence

/-- REJOIN at the CU (R38): heard entries leave without notice, LOCAL ones are kept. -/
def rejoinTable (s : State) : State :=
  { s with cu := { s.cu with table := s.cu.table.filter fun e => e.own, fullReported := false } }

/-! ## Host view -/

/-- A table record as READ CHANNELS gives it, the channel id in one word (R40; DESIGN CHOICE, log entry 56). -/
def entryWords (e : Entry) : List Word :=
  [channelWord e.node e.slot, word e.tier.ctorIdx, wordFlag e.air, wordFlag e.cue, wordFlag e.mono,
   wordFlag e.own, wordFlag e.endPending, word e.tag.toNat, word e.presence.ctorIdx, word e.missing,
   word e.seq.toNat]

/-- READ CHANNELS (R40). -/
def readChannelsReply (s : State) : Reply :=
  if atSite s then .only .notRole
  else .okWith (word s.cu.table.length :: s.cu.table.flatMap entryWords)

/-- Four per-tier values in tier order. -/
def tierValues (p : PerTier Nat) : List Word := [word p.alert, word p.live, word p.playout, word p.filler]

/-- READ TIERS (R40); the active tier set is a flag word for each tier, in tier order (DESIGN CHOICE, log entry
56). -/
def readTiersReply (s : State) : Reply :=
  if atSite s then .only .notRole
  else
    let d := s.settings.duck
    .okWith ([wordFlag s.cu.active.alert, wordFlag s.cu.active.live, wordFlag s.cu.active.playout,
        wordFlag s.cu.active.filler, tierWord s.cu.inForce]
      ++ tierValues s.cu.targets ++ tierValues s.cu.weights
      ++ [word d.alertOverLive, word d.alertOverPlayout, word d.alertOverFiller, word d.liveOverPlayout,
          word d.liveOverFiller, word d.playoutOverFiller])

end Sys2Proof.Machine
end

