-- ==== Sys2Proof/Machine/Tones.lean ====
section
/-! DEFINITION. The Tone Generator's voices and pool (R183 to R186) and the line-up tone (R187). -/

namespace Sys2Proof.Machine

/-- A tone frequency is clamped to 20 to 20,000 Hz (R183). -/
def toneFrequency (f : Nat) : Nat := clampNat 20 20000 f

/-- A voice as a holder sets it at its grant (R183): form, frequencies, increments, level, and both phase
accumulators at 0. -/
def grantedVoice (h : Holder) (dual : Bool) (f1 f2 level : Nat) : Voice where
  holder := some h
  dual := dual
  f1 := toneFrequency f1
  f2 := toneFrequency f2
  i1 := phaseIncrement (toneFrequency f1)
  i2 := if dual then phaseIncrement (toneFrequency f2) else 0
  p1 := 0
  p2 := 0
  level := min 8192 level
  block := []

/-- A voice given back: no holder, both accumulators 0 (R183). -/
def Voice.release (v : Voice) : Voice := { v with holder := none, p1 := 0, p2 := 0, block := [] }

/-- The table value at a phase: the entry its top 8 bits give (R183). -/
def toneAt (p : Word) : Int := sineEntry (p.toNat / 16777216)

/-- A phase after `k` additions of an increment, modulo 2³² (R183). -/
def phaseAfter (p : Word) (i k : Nat) : Word := p + BitVec.ofNat 32 (k * i)

/-- Sample `k` of a voice's block (R184). -/
def Voice.sample (v : Voice) (k : Nat) : Int :=
  let t1 := toneAt (phaseAfter v.p1 v.i1 k)
  let raw := if v.dual then (t1 + toneAt (phaseAfter v.p2 v.i2 k)) / 2 else t1
  applyGain raw v.level

/-- A voice with a holder forms one block and runs its phases on; one without forms nothing (R183). -/
def Voice.form (v : Voice) : Voice :=
  match v.holder with
  | none => { v with block := [] }
  | some _ =>
    { v with
      block := (List.range 48).map v.sample
      p1 := phaseAfter v.p1 v.i1 48
      p2 := if v.dual then phaseAfter v.p2 v.i2 48 else v.p2 }

/-- Every voice forms its block at a block start (R183). -/
def formVoices (s : State) : State :=
  { s with tg := { s.tg with voices := Tab.each s.tg.voices Voice.form } }

/-- A voice's block as a mono pair of sides. -/
def voiceBlock (v : Fin 4) (s : State) : Block :=
  block48 ((Tab.at s.tg.voices v).block.map fun x => (x, x))

/-! ## Voice 0 -/

/-- Voice 0 taken for an attention signal (R147, R185): DUAL at the attention values. -/
def takeAttentionVoice (s : State) : State :=
  let v := grantedVoice .alertUnit true s.settings.attentionF1 s.settings.attentionF2 s.settings.attentionLevel
  { s with tg := { s.tg with voices := s.tg.voices.put 0 v } }

/-- Voice 0 given back (R185); it never enters the pool. -/
def releaseAttentionVoice (s : State) : State :=
  { s with tg := { s.tg with voices := s.tg.voices.put 0 (Tab.at s.tg.voices 0).release } }

/-! ## The pool -/

/-- The pool voices, lowest first (R186). -/
def poolVoices : List (Fin 4) := [1, 2, 3]

/-- The lowest-numbered free pool voice. -/
def freePoolVoice (s : State) : Option (Fin 4) :=
  poolVoices.find? fun v => (Tab.at s.tg.voices v).holder == none

/-- A grant (R186): the voice is set as its requester states, and the requester is told in the same event.
A line takes it SINGLE at the check values (R110); line-up SINGLE at 1,000 Hz and level 516, and is ON. -/
def grantVoice (v : Fin 4) (h : Holder) (s : State) : State :=
  match h with
  | .line l =>
    let voice := grantedVoice h false s.settings.checkFrequency 20 s.settings.checkLevel
    { s with
      tg := { s.tg with voices := s.tg.voices.put v voice }
      ku := { s.ku with lines := s.ku.lines.put l { Tab.at s.ku.lines l with voice := .held v } } }
  | .lineUp =>
    { s with tg := { s.tg with
        voices := s.tg.voices.put v (grantedVoice h false 1000 20 516), lineUp := .on } }
  | .alertUnit => s

/-- A request for a pool voice (R186): granted at once when none waits and a voice is free, otherwise it
joins the tail of the wait list. -/
def requestVoice (h : Holder) (s : State) : State :=
  match s.tg.waitList, freePoolVoice s with
  | [], some v => grantVoice v h s
  | _, _ => { s with tg := { s.tg with waitList := s.tg.waitList ++ [h] } }

/-- A pool voice given back (R186): it goes to the oldest waiting request, if there is one. -/
def giveBackVoice (v : Fin 4) (s : State) : State :=
  let s := { s with tg := { s.tg with voices := s.tg.voices.put v (Tab.at s.tg.voices v).release } }
  match s.tg.waitList with
  | [] => s
  | h :: rest => grantVoice v h { s with tg := { s.tg with waitList := rest } }

/-- A waiting request withdrawn (R186): the order of the others is kept. -/
def withdrawRequest (h : Holder) (s : State) : State :=
  { s with tg := { s.tg with waitList := s.tg.waitList.filter fun x => x != h } }

/-! ## The line-up tone -/

/-- The pool voice that line-up holds. -/
def lineUpVoice (s : State) : Option (Fin 4) :=
  poolVoices.find? fun v => (Tab.at s.tg.voices v).holder == some .lineUp

/-- LINE-UP is on while the line-up state is ON (R187). -/
def lineUpOn (s : State) : Bool := s.tg.lineUp == .on

/-- The state and route after a line-up command (R187). -/
def lineUpReply (s : State) : Reply := .okWith [word s.tg.lineUp.ctorIdx, word s.tg.route.ctorIdx]

/-- The route of a parameter word. -/
def routeOf : Nat → Option Route
  | 0 => some .air
  | 1 => some .cue
  | _ => none

/-- LINE-UP ON (R187): the SITE node's refusal comes before that of the route (R194; DESIGN CHOICE, log entry 99). -/
def startLineUp (route : Word) (s : State) : State × Reply :=
  if atSite s then refuse .notRole s
  else match routeOf route.toNat with
    | none => refuse .badParam s
    | some r =>
      let s := { s with tg := { s.tg with route := r } }
      let s := if s.tg.lineUp = .off then
          requestVoice .lineUp { s with tg := { s.tg with lineUp := .waiting } }
        else s
      (s, lineUpReply s)

/-- Line-up ended (R187): a waiting request is withdrawn, a voice held is given back. -/
def endLineUp (s : State) : State :=
  let off (s : State) : State := { s with tg := { s.tg with lineUp := .off } }
  match s.tg.lineUp with
  | .off => s
  | .waiting => off (withdrawRequest .lineUp s)
  | .on => match lineUpVoice s with
    | some v => giveBackVoice v (off s)
    | none => off s

end Sys2Proof.Machine
end

