-- ==== Sys2Proof/Machine/MixEngine.lean ====
section
/-! DEFINITION. The Mix Engine: its commands (R46, R49, R52, R58), the source stage (R45, R47, R48), the
telephone rate converters (R56, R57), the buses (R50 to R55), the meters and the silence monitor (R59). -/

namespace Sys2Proof.Machine

/-! ## Slots -/

/-- The desk input of a slot. -/
def deskOf (slot : Fin 8) : Option (Fin 2) := index? 2 slot.val

/-- The caller line of a slot. -/
def lineOf (slot : Fin 8) : Option (Fin 3) := if 5 ≤ slot.val then index? 3 (slot.val - 5) else none

/-- The slot of a caller line. -/
def lineSlot (l : Fin 3) : Fin 8 := ⟨l.val + 5, by omega⟩

/-- The slot of a desk input. -/
def deskSlot (d : Fin 2) : Fin 8 := ⟨d.val, by omega⟩

/-- The slot of a player. -/
def playerSlot (p : Fin 2) : Fin 8 := ⟨p.val + 2, by omega⟩

/-- A desk input's record replaced. -/
def setDesk (d : Fin 2) (x : DeskSource) (s : State) : State :=
  { s with me := { s.me with desk := s.me.desk.put d x } }

/-- A caller line's source record replaced. -/
def setCallerSource (l : Fin 3) (x : CallerSource) (s : State) : State :=
  { s with me := { s.me with caller := s.me.caller.put l x } }

/-- Whether a desk input or caller line produces, and with which AIR and CUE flags (R48); line-up takes
slot 0 whatever the roles and flags (R187). -/
def slotFlags (slot : Fin 8) (s : State) : Option (Bool × Bool) :=
  if slot = 0 ∧ lineUpOn s then some (s.tg.route == .air, s.tg.route == .cue)
  else match deskOf slot, lineOf slot with
    | some d, _ =>
      let x := Tab.at s.me.desk d
      if s.settings.roles.desk && (x.air || x.cue) then some (x.air, x.cue) else none
    | none, some l =>
      let air := (Tab.at s.ku.lines l).state == .onAir
      let cue := (Tab.at s.me.caller l).cue
      if s.settings.roles.caller && (air || cue) then some (air, cue) else none
    | none, none => none

/-- A slot that produced in the previous block and has stopped producing owes its END block (R48; DEDUCED, log
entry 29). -/
def noteStop (slot : Fin 8) (s : State) : State :=
  if Tab.at s.me.produced slot ∧ slotFlags slot s = none then
    { s with me := { s.me with endOwed := s.me.endOwed.put slot true } }
  else s

/-- LINE-UP OFF (R187): a slot 0 that produced under line-up and does not then produce owes its END block (R48). -/
def stopLineUp (s : State) : State × Reply :=
  if atSite s then refuse .notRole s
  else
    let t := endLineUp s
    let t := if s.tg.lineUp = .on then noteStop 0 t else t
    (t, lineUpReply t)

/-! ## Host commands -/

/-- A flag word (R210): 0 or 1; any other word is outside its set (DEDUCED, log entry 13). -/
def flagOf : Nat → Option Bool
  | 0 => some false
  | 1 => some true
  | _ => none

/-- The level a SET GAIN records, and the target it gives: 0 while the cough hold is set (R46). -/
def giveDeskGain (d : Fin 2) (gain : Nat) (s : State) : State :=
  let x := Tab.at s.me.desk d
  let level := min 8192 gain
  setDesk d { x with level := level, gain := if x.cough then x.gain else x.gain.giveGain level 1 } s

/-- The level and target of a caller line (R46). -/
def giveCallerGain (l : Fin 3) (gain : Nat) (s : State) : State :=
  let x := Tab.at s.me.caller l
  let level := min 8192 gain
  setCallerSource l { x with level := level, gain := x.gain.giveGain level 1 } s

/-- SET GAIN (R46). -/
def setGainCommand (slot gain : Word) (s : State) : State × Reply :=
  if atSite s then refuse .notRole s
  else match index? 8 slot.toNat with
    | none => refuse .badParam s
    | some k => match deskOf k, lineOf k with
      | some d, _ => if s.settings.roles.desk then (giveDeskGain d gain.toNat s, .only .ok) else refuse .notRole s
      | none, some l =>
        if s.settings.roles.caller then (giveCallerGain l gain.toNat s, .only .ok) else refuse .notRole s
      | none, none => refuse .badParam s

/-- The flags of a slot after SET CHANNEL. -/
def channelReply (air cue : Bool) : Reply := .okWith [wordFlag air, wordFlag cue]

/-- SET CHANNEL (R49): the slot and both flag words are checked, then the role, then AIR set for a caller slot (DEDUCED,
log entry 41). At a SITE node the answer is NOT_ROLE before any of them is looked at (DESIGN CHOICE, log entry 115). -/
def setChannelCommand (slot air cue : Word) (s : State) : State × Reply :=
  if atSite s then refuse .notRole s
  else match index? 8 slot.toNat, flagOf air.toNat, flagOf cue.toNat with
    | some k, some a, some c => match deskOf k, lineOf k with
      | some d, _ =>
        if s.settings.roles.desk then
          (noteStop k (setDesk d { Tab.at s.me.desk d with air := a, cue := c } s), channelReply a c)
        else refuse .notRole s
      | none, some l =>
        if !s.settings.roles.caller then refuse .notRole s
        else if a then refuse .badParam s
        else (noteStop k (setCallerSource l { Tab.at s.me.caller l with cue := c } s),
          channelReply ((Tab.at s.ku.lines l).state == .onAir) c)
      | none, none => refuse .badParam s
    | _, _, _ => refuse .badParam s

/-- A MIX_MINUS bus (R52). -/
def isMixMinus (b : Fin 6) : Bool := decide (3 ≤ b.val)

/-- SET TRIM (R52). At a SITE node the answer is NOT_ROLE (R60) before the bus is looked at (DESIGN CHOICE, log entry
115). -/
def setTrimCommand (bus trim : Word) (s : State) : State × Reply :=
  if atSite s then refuse .notRole s
  else match index? 6 bus.toNat with
    | none => refuse .badParam s
    | some b =>
      if isMixMinus b && !s.settings.roles.caller then refuse .notRole s
      else ({ s with me := { s.me with
          trims := s.me.trims.put b ((Tab.at s.me.trims b).giveGain trim.toNat 1) } }, .only .ok)

/-- A bus's meters as READ METERS gives them (R58). -/
def meterWords (m : Meter) : List Word := [word m.last, word m.held, word m.clips]

/-- READ METERS (R58): it returns the meters and the silence monitor, then clears every held peak and clip
count. -/
def readMetersCommand (s : State) : State × Reply :=
  if atSite s then refuse .notRole s
  else
    ({ s with me := { s.me with meters := Tab.each s.me.meters fun m => { m with held := 0, clips := 0 } } },
      .okWith (s.me.meters.toList.flatMap meterWords
        ++ [wordFlag s.me.silent, word s.me.quietRun, word s.me.soundRun]))

/-! ## The source stage -/

/-- What a local source hands the source stage for one block (R47, R48), its gains already applied. -/
structure SourceBlock where
  air : Bool
  cue : Bool
  mono : Bool
  last : Bool
  tier : Tier
  tag : Half
  lineUp : Bool
  samples : Block
deriving DecidableEq, Repr

/-- One block handed to the transmit queue and to the Contribution Table (R47, R48, R9, R30): it carries
the slot's sequence number, which then increases by 1. -/
def handBlock (slot : Fin 8) (b : SourceBlock) (s : State) : State :=
  let seq := Tab.at s.me.seq slot
  let s := { s with me := { s.me with seq := s.me.seq.put slot (seq + 1) } }
  let frame : AudioFrame :=
    ⟨audioClass b.lineUp slot b.tier, b.tier, b.air, b.cue, b.mono, b.last, seq, b.tag, b.samples⟩
  let arrival : Arrival :=
    ⟨s.clock.blockCount, channelTier slot b.tier, b.air, b.cue, b.mono, b.last, b.tag, seq,
      monoSides b.mono b.samples⟩
  takeOwn slot arrival (queueAudio slot frame s)

/-- A block of the audio TDM input (DESIGN CHOICE, log entry 49). -/
def tdmBlock (input : BlockInput) (slot : Nat) : Block := block48 (input.tdm.getD slot [])

/-- The sample block of a desk input or caller line under its source gain (R45, R47); `ups` holds the
up-converted caller samples. -/
def slotSamples (slot : Fin 8) (input : BlockInput) (ups : Tab (List Int) 3) (s : State) : Block :=
  match deskOf slot, lineOf slot with
  | some d, _ => applyRamp (Tab.at s.me.desk d).gain (tdmBlock input slot)
  | none, some l =>
    applyRamp (Tab.at s.me.caller l).gain (block48 ((Tab.at ups l).map fun x => (x, x)))
  | none, none => silence

/-- The block that a desk input or caller line hands at a block start, if any (R47, R48, R187). -/
def slotBlock (slot : Fin 8) (input : BlockInput) (ups : Tab (List Int) 3) (s : State) : Option SourceBlock :=
  let lineUp := decide (slot = 0) && lineUpOn s
  let mono := lineUp || (lineOf slot).isSome
  let samples := match lineUp, lineUpVoice s with
    | true, some v => voiceBlock v s
    | _, _ => slotSamples slot input ups s
  match slotFlags slot s with
  | some (air, cue) => some ⟨air, cue, mono, false, .live, 0, lineUp, samples⟩
  | none =>
    if Tab.at s.me.endOwed slot then
      let cue := match deskOf slot, lineOf slot with
        | some d, _ => (Tab.at s.me.desk d).cue
        | none, some l => (Tab.at s.me.caller l).cue
        | none, none => false
      let air := match deskOf slot with
        | some d => (Tab.at s.me.desk d).air
        | none => false
      some ⟨air, cue, mono, true, .live, 0, false, samples⟩
    else none

/-- A desk or caller slot's turn in the source stage (R48): its block is handed, END owed is cleared, and
whether it produced is kept for the next block start. -/
def sourceSlot (slot : Fin 8) (b : Option SourceBlock) (s : State) : State :=
  let producing := (slotFlags slot s).isSome
  let s := { s with me := { s.me with
    endOwed := s.me.endOwed.put slot false, produced := s.me.produced.put slot producing } }
  match b with
  | none => s
  | some b => handBlock slot b s

/-- A player slot's turn: the block the PU or AU gives it, which itself marks END (R48). -/
def playerSourceSlot (slot : Fin 8) (b : Option SourceBlock) (s : State) : State :=
  match b with
  | none => { s with me := { s.me with produced := s.me.produced.put slot false } }
  | some b => handBlock slot b { s with me := { s.me with produced := s.me.produced.put slot true } }

/-- The desk and caller slots. -/
def openSlots : List (Fin 8) := [0, 1, 5, 6, 7]

/-- Every source gain, program gain and envelope advances with the source stage (R41). -/
def advanceSources (s : State) : State :=
  { s with me := { s.me with
      desk := Tab.each s.me.desk fun d => { d with gain := d.gain.advance }
      caller := Tab.each s.me.caller fun c => { c with gain := c.gain.advance }
      playerGain := Tab.each s.me.playerGain Ramp.advance
      playerEnvelope := Tab.each s.me.playerEnvelope Ramp.advance
      alertEnvelope := s.me.alertEnvelope.advance } }

/-- The source stage (R41, R47): the desk and caller blocks are formed and handed with the blocks that the
PU and the AU give, and the gains advance. -/
def sourceStage (input : BlockInput) (ups : Tab (List Int) 3) (a b alert : Option SourceBlock)
    (s : State) : State :=
  let s := forEach openSlots (fun k t => sourceSlot k (slotBlock k input ups s) t) s
  advanceSources (playerSourceSlot 4 alert (playerSourceSlot 3 b (playerSourceSlot 2 a s)))

/-! ## The telephone rate converters -/

/-- One phone sample up-converted from the previous sample (R56). -/
def upStep (p : Int) (q : Int) : List Int × Int :=
  let x := 256 * q
  ([p + (x - p) * 1 / 3, p + (x - p) * 2 / 3, x], x)

/-- Phone samples up-converted in order (R56): the samples, and the previous sample left. -/
def upConvert (p : Int) : List Int → List Int × Int
  | [] => ([], p)
  | q :: rest =>
    let a := upStep p q
    let b := upConvert a.2 rest
    (a.1 ++ b.1, b.2)

/-- The 16 phone samples of a line in a block period. -/
def phoneSamples (input : BlockInput) (l : Fin 3) : List Int :=
  ((input.phone.getD l []) ++ List.replicate 16 0).take 16

/-- Every caller line's phone samples up-converted (R56), at a CALLER node. -/
def upConvertAll (input : BlockInput) (s : State) : State × Tab (List Int) 3 :=
  if s.settings.roles.caller then
    let conv (l : Fin 3) := upConvert (Tab.at s.me.caller l).previous (phoneSamples input l)
    ({ s with me := { s.me with caller := Vector.ofFn fun l =>
        { Tab.at s.me.caller l with previous := (conv l).2 } } }, Vector.ofFn fun l => (conv l).1)
  else (s, Vector.replicate 3 (List.replicate 48 0))

/-- One phone sample down-converted from three mixer frames (R57), before the 16-bit limit. -/
def downSample (a b c : Pair) : Int :=
  (((a.1 + a.2) + (b.1 + b.2) + (c.1 + c.2) + 3) / 6 + 128) / 256

/-- A block's 16 phone samples before the 16-bit limit (R57). -/
def downConvert : Block → List Int
  | a :: b :: c :: rest => downSample a b c :: downConvert rest
  | _ => []

/-! ## Buses -/

/-- An accumulator of 48 frames of zero. -/
def zeroAcc : Block := silence

/-- A block at a weight added to an accumulator (R50). -/
def addWeighted (acc b : Block) (w : Int) : Block :=
  acc.zipWith (fun x y => (x.1 + y.1 * w, x.2 + y.2 * w)) (block48 b)

/-- The accumulator over the entries that a bus includes (R50). -/
def accumulate (t : List Entry) (includes : Entry → Bool) (weight : Entry → Nat) : Block :=
  (t.filter includes).foldl (fun acc e => addWeighted acc (contribution e) (weight e)) zeroAcc

/-- PROGRAM's accumulator (R52). -/
def programAcc (s : State) : Block :=
  accumulate s.cu.table (fun e => e.air) (fun e => s.cu.weights.get e.tier)

/-- CUE's accumulator (R52). -/
def cueAcc (s : State) : Block := accumulate s.cu.table (fun e => e.cue) (fun _ => 16)

/-- A hold feed of an accumulator at hold weight `h` (R53). -/
def holdOf (h : Nat) (acc : Block) : Block :=
  acc.map fun p => ((p.1 * h + 8) / 16, (p.2 * h + 8) / 16)

/-- The hold weight in force: above 16 is taken as 16 (R53). -/
def holdWeight (s : State) : Nat := min 16 s.settings.holdWeight

/-- Programme less own (R54): a line's own LOCAL entry taken out where PROGRAM includes it. -/
def lessOwn (l : Fin 3) (prog : Block) (s : State) : Block :=
  match findEntry s.settings.nodeId (lineSlot l) s.cu.table with
  | some e =>
    if e.air && e.own then addWeighted prog (contribution e) (-(s.cu.weights.live : Int)) else prog
  | none => prog

/-- A caller line's MIX_MINUS accumulator by its line state (R54). -/
def mixMinusAcc (l : Fin 3) (input : BlockInput) (prog : Block) (s : State) : Block :=
  let line := Tab.at s.ku.lines l
  match line.state with
  | .onAir => lessOwn l prog s
  | .screening => addWeighted zeroAcc (tdmBlock input s.settings.screenerSlot) 16
  | .holding => holdOf (holdWeight s) (lessOwn l prog s)
  | .ready => holdOf (holdWeight s) (lessOwn l prog s)
  | .checking => match line.voice with
    | .held v => addWeighted zeroAcc (voiceBlock v s) 16
    | _ => zeroAcc
  | _ => zeroAcc

/-- An accumulator value under a trim, before saturation (R51). -/
def trimmed (a g : Int) : Int := (a * g + 32768) / 65536

/-- A bus as its output stage leaves it: its output block and how many samples saturated (R51). -/
structure BusOut where
  block : Block
  clips : Nat
deriving DecidableEq, Repr

/-- How many of these values lie outside a limit. -/
def clipped (limit : Int → Int) (l : List Int) : Nat := (l.filter fun x => limit x != x).length

/-- The output stage (R51). -/
def outputStage (trim : Ramp) (acc : Block) : BusOut :=
  let raw := (trim.gains.zip acc).map fun gp => (trimmed gp.2.1 gp.1, trimmed gp.2.2 gp.1)
  ⟨raw.map fun p => (sat24 p.1, sat24 p.2), clipped sat24 (raw.flatMap fun p => [p.1, p.2])⟩

/-- A bus's meters after a mixed block (R58). -/
def Meter.take (m : Meter) (b : Block) (clips : Nat) : Meter :=
  let p := blockPeak b
  ⟨p, max m.held p, bumpBy 65535 clips m.clips⟩

/-- Where a bus stands in the order of R52. -/
def Bus.place (b : Bus) : Nat := b.ctorIdx

/-- The bus stage (R41, R50 to R58): every bus is formed from the decided entries, passes its output stage
and its meters, and fills the output slots and phone outputs; the ports play what the buffers held. -/
def busStage (input : BlockInput) (s : State) : State :=
  let prog := programAcc s
  let caller := s.settings.roles.caller
  let acc (b : Fin 6) : Block := match b.val with
    | 0 => prog
    | 1 => cueAcc s
    | 2 => holdOf (holdWeight s) prog
    | n => match index? 3 (n - 3) with
      | some l => mixMinusAcc l input prog s
      | none => zeroAcc
  let formed (b : Fin 6) : Bool := caller || !isMixMinus b
  let outs : Tab BusOut 6 := Vector.ofFn fun b =>
    if formed b then outputStage (Tab.at s.me.trims b) (acc b) else ⟨silence, 0⟩
  let line (l : Fin 3) : BusOut := Tab.at outs ⟨l.val + 3, by omega⟩
  let phones : Tab (List Int) 3 := Vector.ofFn fun l =>
    if caller then downConvert (line l).block else List.replicate 16 0
  let phoneClips (b : Fin 6) : Nat := match index? 3 (b.val - 3) with
    | some l => if 3 ≤ b.val then clipped sat16 (Tab.at phones l) else 0
    | none => 0
  { s with me := { s.me with
      trims := Tab.each s.me.trims Ramp.advance
      meters := Vector.ofFn fun b =>
        if formed b then
          (Tab.at s.me.meters b).take (Tab.at outs b).block ((Tab.at outs b).clips + phoneClips b)
        else { Tab.at s.me.meters b with last := 0 }
      playing := s.me.outputs
      phonePlaying := s.me.phoneOutputs
      outputs := Vector.ofFn fun k => match Tab.at s.settings.outMap k with
        | none => silence
        | some b => match index? 6 (Bus.place b) with
          | some i => (Tab.at outs i).block
          | none => silence
      phoneOutputs := Vector.ofFn fun l => (Tab.at phones l).map sat16 } }

/-- PROGRAM's output block of the most recently mixed block: formed again from the same accumulator and
the trim that applied to it, for the forward frame (R55, R157). -/
def programBlock (s : State) : Block :=
  (outputStage (Tab.at s.me.trims 0) (programAcc s)).block

/-! ## The silence monitor -/

/-- PROGRAM's last peak. -/
def programPeak (s : State) : Nat := (Tab.at s.me.meters 0).last

/-- PROGRAM_SILENT (R59): the quiet run has reached the silence limit (DEDUCED, log entry 40). -/
def becomeSilent (s : State) : State :=
  if s.me.silent = false ∧ s.settings.silenceLimit ≤ s.me.quietRun then
    post .programSilent [word (programPeak s)] { s with me := { s.me with silent := true } }
  else s

/-- PROGRAM_RESTORED (R59): the sound run has reached 48. -/
def becomeSounding (s : State) : State :=
  if s.me.silent ∧ 48 ≤ s.me.soundRun then
    post .programRestored [word (programPeak s)]
      { s with me := { s.me with silent := false, soundRun := 0 } }
  else s

/-- The silence monitor at a block start (R59; DEDUCED, log entry 43). -/
def silenceMonitor (s : State) : State :=
  let me := s.me
  if programPeak s < s.settings.silenceFloor then
    if me.silent then { s with me := { me with soundRun := 0 } }
    else becomeSilent { s with me := { me with
      quietRun := bump s.settings.silenceLimit me.quietRun, soundRun := 0 } }
  else if me.silent then
    becomeSounding { s with me := { me with quietRun := 0, soundRun := bump 48 me.soundRun } }
  else { s with me := { me with quietRun := 0 } }

end Sys2Proof.Machine
end

