-- ==== Sys2Proof/Machine/Playout.lean ====
section
/-! DEFINITION. The Playout Unit's players (R85 to R100): streams, loading, fetching, starting, ending, holds and
releases. The cue list commands and the seat stand in Seat.lean. -/

namespace Sys2Proof.Machine

/-! ## Players and cue entries -/

/-- A player's record. -/
def playerAt (s : State) (p : Fin 2) : Player := Tab.at s.pu.players p

/-- A player's record replaced. -/
def setPlayer (p : Fin 2) (x : Player) (s : State) : State :=
  { s with pu := { s.pu with players := s.pu.players.put p x } }

/-- A player's reader at the Clip Store. -/
def playerReader (p : Fin 2) : Reader := if p = 0 then .playerA else .playerB

/-- The two players. -/
def bothPlayers : List (Fin 2) := [0, 1]

/-- The cue entry of a tag. -/
def cueOf (s : State) (tag : Half) : Option CueEntry := s.pu.cues.find? fun e => e.tag == tag

/-- The cue entry of a tag changed. -/
def changeCue (tag : Half) (f : CueEntry → CueEntry) (s : State) : State :=
  { s with pu := { s.pu with cues := s.pu.cues.map fun e => if e.tag = tag then f e else e } }

/-- A player holds the entry of a tag: it is not IDLE and not detached from the list. -/
def holdsTag (x : Player) (tag : Half) : Bool :=
  x.state != .idle && !x.detached && (x.entry.map HeldEntry.tag) == some tag

/-- The player that holds an entry, if one does. -/
def playerOf (s : State) (tag : Half) : Option (Fin 2) :=
  bothPlayers.find? fun p => holdsTag (playerAt s p) tag

/-- A player's own entry in the cue list changed; a detached player has none. -/
def changeOwnCue (p : Fin 2) (f : CueEntry → CueEntry) (s : State) : State :=
  match (playerAt s p).entry with
  | some e => if (playerAt s p).detached then s else changeCue e.tag f s
  | none => s

/-- The state of a player's own entry set. -/
def setOwnCueState (p : Fin 2) (st : CueState) (s : State) : State :=
  changeOwnCue p (fun e => { e with state := st }) s

/-- The tag of the entry a player holds, 0 without one. -/
def heldTag (x : Player) : Half := (x.entry.map HeldEntry.tag).getD 0

/-- A program gain given to a player (R44). -/
def giveProgramGain (p : Fin 2) (gain length : Nat) (s : State) : State :=
  { s with me := { s.me with
      playerGain := s.me.playerGain.put p ((Tab.at s.me.playerGain p).giveGain gain length) } }

/-- An envelope target given to a player (R43). -/
def givePlayerEnvelope (p : Fin 2) (target length : Nat) (s : State) : State :=
  { s with me := { s.me with
      playerEnvelope := s.me.playerEnvelope.put p ((Tab.at s.me.playerEnvelope p).giveEnvelope target length) } }

/-! ## Streams -/

/-- How many frames of a clip its stream takes (R85): all of the last clip, frames below the segue point of
another. -/
def partLength (isLast : Bool) (c : StreamClip) : Nat := if isLast then c.length else min c.segue c.length

/-- A stream clip with its trim, segue point, format and length copied from its descriptor (R85, R87). -/
def copyClip (s : State) (c : StreamClip) : StreamClip :=
  if c.copied then c
  else
    let d := clipAt s c.clip
    { c with copied := true, trim := d.trim, segue := d.segue, format := d.format, length := d.length }

/-- The clip and clip frame of a stream frame (R88), clips being copied as they are first fetched from. -/
def seekStream (s : State) : List StreamClip → Nat → List StreamClip × Option (Fin 256 × Nat)
  | [], _ => ([], none)
  | c :: rest, o =>
    let c := copyClip s c
    let n := partLength rest.isEmpty c
    if o < n then (c :: rest, some (c.clip, o))
    else
      let r := seekStream s rest (o - n)
      (c :: r.1, r.2)

/-- The stream has frames from a fetch position on, as far as the copied clips show. -/
def streamBeyond : List StreamClip → Nat → Bool
  | [], _ => false
  | c :: rest, o =>
    if !c.copied then true
    else if o < partLength rest.isEmpty c then true
    else streamBeyond rest (o - partLength rest.isEmpty c)

/-- The stream length, once every clip is copied. -/
def streamLength : List StreamClip → Option Nat
  | [] => some 0
  | c :: rest =>
    if c.copied then (streamLength rest).map fun n => partLength rest.isEmpty c + n else none

/-- The entry's segue point (R85): the stream position of the last clip's segue point. -/
def streamSegue : List StreamClip → Option Nat
  | [] => none
  | [c] => if c.copied then some c.segue else none
  | c :: rest => if c.copied then (streamSegue rest).map fun n => partLength false c + n else none

/-- The place in the stream, the clip and the frame of it, of a stream frame among the copied clips. -/
def streamPart : List StreamClip → Nat → Nat → Option (Nat × StreamClip × Bool)
  | [], _, _ => none
  | c :: rest, k, o =>
    if o < partLength rest.isEmpty c then some (k, c, rest.isEmpty)
    else streamPart rest (k + 1) (o - partLength rest.isEmpty c)

/-- The stream with the part of a stream frame cut short there: the clip has no frame from it on (R73). -/
def cutStream : List StreamClip → Nat → List StreamClip
  | [], _ => []
  | c :: rest, o =>
    let n := partLength rest.isEmpty c
    if o < n then { c with length := o, segue := min o c.segue } :: rest
    else c :: cutStream rest (o - n)

/-- The stream is fully fetched (R88). -/
def Player.fullyFetched (x : Player) : Bool := !streamBeyond x.stream x.fetchPosition

/-- The player's buffer is ready (R88): 3,072 frames, or every frame of a shorter stream. -/
def Player.ready (x : Player) : Bool := decide (3072 ≤ x.buffer.length) || x.fullyFetched

/-- The low flag clears when the buffer again holds 3,072 frames or the stream is fully fetched (R88). -/
def Player.clearLow (x : Player) : Player := { x with low := x.low && !x.ready }

/-- A position kept within the stream. -/
def Player.capped (x : Player) (n : Nat) : Nat :=
  match streamLength x.stream with
  | some len => min len n
  | none => n

/-! ## Holds -/

/-- Hold causes (R97), in the order of its table. -/
inductive HoldCause where
  | alertTier | alertAiring | latch
deriving DecidableEq, Repr

/-- The Alert Table holds an AIRING record. -/
def airingHere (s : State) : Bool := s.au.table.any fun r => r.state == .airing

/-- A hold cause is present (R97). -/
def HoldCause.stands (c : HoldCause) (s : State) : Bool :=
  match c with
  | .alertTier => s.cu.inForce == some .alert
  | .alertAiring => airingHere s
  | .latch => s.pu.holdLatch

/-- Some hold cause is present (R97). -/
def holdPresent (s : State) : Bool :=
  HoldCause.stands .alertTier s || HoldCause.stands .alertAiring s || HoldCause.stands .latch s

/-- Blocks left of a ramp. -/
def Ramp.left (r : Ramp) : Nat := r.length - r.position

/-- One player taken by a hold (R98): PLAYING enters HELD, FADING; an ENDING envelope with more than 8
blocks left is cut to 8. `airKept` is the AIR value it keeps where the seat was lost (R101). A PLAYING player whose END
block has been handed, its entry not ended yet, is taken as any other (DESIGN CHOICE, log entry 90). -/
def holdPlayer (airKept : Bool) (p : Fin 2) (s : State) : State :=
  let x := playerAt s p
  match x.state with
  | .playing =>
    givePlayerEnvelope p 0 8
      (setPlayer p
        { x with
          state := .held, phase := .fading, holdPosition := x.position, airKept := airKept
          releaseDue := false }
        (setOwnCueState p .held s))
  | .ending =>
    if 8 < (Tab.at s.me.playerEnvelope p).left then
      givePlayerEnvelope p 0 8 (setPlayer p { x with airKept := airKept } s)
    else s
  | _ => s

/-- The tags of the players that a hold takes. -/
def tagsToHold (s : State) : List Word :=
  (bothPlayers.filter fun p => (playerAt s p).state == .playing).map fun p =>
    word (heldTag (playerAt s p)).toNat

/-- PLAYERS_HELD (R98): the event that brings a hold cause about. -/
def takeHold (c : HoldCause) (airKept : Bool) (s : State) : State :=
  if s.settings.roles.playout then
    post .playersHeld (word c.ctorIdx :: tagsToHold s)
      (holdPlayer airKept 1 (holdPlayer airKept 0 s))
  else s

/-- An effect under which a hold cause may come about (R97, R98). -/
def withHold (c : HoldCause) (f : State → State) (s : State) : State :=
  let t := f s
  if HoldCause.stands c s = false ∧ HoldCause.stands c t then takeHold c false t else t

/-! ## Ending entries -/

/-- An IDLE player's record with what outlasts the entry it held: the UNDERRUN count (R85), and that a NOT_WRITTEN
completion has come since the last block start (R88). -/
def Player.cleared (x : Player) : Player := { Player.idle with underruns := x.underruns, notWritten := x.notWritten }

/-- A player made IDLE (R96, R82): it lets its clips and its fetch go; the rest of its record is as at reset (DESIGN CHOICE,
log entry 72). -/
def idlePlayer (p : Fin 2) (s : State) : State :=
  disownFetch (playerReader p) (setPlayer p (playerAt s p).cleared s)

/-- An entry's end action (R96). -/
def applyEndAction (tag : Half) (s : State) : State :=
  match cueOf s tag with
  | none => s
  | some e =>
    let rest := s.pu.cues.filter fun x => x.tag != tag
    match e.endAction with
    | .remove => { s with pu := { s.pu with cues := rest } }
    | .requeue => { s with pu := { s.pu with
        cues := rest ++ [{ e with state := .waiting, due := false, dueSince := 0 }] } }

/-- ENTRY_ENDED with the player, tag, play position and cause; an entry without a player gives none and position 0
(DESIGN CHOICE, log entry 66). -/
def postEnded (p : Option (Fin 2)) (tag : Half) (position : Nat) (c : EntryEnd) (s : State) : State :=
  post .entryEnded [wordOpt (p.map Fin.val), word tag.toNat, word position, word c.ctorIdx] s

/-- An entry ends (R96): its player becomes IDLE, and its end action applies unless it has been taken out of
the list. -/
def endEntry (p : Fin 2) (c : EntryEnd) (s : State) : State :=
  let x := playerAt s p
  let s := idlePlayer p s
  let s := if x.detached then s else applyEndAction (heldTag x) s
  postEnded (some p) (heldTag x) x.position (if x.detached then .removed else c) s

/-! ## Starting entries -/

/-- A player enters HELD, WAITING (R99): its buffer is emptied and it refills from the hold position or
from frame 0 (DEDUCED, log entry 31), once a fetch that it has asked for has come and gone (DESIGN CHOICE, log entry 81). -/
def enterWaiting (p : Fin 2) (s : State) : State :=
  let x := playerAt s p
  let fetch := match x.entry.map HeldEntry.hold with
    | some .resume => x.holdPosition
    | some .restart => 0
    | _ => x.fetchPosition
  disownFetch (playerReader p)
    (setPlayer p
      { x with
        state := .held, phase := .waiting, buffer := [], fetchPosition := fetch, airKept := false
        ended := false } s)

/-- The envelope with which a released entry resumes or restarts (R100). -/
def releaseEnvelope (p : Fin 2) (b : HoldBehaviour) (fadeIn : Nat) (s : State) : State :=
  match b with
  | .resume => givePlayerEnvelope p 4096 8 (givePlayerEnvelope p 0 0 s)
  | _ =>
    if fadeIn = 0 then givePlayerEnvelope p 4096 0 s
    else givePlayerEnvelope p 4096 fadeIn (givePlayerEnvelope p 0 0 s)

/-- A started or released player PLAYING from a position. From frame 0 it plays the stream's first clip; from
elsewhere its program gain is that of the clip it last played from (R87). -/
def Player.playFrom (x : Player) (position : Nat) (segueGiven : Bool) : Player :=
  { x with state := .playing, position := position, segueGiven := segueGiven
           part := if position = 0 then 0 else x.part
           ended := false, reload := none, releaseDue := false, airKept := false }

/-- An entry stands at the front of the list (R80, R81): PLAYING, HELD, or reloading after a release. -/
def atFront (s : State) (e : CueEntry) : Bool :=
  e.state == .playing || e.state == .held ||
    (match playerOf s e.tag with
     | some p => (playerAt s p).reload.isSome
     | none => false)

/-- A starting entry moved to stand after the last entry at the front (R80: PLAYING and HELD entries stand
before every other; DEDUCED, log entry 15). -/
def moveToFront (tag : Half) (s : State) : State :=
  match cueOf s tag with
  | none => s
  | some e =>
    if atFront s e then s
    else
      let others := s.pu.cues.filter fun x => x.tag != tag
      { s with pu := { s.pu with
          cues := others.filter (atFront s) ++ e :: others.filter fun x => !atFront s x } }

/-- A LOADED player set to play, with the envelope of its start (R92), or of its release where it had to reload (R100). A
start that no RESUME stands behind sets the hold position to 0 (DESIGN CHOICE, log entry 105). -/
def startPlayer (p : Fin 2) (fadeIn : Nat) (s : State) : State :=
  let x := playerAt s p
  match x.reload with
  | some .resume => releaseEnvelope p .resume fadeIn (setPlayer p (x.playFrom x.holdPosition x.segueGiven) s)
  | some b => releaseEnvelope p b fadeIn (setPlayer p { x.playFrom 0 false with holdPosition := 0 } s)
  | none =>
    let s := setPlayer p { x.playFrom x.position false with holdPosition := 0 } s
    if 0 < fadeIn then givePlayerEnvelope p 4096 fadeIn s else s

/-- A due entry starts on its LOADED player (R92, R100), its due-since count 0 again (DESIGN CHOICE, log entry 73); under
a hold cause it is HELD, WAITING, at once, with hold position 0. -/
def startEntry (p : Fin 2) (e : CueEntry) (s : State) : State :=
  let held := holdPresent s
  let s := startPlayer p e.fadeIn (moveToFront e.tag s)
  let s := changeCue e.tag (fun c => { c with due := false, dueSince := 0, state := .playing }) s
  let s := postIf (0 < e.dueSince) .lateStart [word e.tag.toNat, word e.dueSince] s
  let s := post .entryStarted [word p, word e.tag.toNat, wordFlag held] s
  if held then
    enterWaiting p (setOwnCueState p .held (setPlayer p { playerAt s p with holdPosition := 0 } s))
  else s

/-- A player whose entry is due and loaded starts it (R92). -/
def startIfReady (p : Fin 2) (s : State) : State :=
  let x := playerAt s p
  if x.state = .loaded ∧ x.detached = false then
    match cueOf s (heldTag x) with
    | some e => if e.due then startEntry p e s else s
    | none => s
  else s

/-- An entry comes due (R90): WAITING and LOADED entries alone; its due-since count starts from 0 (DESIGN CHOICE, log
entry 73), and it starts at once when its player is LOADED (R92). -/
def makeDue (tag : Half) (s : State) : State :=
  let s := changeCue tag (fun e =>
    if (e.state = .waiting ∨ e.state = .loaded) ∧ e.due = false then { e with due := true, dueSince := 0 }
    else e) s
  match playerOf s tag with
  | some p => startIfReady p s
  | none => s

/-- The entry immediately after one in the list. -/
def entryAfter (tag : Half) : List CueEntry → Option CueEntry
  | a :: b :: rest => if a.tag = tag then some b else entryAfter tag (b :: rest)
  | _ => none

/-- The FOLLOW entry immediately after one, if the next entry is one (R90). -/
def follower (tag : Half) (s : State) : Option Half :=
  match entryAfter tag s.pu.cues with
  | some e => if e.startMode = .follow then some e.tag else none
  | none => none

/-- The first entry that a PLAY makes due (R91). -/
def firstToPlay (s : State) : Option CueEntry :=
  s.pu.cues.find? fun e => (e.state == .waiting || e.state == .loaded) && !e.due

/-- REMOTE_START (R91, R190): PLAY without a response. -/
def remoteStart (s : State) : State :=
  match firstToPlay s with
  | some e => if s.settings.roles.playout then makeDue e.tag s else post .startIgnored [] s
  | none => post .startIgnored [] s

/-- An AT_TIME entry's time has come (R90). -/
def timeCome (now : Word) (e : CueEntry) : Bool :=
  e.startMode == .atTime && decide ((now - e.startTime).toNat < 2147483648)

/-- ENTRY_DUE_AT_TIME (R90). The time is tested afresh: an entry REQUEUEd after its time has passed is due again
(DEDUCED, log entry 63). -/
def dueAtTime (tag : Half) (s : State) : State :=
  match cueOf s tag with
  | some e => if timeCome s.clock.blockCount e then makeDue tag s else s
  | none => s

/-- SEGUE_POINT_REACHED (R93): a PLAYING entry's play position is at its segue point or beyond; the FOLLOW
entry immediately after it comes due. A stopped or removed entry gives none (R95). -/
def reachSegue (p : Fin 2) (s : State) : State :=
  let x := playerAt s p
  let there := match streamSegue x.stream with
    | some n => decide (n ≤ x.position)
    | none => false
  if (x.state = .playing ∨ x.state = .ending) ∧ x.cause = .complete ∧ x.detached = false
      ∧ x.segueGiven = false ∧ there = true then
    let s := setPlayer p { x with segueGiven := true } s
    match follower (heldTag x) s with
    | some t => makeDue t s
    | none => s
  else s

/-- PLAYER_ENDING (R94): the frames left are no more than the fade-out's blocks. -/
def beginEnding (p : Fin 2) (s : State) : State :=
  let x := playerAt s p
  let fade := (x.entry.map HeldEntry.fadeOut).getD 0
  let near := match streamLength x.stream with
    | some n => decide (n - x.position ≤ 48 * fade)
    | none => false
  if x.state = .playing ∧ x.ended = false ∧ 0 < fade ∧ x.fullyFetched ∧ near = true then
    givePlayerEnvelope p 0 fade (setPlayer p { x with state := .ending } s)
  else s

/-- An entry whose END block has been produced ends at the next block start (R94, R95, R96; DEDUCED, log entry 32). -/
def finishEnded (p : Fin 2) (s : State) : State :=
  let x := playerAt s p
  if (x.state = .playing ∨ x.state = .ending) ∧ x.ended then endEntry p x.cause s else s

/-- A player brought to ENDING by STOP or CUE REMOVE (R95). -/
def stopPlaying (p : Fin 2) (c : EntryEnd) (s : State) : State :=
  let x := playerAt s p
  givePlayerEnvelope p 0 ((x.entry.map HeldEntry.fadeOut).getD 0)
    (setPlayer p { x with state := .ending, cause := c } s)

/-- HOLD_FADE_COMPLETE (R99): the END block of a hold fade has been produced. The player enters WAITING,
unless its entry was stopped or removed meanwhile and so ends (R82, R95). -/
def completeHoldFade (p : Fin 2) (s : State) : State :=
  let x := playerAt s p
  if x.state = .held ∧ x.phase = .fading ∧ x.ended then
    if x.cause = .complete ∧ x.detached = false then enterWaiting p s else endEntry p x.cause s
  else s

/-! ## Releases -/

/-- A HELD, WAITING entry released by its hold behaviour (R100). -/
def releasePlayer (p : Fin 2) (s : State) : State :=
  let x := playerAt s p
  match x.state, x.phase, x.entry with
  | .held, .waiting, some e => match e.hold with
    | .skip =>
      let next := follower e.tag s
      let s := endEntry p .skip s
      match next with
      | some t => makeDue t s
      | none => s
    | b =>
      if x.ready then
        let x := if b = .resume then x.playFrom x.holdPosition x.segueGiven else x.playFrom 0 false
        releaseEnvelope p b e.fadeIn (setPlayer p x (setOwnCueState p .playing s))
      else
        setPlayer p { x with state := .loading, reload := some b, releaseDue := false }
          (changeOwnCue p (fun c => { c with state := .loaded, due := true, dueSince := 0 }) s)
  | _, _, _ => s

/-- A player still FADING when the count reaches 16 is marked for a later release (R100). -/
def markFading (p : Fin 2) (s : State) : State :=
  let x := playerAt s p
  if x.state = .held ∧ x.phase = .fading then setPlayer p { x with releaseDue := true } s else s

/-- A player so marked whose fade has completed is released if the count still stands at 16, and otherwise
waits for the count to reach 16 again (R100; DEDUCED, log entry 33). -/
def releaseLate (p : Fin 2) (s : State) : State :=
  let x := playerAt s p
  if x.releaseDue ∧ x.state = .held ∧ x.phase = .waiting then
    let s := setPlayer p { x with releaseDue := false } s
    if s.pu.releaseCount = 16 then releasePlayer p s else s
  else s

/-- A player is HELD. -/
def anyHeld (s : State) : Bool := bothPlayers.any fun p => (playerAt s p).state == .held

/-- PLAYERS_RELEASED (R97, R100): the release count has reached 16. -/
def releasePlayers (s : State) : State :=
  if s.pu.releaseReached then
    let s := postIf (anyHeld s) .playersReleased [] { s with pu := { s.pu with releaseReached := false } }
    releasePlayer 1 (releasePlayer 0 (markFading 1 (markFading 0 s)))
  else s

/-- The release count at a block start (R97), and the releases it brings. -/
def releaseTick (s : State) : State :=
  let n := if holdPresent s then 0 else bump 16 s.pu.releaseCount
  let reached := decide (s.pu.releaseCount < 16) && decide (n = 16)
  let s := { s with pu := { s.pu with releaseCount := n, releaseReached := reached } }
  releasePlayers (releaseLate 1 (releaseLate 0 s))

/-! ## Loading and fetching -/

/-- The load window (R86): the first two entries of the list. -/
def loadWindow (s : State) : List CueEntry := s.pu.cues.take 2

/-- An entry's source resolved into clips at a load (R87): a group turns its pointer (R78). -/
def resolveSource (src : CueSource) (s : State) : State × List (Fin 256) :=
  match src with
  | .clip c => (s, [c])
  | .group g => resolveGroup g s

/-- A clip of a stream not yet copied. -/
def StreamClip.fresh (c : Fin 256) : StreamClip := ⟨c, false, 4096, 0, .m16, 0⟩

/-- A stream with its first clip copied (R87). -/
def freshStream (s : State) : List (Fin 256) → List StreamClip
  | [] => []
  | c :: rest => copyClip s (StreamClip.fresh c) :: rest.map StreamClip.fresh

/-- A player takes an entry and loads it (R87). -/
def loadEntry (p : Fin 2) (e : CueEntry) (s : State) : State :=
  let r := resolveSource e.source s
  let s := r.1
  let stream := freshStream s r.2
  let trim := (stream.head?.map StreamClip.trim).getD 4096
  let x : Player :=
    { (playerAt s p).cleared with
      state := .loading, entry := some ⟨e.tag, e.tier, e.gain, e.fadeIn, e.fadeOut, e.hold⟩, stream := stream }
  givePlayerEnvelope p (if 0 < e.fadeIn then 0 else 4096) 0
    (giveProgramGain p (programGain trim e.gain) 0
      (setPlayer p x (changeCue e.tag (fun c => { c with state := .loaded }) (closeRequests s))))

/-- PLAYER_LOAD (R86): the first IDLE player takes the first WAITING entry of the load window. -/
def playerLoad (s : State) : State :=
  if s.settings.roles.playout then
    match bothPlayers.find? (fun p => (playerAt s p).state == .idle),
        (loadWindow s).find? (fun e => e.state == .waiting) with
    | some p, some e => loadEntry p e s
    | _, _ => s
  else s

/-- A player wants more frames (R88, R99). -/
def Player.asks (x : Player) : Bool :=
  let room := match x.state with
    | .loading => decide (x.buffer.length ≤ 6096)
    | .loaded => decide (x.buffer.length ≤ 6096)
    | .playing => decide (x.buffer.length ≤ 6096)
    | .ending => decide (x.buffer.length ≤ 6096)
    | .held =>
      x.phase == .waiting && decide (x.buffer.length < 3072)
        && ((x.entry.map HeldEntry.hold).getD .skip != .skip)
    | .idle => false
  room && !x.notWritten && streamBeyond x.stream x.fetchPosition

/-- The player once its buffer or its stream has changed: the low flag clears (R88), and a LOADING player whose buffer
is ready becomes LOADED, starting at once if its entry is due (R92). -/
def settleLoad (p : Fin 2) (s : State) : State :=
  let x := (playerAt s p).clearLow
  if x.state = .loading ∧ x.ready then startIfReady p (setPlayer p { x with state := .loaded } s)
  else setPlayer p x s

/-- A player asks the Clip Store for the frames at its fetch position (R88), copying a clip's trim and segue
point when it first asks for its frames (R87). Where the clips so copied have no frame there, the stream is fully
fetched. -/
def playerFetch (p : Fin 2) (s : State) : State :=
  let x := playerAt s p
  if x.asks ∧ hasFetch (playerReader p) s = false then
    let r := seekStream s x.stream x.fetchPosition
    let s := setPlayer p { x with stream := r.1 } s
    match r.2 with
    | some (c, f) => requestFetch (playerReader p) c f x.fetchPosition s
    | none => settleLoad p s
  else s

/-- What a fetch's completion brings to a player's record (R88). Frames for positions already passed are
discarded. -/
def Player.take (x : Player) (f : Fetch) (c : Completion) : Player :=
  match c with
  | .notWritten => { x with notWritten := true }
  | .pastEnd => { x with stream := cutStream x.stream f.place }
  | .ok frames =>
    match streamPart x.stream 0 f.place with
    | none => x
    | some (k, c, isLast) =>
      let kept := frames.take (partLength isLast c - f.frame)
      let fresh := kept.drop (x.fetchPosition - f.place)
      { x with
        buffer := x.buffer ++ fresh.map fun q => ⟨q, isMono c.format, k⟩
        fetchPosition := max x.fetchPosition (f.place + kept.length) }

/-- A fetch completes for a player (R88). One that is no longer wanted brings no frames, and its NOT_WRITTEN still keeps
the player from asking before the next block start (DESIGN CHOICE, log entry 81). -/
def playerCompletion (p : Fin 2) (f : Fetch) (c : Completion) (s : State) : State :=
  if f.live then settleLoad p (setPlayer p ((playerAt s p).take f c) s)
  else if c = .notWritten then setPlayer p { playerAt s p with notWritten := true } s
  else s

/-! ## Producing -/

/-- A player's blocks go to air (R101). -/
def playerAir (x : Player) (s : State) : Bool := s.pu.seat == .holding || x.airKept

/-- A SWEEP stream's program gain at the first block with a frame of a later clip (R87). -/
def laterClip (p : Fin 2) (x : Player) (part : Nat) (s : State) : State :=
  if x.part < part then
    match x.stream[part]?, x.entry with
    | some c, some e => giveProgramGain p (programGain c.trim e.gain) 1 s
    | _, _ => s
  else s

/-- A player produces at this block start (R85): after its END block it produces nothing further (R89). -/
def Player.produces (x : Player) : Bool :=
  !x.ended && (match x.state with
    | .playing => true
    | .ending => true
    | .held => x.phase == .fading
    | _ => false)

/-- A player short of frames before its stream's end (R89). -/
def Player.short (x : Player) : Bool := decide (x.buffer.length < 48) && !x.fullyFetched

/-- The block is the entry's last: it holds the stream's last frame, or ends a fade (R89, R94, R95, R99). -/
def Player.lastBlock (x : Player) (e : Ramp) : Bool :=
  (match streamLength x.stream with
   | some n => decide (n ≤ x.position + 48)
   | none => false)
  || (match x.state with
      | .ending => e.finishes
      | .held => e.finishes
      | _ => false)

/-- The player's record after producing a block (R89); the low flag clears where the skip of an underrun block brings the
fetch position to the stream's end (R88). -/
def Player.afterBlock (x : Player) (isLast : Bool) : Player :=
  let position := x.capped (x.position + 48)
  let frames := x.buffer.take 48
  let y : Player := { x with
    buffer := x.buffer.drop 48
    position := position
    fetchPosition := if x.short then max x.fetchPosition position else x.fetchPosition
    part := frames.foldl (fun k f => max k f.part) x.part
    underruns := if x.short then bump 65535 x.underruns else x.underruns
    underrunTold := x.underrunTold || x.short
    ended := isLast }
  y.clearLow

/-- A PLAYING player whose buffer has fallen below 1,536 frames sets its low flag (R88). -/
def noteLow (p : Fin 2) (s : State) : State :=
  let x := playerAt s p
  if x.state = .playing ∧ x.low = false ∧ x.buffer.length < 1536 ∧ x.fullyFetched = false then
    post .playerLow [word p, word (heldTag x).toNat] (setPlayer p { x with low := true } s)
  else s

/-- Every frame of a block came from a mono clip (R89); of a block with no frame held, the clip that its zeros stand
for is asked (R47; DEDUCED, log entry 57). -/
def Player.monoBlock (x : Player) (frames : List BufFrame) : Bool :=
  match frames with
  | [] => match streamPart x.stream 0 x.position with
    | some r => isMono r.2.1.format
    | none => ((x.stream[x.part]?).map fun c => isMono c.format).getD false
  | _ => frames.all BufFrame.mono

/-- A player's block at a block start (R89): the next 48 frames of its buffer under P and then E (R45). In an underrun
block the frames held are played and the rest is zero (DEDUCED, log entry 57). PLAYER_UNDERRUN tells the play position
before the block (DESIGN CHOICE, log entry 104). -/
def producePlayer (p : Fin 2) (s : State) : State × Option SourceBlock :=
  let x := playerAt s p
  if x.produces then
    let frames := x.buffer.take 48
    let s := laterClip p x (frames.foldl (fun k f => max k f.part) x.part) s
    let isLast := x.lastBlock (Tab.at s.me.playerEnvelope p)
    let air := playerAir x s
    let block : SourceBlock :=
      { air := air
        cue := !air
        mono := x.monoBlock frames
        last := isLast
        tier := (x.entry.map HeldEntry.tier).getD .playout
        tag := heldTag x
        lineUp := false
        samples := applyRamp (Tab.at s.me.playerEnvelope p)
          (applyRamp (Tab.at s.me.playerGain p) (block48 (frames.map BufFrame.pair))) }
    let s := setPlayer p (x.afterBlock isLast) s
    let s := postIf (x.short && !x.underrunTold) .playerUnderrun
      [word p, word (heldTag x).toNat, word x.position] s
    (noteLow p s, some block)
  else (s, none)

/-- At a block start the players may ask again after a NOT_WRITTEN (R88), and due entries that wait are
counted (R90). -/
def playoutTick (s : State) : State :=
  { s with pu := { s.pu with
      players := Tab.each s.pu.players fun x => { x with notWritten := false }
      cues := s.pu.cues.map fun e => if e.due then { e with dueSince := bump 65535 e.dueSince } else e } }

end Sys2Proof.Machine
end

