-- ==== Sys2Proof/Machine/Seat.lean ====
section
/-! DEFINITION. The Playout Unit's cue list commands (R80 to R84, R91, R95), the automation seat (R101 to
R104) and its host view (R105). -/

namespace Sys2Proof.Machine

/-! ## The cue list -/

/-- An entry that has left the load window while LOADED loses its player (R86, R83): the load is abandoned
and the entry is WAITING with its due flag kept. -/
def dropLoad (tag : Half) (s : State) : State :=
  match playerOf s tag with
  | some p => changeCue tag (fun e => { e with state := .waiting }) (idlePlayer p s)
  | none => s

/-- LOADED entries outside the load window lose their players (R86); one that reloads after a release
keeps its own (R100). -/
def trimWindow (s : State) : State :=
  forEach ((s.pu.cues.drop 2).filter fun e => e.state == .loaded && !atFront s e) (fun e => dropLoad e.tag) s

/-- The place after the last entry at the front of the list, counted from 1 (R81). -/
def frontPlace (s : State) (l : List CueEntry) : Nat :=
  l.length - (l.reverse.takeWhile fun e => !atFront s e).length

/-- The position that a command's position word gives in a list (R81). -/
def placeIn (s : State) (l : List CueEntry) (position : Nat) : Nat :=
  let p := if position = 0 ∨ l.length + 1 < position then l.length + 1 else position
  max p (frontPlace s l + 1)

/-- An entry put at a position counted from 1. -/
def insertAt (l : List CueEntry) (p : Nat) (e : CueEntry) : List CueEntry := l.take (p - 1) ++ e :: l.drop (p - 1)

/-- The source that a kind word and a number word name (R80, DESIGN CHOICE, log entry 14): `none` outside the set. -/
def sourceOf (kind number : Nat) : Option CueSource :=
  match kind with
  | 0 => (index? 256 number).map .clip
  | 1 => (index? 16 number).map .group
  | _ => none

/-- Start modes in code order. -/
def startModeOf : Nat → Option StartMode
  | 0 => some .follow
  | 1 => some .manual
  | 2 => some .atTime
  | _ => none

/-- The tiers a cue entry may have, by tier number (R80, DEDUCED, log entry 16). -/
def cueTierOf : Nat → Option Tier
  | 2 => some .playout
  | 3 => some .filler
  | _ => none

/-- Hold behaviours in code order. -/
def holdBehaviourOf : Nat → Option HoldBehaviour
  | 0 => some .resume
  | 1 => some .restart
  | 2 => some .skip
  | _ => none

/-- End actions in code order. -/
def endActionOf : Nat → Option EndAction
  | 0 => some .remove
  | 1 => some .requeue
  | _ => none

/-- A tag word as a tag of the list: 1 to 65,535 (R80). -/
def tagOf (w : Word) : Option Half :=
  if 1 ≤ w.toNat ∧ w.toNat ≤ 65535 then some (w.setWidth 16) else none

/-- The new entry that CUE INSERT's words describe, or `none` where one lies outside its set (R81). -/
def cueEntryOf (tag kind source startMode startTime gain fadeIn fadeOut tier hold endAction : Word) :
    Option CueEntry := do
  let t ← tagOf tag
  let src ← sourceOf kind.toNat source.toNat
  let m ← startModeOf startMode.toNat
  let ti ← cueTierOf tier.toNat
  let h ← holdBehaviourOf hold.toNat
  let a ← endActionOf endAction.toNat
  some ⟨t, src, m, startTime, min 8192 gain.toNat, min 255 fadeIn.toNat, min 255 fadeOut.toNat, ti, h, a,
    .waiting, false, 0⟩

/-- The named clip is EMPTY, or the named group is empty (R81). -/
def sourceEmpty (src : CueSource) (s : State) : Bool :=
  match src with
  | .clip c => (clipAt s c).state == .empty
  | .group g => (Tab.at s.cs.groups g).clips.isEmpty

/-- A source that is a PROTECTED clip (R81). -/
def sourceProtected : CueSource → Bool
  | .clip c => isProtected c
  | .group _ => false

/-- CUE INSERT (R81). -/
def cueInsertCommand (position tag kind source startMode startTime gain fadeIn fadeOut tier hold endAction : Word)
    (s : State) : State × Reply :=
  if !s.settings.roles.playout then refuse .notRole s
  else match cueEntryOf tag kind source startMode startTime gain fadeIn fadeOut tier hold endAction with
    | none => refuse .badParam s
    | some e =>
      if sourceProtected e.source then refuse .inUse s
      else if (cueOf s e.tag).isSome then refuse .inUse s
      else if 32 ≤ s.pu.cues.length then refuse .full s
      else if sourceEmpty e.source s then refuse .wrongState s
      else
        let p := placeIn s s.pu.cues position.toNat
        (trimWindow { s with pu := { s.pu with cues := insertAt s.pu.cues p e } }, .okWith [word p])

/-- A command that acts on the entry of a tag: NOT_ROLE at a SITE node, BAD_PARAM for a tag outside 1 to 65,535 (R80,
R194), NO_SUCH for an unknown one. -/
def onCue (tag : Word) (s : State) (act : CueEntry → State × Reply) : State × Reply :=
  if atSite s then refuse .notRole s
  else match tagOf tag with
    | none => refuse .badParam s
    | some t => match cueOf s t with
      | none => refuse .noSuch s
      | some e => act e

/-- What CUE REMOVE does to a player that holds the removed entry (R82). -/
def removeFromPlayer (p : Fin 2) (tag : Half) (s : State) : State :=
  let x := playerAt s p
  let gone (s : State) : State := postEnded (some p) tag x.position .removed (idlePlayer p s)
  let detach (y : Player) : Player := { y with detached := true, cause := .removed }
  match x.state with
  | .playing => stopPlaying p .removed (setPlayer p (detach x) s)
  | .ending => setPlayer p (detach x) s
  | .held => if x.phase = .fading then setPlayer p (detach x) s else gone s
  | _ => gone s

/-- CUE REMOVE (R82). -/
def cueRemoveCommand (tag : Word) (s : State) : State × Reply :=
  onCue tag s fun e =>
    let p := playerOf s e.tag
    let s := { s with pu := { s.pu with cues := s.pu.cues.filter fun x => x.tag != e.tag } }
    (match p with
     | some p => removeFromPlayer p e.tag s
     | none => postEnded none e.tag 0 .removed s, .only .ok)

/-- CUE MOVE (R83). -/
def cueMoveCommand (tag position : Word) (s : State) : State × Reply :=
  onCue tag s fun e =>
    if atFront s e then refuse .wrongState s
    else
      let rest := s.pu.cues.filter fun x => x.tag != e.tag
      let p := placeIn s rest position.toNat
      (trimWindow { s with pu := { s.pu with cues := insertAt rest p e } }, .okWith [word p])

/-- The trim that CUE GAIN uses (R84, R87): of a SWEEP stream's copied trims that of the clip last played from, and the
first clip's where nothing has been played since frame 0, after a release to it too (DESIGN CHOICE, log entry 116). -/
def playerTrim (x : Player) : Nat := ((x.stream[x.part]?).map StreamClip.trim).getD 4096

/-- CUE GAIN (R84). -/
def cueGainCommand (tag gain : Word) (s : State) : State × Reply :=
  onCue tag s fun e =>
    let g := min 8192 gain.toNat
    let s := changeCue e.tag (fun c => { c with gain := g }) s
    (match playerOf s e.tag with
     | some p =>
       let x := playerAt s p
       giveProgramGain p (programGain (playerTrim x) g) 1
         (setPlayer p { x with entry := x.entry.map fun h => { h with gain := g } } s)
     | none => s, .okWith [word g])

/-- PLAY (R91). -/
def playCommand (s : State) : State × Reply :=
  if !s.settings.roles.playout then refuse .notRole s
  else if s.pu.cues = [] then refuse .noSuch s
  else match firstToPlay s with
    | none => refuse .wrongState s
    | some e => (makeDue e.tag s, .okWith [word e.tag.toNat])

/-- STOP on the player of a PLAYING or HELD entry (R95). -/
def stopPlayer (p : Fin 2) (s : State) : State :=
  let x := playerAt s p
  match x.state with
  | .playing => stopPlaying p .stop s
  | .ending => setPlayer p { x with cause := .stop } s
  | .held => if x.phase = .fading then setPlayer p { x with cause := .stop } s else endEntry p .stop s
  | _ => s

/-- STOP (R95). Without the PLAYOUT role the answer is NOT_ROLE before the tag is looked at (DESIGN CHOICE, log entry
115). -/
def stopCommand (tag : Word) (s : State) : State × Reply :=
  if !s.settings.roles.playout then refuse .notRole s
  else onCue tag s fun e =>
    if e.state = .waiting ∨ e.state = .loaded then refuse .wrongState s
    else
      (match playerOf s e.tag with
       | some p => stopPlayer p s
       | none => s, .only .ok)

/-! ## The seat -/

/-- Causes of a change of seat state (R101); the manual names PEER_HOLDING and SILENCE (DESIGN CHOICE, log entry 17). -/
inductive SeatCause where
  | peerHolding | silence | noHolder | bidWon | listEmpty | yieldOver | seatReset | lineState
deriving DecidableEq, Repr

/-- A change of seat state (R101): SEAT_STATE is posted; leaving HOLDING sets the hold latch and holds the
players, which keep their AIR value through the fade; entering HOLDING clears the latch. -/
def setSeat (new : SeatState) (c : SeatCause) (s : State) : State :=
  let old := s.pu.seat
  if old = new then s
  else
    let s := post .seatState [word old.ctorIdx, word new.ctorIdx, word c.ctorIdx]
      { s with pu := { s.pu with seat := new, holdLatch := (s.pu.holdLatch || old == .holding) && new != .holding } }
    if old = .holding then takeHold .latch true s else s

/-- The announce bodies of the peers that count for the seat: PRESENT ones alone (R101), with their node
ids. -/
def presentBodies (s : State) : List (Nat × AnnounceBody) :=
  (List.finRange 8).filterMap fun k =>
    let e := Tab.at s.peers k
    if e.state = .present then e.body.map fun b => (k.val, b) else none

/-- A peer is HOLDING. -/
def peerHolding (s : State) : Bool := (presentBodies s).any fun b => b.2.seat == .holding

/-- A peer with a lower node id is in a seat state. -/
def lowerPeer (st : SeatState) (s : State) : Bool :=
  (presentBodies s).any fun b => b.2.seat == st && decide (b.1 < s.settings.nodeId.val)

/-- The own entry's last announce body. -/
def ownBody (s : State) : Option AnnounceBody := (Tab.at s.peers s.settings.nodeId).body

/-- The LINK node reports silence (R103): a PRESENT peer with the LINK role, or the SELF entry of a node
with the LINK role, has SILENCE set. -/
def linkSilent (s : State) : Bool :=
  ((presentBodies s).any fun b => b.2.roles.link && b.2.silence)
    || (s.settings.roles.link && ((ownBody s).map AnnounceBody.silence).getD false)

/-- SEAT_HOLDING (R102): the bid count has reached 64. -/
def holdSeat (s : State) : State :=
  if s.pu.seat = .bidding ∧ 64 ≤ s.pu.bidCount then setSeat .holding .bidWon s else s

/-- SEAT_YIELDED (R103): a holder that has played to air for 128 blocks while the LINK node reports
silence. -/
def yieldSeat (s : State) : State :=
  if s.pu.seat = .holding ∧ 128 ≤ s.pu.airRun ∧ linkSilent s then
    setSeat .yielded .silence { s with pu := { s.pu with yieldTimer := 0 } }
  else s

/-- YIELD_TIMER_EXPIRY (R104): the yield timer has reached 4,096. -/
def endYield (s : State) : State :=
  if s.pu.seat = .yielded ∧ 4096 ≤ s.pu.yieldTimer then setSeat .standby .yieldOver s else s

/-- The bid of a BIDDING seat at a block start (R102). -/
def bidTick (s : State) : State :=
  if peerHolding s then setSeat .standby .peerHolding s
  else if s.pu.cues = [] then setSeat .standby .listEmpty s
  else if lowerPeer .bidding s then { s with pu := { s.pu with bidCount := 0 } }
  else holdSeat { s with pu := { s.pu with bidCount := bump 64 s.pu.bidCount } }

/-- A player is PLAYING with AIR set, at a HOLDING node (R103). -/
def anyPlaying (s : State) : Bool := bothPlayers.any fun p => (playerAt s p).state == .playing

/-- A HOLDING seat at a block start (R103). -/
def holdTick (s : State) : State :=
  let s := { s with pu := { s.pu with airRun := if anyPlaying s then bump 128 s.pu.airRun else 0 } }
  if lowerPeer .holding s then setSeat .standby .peerHolding s else yieldSeat s

/-- SEAT_BIDDING (R102): a STANDBY seat that may bid and sees no holder enters BIDDING. -/
def standbyTick (s : State) : State :=
  if s.settings.seatEnable ∧ joined s ∧ s.pu.cues ≠ [] ∧ peerHolding s = false then
    setSeat .bidding .noHolder { s with pu := { s.pu with bidCount := 0 } }
  else s

/-- The seat at a block start (R102 to R104): a seat that has just been won counts its air run at once (DEDUCED,
log entry 35), and one that leaves YIELDED makes no bid test at that block start (DEDUCED, log entry 106). -/
def seatTick (s : State) : State :=
  match s.pu.seat with
  | .standby => standbyTick s
  | .bidding =>
    let s := bidTick s
    if s.pu.seat = .holding then holdTick s else s
  | .holding => holdTick s
  | .yielded => endYield { s with pu := { s.pu with yieldTimer := bump 4096 s.pu.yieldTimer } }

/-- The seat on a change out of JOINED (R104). -/
def seatLeavesLine (s : State) : State :=
  if s.settings.roles.playout then
    let s := setSeat .standby .lineState s
    { s with pu := { s.pu with bidCount := 0, yieldTimer := 0, airRun := 0 } }
  else s

/-- REJOIN at the seat (R104): STANDBY, and the hold latch set in every seat state. -/
def seatRejoins (s : State) : State :=
  if s.settings.roles.playout then
    withHold .latch (fun s => { s with pu := { s.pu with holdLatch := true } }) (seatLeavesLine s)
  else s

/-- SEAT RESET (R104). -/
def seatResetCommand (s : State) : State × Reply :=
  if !s.settings.roles.playout then refuse .notRole s
  else
    let s := if s.pu.seat = .yielded then setSeat .standby .seatReset s else s
    let s := { s with pu := { s.pu with holdLatch := false } }
    (s, .okWith [word s.pu.seat.ctorIdx])

/-! ## Host view -/

/-- A cue entry's source as two words. -/
def sourceWords : CueSource → List Word
  | .clip c => [word 0, word c]
  | .group g => [word 1, word g]

/-- A cue entry as READ CUE gives it (R105). -/
def cueWords (s : State) (e : CueEntry) : List Word :=
  [word e.tag.toNat] ++ sourceWords e.source
    ++ [word e.startMode.ctorIdx, e.startTime, word e.gain, word e.fadeIn, word e.fadeOut, word e.tier.ctorIdx,
        word e.hold.ctorIdx, word e.endAction.ctorIdx, word e.state.ctorIdx, wordFlag e.due, word e.dueSince,
        wordOpt ((playerOf s e.tag).map Fin.val)]

/-- READ CUE (R105). -/
def readCueReply (s : State) : Reply :=
  if !s.settings.roles.playout then .only .notRole
  else .okWith (word s.pu.cues.length :: s.pu.cues.flatMap (cueWords s))

/-- A stream clip as READ PLAYER gives it: trim, segue point, format and length of one not copied yet are none (DESIGN
CHOICE, log entry 91). -/
def streamWords (c : StreamClip) : List Word :=
  word c.clip :: if c.copied then [word c.trim, word c.segue, word c.format.ctorIdx, word c.length]
    else [wordNone, wordNone, wordNone, wordNone]

/-- The entry a player holds as READ PLAYER gives it, none in as many words (DESIGN CHOICE, log entry 117). -/
def heldWords : Option HeldEntry → List Word
  | some e => [word e.tag.toNat, word e.tier.ctorIdx, word e.fadeIn, word e.fadeOut, word e.hold.ctorIdx]
  | none => [wordNone, wordNone, wordNone, wordNone, wordNone]

/-- READ PLAYER's data (R105): the record of R85, the play buffer given by its number of frames, the blocks
buffered, P and E, and the UNDERRUN count (DESIGN CHOICE, log entry 18). The hold phase of a player that is not HELD is
given as none (DESIGN CHOICE, log entry 117). -/
def playerWords (p : Fin 2) (s : State) : List Word :=
  let x := playerAt s p
  [word x.state.ctorIdx, if x.state = .held then word x.phase.ctorIdx else wordNone] ++ heldWords x.entry
    ++ (word x.stream.length :: x.stream.flatMap streamWords)
    ++ [word x.position, word x.fetchPosition, word x.buffer.length, word x.holdPosition,
        wordFlag x.segueGiven, wordFlag x.low, word (x.buffer.length / 48),
        word (Tab.at s.me.playerGain p).current, word (Tab.at s.me.playerEnvelope p).current, word x.underruns]

/-- READ PLAYER (R105): the UNDERRUN count is then 0. Without the role NOT_ROLE comes before the player word is looked at
(DESIGN CHOICE, log entry 107). -/
def readPlayerCommand (player : Word) (s : State) : State × Reply :=
  if !s.settings.roles.playout then refuse .notRole s
  else match index? 2 player.toNat with
    | none => refuse .badParam s
    | some p => (setPlayer p { playerAt s p with underruns := 0 } s, .okWith (playerWords p s))

/-- READ SEAT (R105): STANDBY and zeros without the PLAYOUT role (DESIGN CHOICE, log entry 26). -/
def readSeatReply (s : State) : Reply :=
  if atSite s then .only .notRole
  else if !s.settings.roles.playout then .okWith (List.replicate 9 0)
  else .okWith [word s.pu.seat.ctorIdx, word s.pu.bidCount, word s.pu.yieldTimer, word s.pu.airRun,
    wordFlag s.pu.holdLatch, word s.pu.releaseCount, wordFlag (HoldCause.stands .alertTier s),
    wordFlag (HoldCause.stands .alertAiring s), wordFlag (HoldCause.stands .latch s)]

end Sys2Proof.Machine
end

