-- ==== Sys2Proof/Machine/Alert.lean ====
section
/-! DEFINITION. The Alert Unit: records and ranking (R131 to R134), the receiver framer and capture (R135 to
R138, R209), alerts by command and from the site (R139 to R141), ALERT frames (R142 to R145), airing (R146 to
R151), end and expiry (R152, R153), confirmation (R154) and its host view (R156). -/

namespace Sys2Proof.Machine

/-! ## Records and ranking -/

/-- A record is own-origin when its origin node is the node's own id (R131). -/
def Alert.own (a : Alert) (s : State) : Bool := a.id / 256 == s.settings.nodeId.val

/-- The record of an alert id. -/
def alertOf (s : State) (id : Nat) : Option Alert := s.au.table.find? fun r => r.id == id

/-- The record of an alert id changed. -/
def changeAlert (id : Nat) (f : Alert → Alert) (s : State) : State :=
  { s with au := { s.au with table := s.au.table.map fun r => if r.id = id then f r else r } }

/-- The Alert Unit's player changed. -/
def setAlertPlayer (x : AlertPlayer) (s : State) : State := { s with au := { s.au with player := x } }

/-- One alert ranks above another (R132): class, then age, then the lower alert id. -/
def ranksAbove (c1 : AlertClass) (age1 id1 : Nat) (c2 : AlertClass) (age2 id2 : Nat) : Bool :=
  if c1.ctorIdx = c2.ctorIdx then
    (if age1 = age2 then decide (id1 < id2) else decide (age2 < age1))
  else decide (c1.ctorIdx < c2.ctorIdx)

/-- A record ranks above another (R132). -/
def Alert.above (a b : Alert) : Bool := ranksAbove a.cls a.age a.id b.cls b.age b.id

/-- The highest-ranked of some records. -/
def highestAlert : List Alert → Option Alert
  | [] => none
  | a :: rest => some (rest.foldl (fun m b => if b.above m then b else m) a)

/-- The lowest-ranked of some records. -/
def lowestAlert : List Alert → Option Alert
  | [] => none
  | a :: rest => some (rest.foldl (fun m b => if m.above b then b else m) a)

/-- Records in rank order. -/
def rankInsert (a : Alert) : List Alert → List Alert
  | [] => [a]
  | b :: rest => if a.above b then a :: b :: rest else b :: rankInsert a rest

/-- A table's records in rank order (R156). -/
def ranked (t : List Alert) : List Alert := t.foldr rankInsert []

/-- A key is held by a record of the table. -/
def keyHeld (key : Word) (s : State) : Bool := s.au.table.any fun r => r.key == key

/-- A key is in the Recent Key List (R134). -/
def keyRecent (key : Word) (s : State) : Bool := s.au.recent.contains key

/-- A key joins the Recent Key List; a ninth displaces the oldest (R134). -/
def joinRecent (l : List Word) (key : Word) : List Word :=
  let l' := l ++ [key]
  l'.drop (l'.length - 8)

/-- The reasons with which a key joins the Recent Key List (R134). -/
def keepsKey : EndReason → Bool
  | .complete => true
  | .expired => true
  | .cancelled => true
  | _ => false

/-! ## Frames -/

/-- The body of a record's ALERT frame (R142). -/
def alertBody (r : Alert) (reason : Option EndReason) : AlertBody where
  id := r.id
  key := r.key
  origin := r.origin
  cls := r.cls
  state := r.state
  phase := r.phase
  ended := reason.isSome
  reason := reason
  repeats := r.repeats
  remaining := r.remaining
  duration := r.duration
  age := r.age
  message := r.clip.isSome || r.message
  truncated := r.truncated
  noCapture := r.noCapture

/-- A record's frame handed to the LU (R142): in JOINED alone. -/
def handAlertFrame (id : Nat) (s : State) : State :=
  match alertOf s id with
  | some r =>
    if joined s then
      handControl (.alert (alertBody r none))
        (changeAlert id (fun r => { r with sinceFrame := 0 }) s)
    else s
  | none => s

/-- An ENDED frame handed to the LU (R142, R153). -/
def handEnded (r : Alert) (reason : EndReason) (s : State) : State :=
  if joined s then handControl (.alert (alertBody r (some reason))) s else s

/-! ## Clips and the player -/

/-- A capture clip is one of clips 252 to 255 (R74). -/
def isCapture (c : Fin 256) : Bool := isProtected c

/-- A clip is the message clip of a record of the table. -/
def clipNamed (c : Fin 256) (s : State) : Bool := s.au.table.any fun r => r.clip == some c

/-- A message clip given by command or site reported to the Clip Store, which sets ALERT_ASSIGNED (R65, R139). -/
def assignClip (c : Option (Fin 256)) (s : State) : State :=
  match c with
  | some c => setClip c { clipAt s c with assigned := true } s
  | none => s

/-- A clip that an ended record held (R150, R153): a capture clip is released unless the player still holds
it, and another's ALERT_ASSIGNED is cleared when no record names it. -/
def dropRecordClip (c : Option (Fin 256)) (s : State) : State :=
  match c with
  | none => s
  | some c =>
    if isCapture c then (if s.au.player.clip = some c then s else releaseCapture c s)
    else if clipNamed c s then s
    else setClip c { clipAt s c with assigned := false } s

/-- The player gives back its clip and becomes IDLE (R149, R150): voice 0 is given back if held, and a
capture clip whose record has ended is released. Every other field but the UNDERRUN count goes back to its reset value
(DESIGN CHOICE, log entry 85). -/
def idleAlertPlayer (s : State) : State :=
  let x := s.au.player
  let s := setAlertPlayer { AlertPlayer.reset with underruns := x.underruns } s
  let s := disownFetch .alert s
  let s := if (Tab.at s.tg.voices 0).holder = some .alertUnit then releaseAttentionVoice s else s
  match x.clip with
  | some c => if isCapture c && !clipNamed c s then releaseCapture c s else s
  | none => s

/-- The alert player's envelope given a target (R43). -/
def giveAlertEnvelope (target length : Nat) (s : State) : State :=
  { s with me := { s.me with alertEnvelope := s.me.alertEnvelope.giveEnvelope target length } }

/-- An airing cut (R150). -/
def cutAiring (id : Nat) (s : State) : State :=
  let x := s.au.player
  if x.alert = some id ∧ x.state ≠ .idle then
    if x.handed = false then idleAlertPlayer s
    else if x.state = .fading then s
    else giveAlertEnvelope 0 8 (setAlertPlayer { x with cutFrom := x.state, state := .fading } s)
  else s

/-! ## Ends and admission -/

/-- ALERT_END (R153): an own-origin record ends. -/
def endAlert (id : Nat) (reason : EndReason) (s : State) : State :=
  match alertOf s id with
  | none => s
  | some r =>
    let s := { s with au := { s.au with
      table := s.au.table.filter fun x => x.id != id
      recent := if keepsKey reason then joinRecent s.au.recent r.key else s.au.recent } }
    let s := handEnded r reason s
    let s := if r.state = .airing then cutAiring id s else s
    let s := dropRecordClip r.clip s
    let s := post .alertEnded [word r.id, r.key, word (reasonCode (some reason))] s
    postIf ((reason == .complete || reason == .expired) && !r.confirmed) .alertUnconfirmed [word r.id] s

/-- A record taken out of the table without more (R143, R145). -/
def removeAlert (id : Nat) (s : State) : State :=
  { s with au := { s.au with table := s.au.table.filter fun r => r.id != id } }

/-- A displaced record (R133): an own-origin one ends with reason DISPLACED, a heard one is removed. -/
def displaceAlert (r : Alert) (admitted : Nat) (s : State) : State :=
  post .alertDisplaced [word r.id, word admitted]
    (if r.own s then endAlert r.id .displaced s else removeAlert r.id s)

/-- A record added to the table, with ALERT_NEW (R133). -/
def addAlert (r : Alert) (s : State) : State :=
  post .alertNew [word r.id, r.key, word r.cls.ctorIdx, word r.origin.ctorIdx, wordFlag (r.own s)]
    { s with au := { s.au with table := s.au.table ++ [r] } }

/-- The record that a new alert would displace from a full table (R133). -/
def toDisplace (r : Alert) (s : State) : Option Alert :=
  (lowestAlert (s.au.table.filter fun x => x.state != .airing)).filter fun x => r.above x

/-- ALERT_ADMISSION (R133): the record is added, displaces a lower record, or is not admitted. -/
def admitAlert (r : Alert) (s : State) : State × Bool :=
  if s.au.table.length < 4 then (addAlert r s, true)
  else match toDisplace r s with
    | some x => (addAlert r (displaceAlert x r.id s), true)
    | none => (s, false)

/-- The origin sequence's next value whose alert id no record holds (R136); 4 records leave one within 5. -/
def freeSeq (s : State) : Nat → Byte → Byte
  | 0, q => q
  | n + 1, q => if (alertOf s (s.settings.nodeId.val * 256 + q.toNat)).isSome then freeSeq s n (q + 1) else q

/-- The origin sequence's value for the next alert id (R136). -/
def nextSeq (s : State) : Byte := freeSeq s 5 s.au.originSeq

/-- The next alert id (R131, R136). -/
def nextAlertId (s : State) : Nat := s.settings.nodeId.val * 256 + (nextSeq s).toNat

/-- The origin sequence after the value `q` has been taken (R136): it increases by 1 and skips any value whose
alert id a record holds (DEDUCED, log entry 28). -/
def takeAlertId (q : Byte) (s : State) : State :=
  { s with au := { s.au with originSeq := freeSeq s 5 (q + 1) } }

/-- A new own-origin record (R136, R139, R141). -/
def ownAlert (s : State) (id : Nat) (key : Word) (o : OriginKind) (c : AlertClass) (duration repeats : Nat)
    (clip : Option (Fin 256)) : Alert where
  key := key
  id := id
  origin := o
  cls := c
  duration := duration
  minuteCount := 0
  repeats := repeats
  remaining := repeats
  interval := s.settings.alertInterval
  clip := clip
  message := false
  state := .pending
  phase := .attention
  phaseCount := 0
  age := 0
  truncated := false
  noCapture := false
  confirmed := false
  testWait := 0
  silence := 0
  sinceFrame := 0
  frameOwed := false

/-- ALERT_DROPPED for an own-origin alert that is not admitted (R133). -/
def dropAlert (key : Word) (c : AlertClass) (s : State) : State :=
  post .alertDropped [key, word c.ctorIdx] s

/-! ## The receiver input -/

/-- A whole receiver message: type, length, body and sum byte (R209). -/
structure ReceiverMessage where
  type : Byte
  length : Byte
  body : List Byte
  sum : Byte
deriving DecidableEq, Repr

/-- The framer waiting for the next body byte, or for the sum byte once the body is whole. -/
def framerBody (t n : Byte) (bs : List Byte) : Framer :=
  if n.toNat ≤ bs.length then .check t n bs else .body t n bs

/-- One byte into a framer (R135, R209): its next state, and the message it completes, if it does. -/
def framerStep (f : Framer) (b : Byte) : Framer × Option ReceiverMessage :=
  match f with
  | .hunt => (if b = 0x7E#8 then .header none else .hunt, none)
  | .header none => (.header (some b), none)
  | .header (some t) => (framerBody t b [], none)
  | .body t n bs => (framerBody t n (bs ++ [b]), none)
  | .check t n bs => (.hunt, some ⟨t, n, bs, b⟩)

/-- The sum of a message's bytes, modulo 256 (R209). -/
def messageSum (m : ReceiverMessage) : Byte := m.body.foldl (· + ·) (m.type + m.length + m.sum)

/-- A message that passes the tests of R135. -/
inductive ReceiverEvent where
  | begins (key : Word) (cls : AlertClass) (duration repeats : Nat)
  | ends (key : Word)
  | cancels (key : Word)
deriving DecidableEq, Repr

/-- A message tested (R135): `none` where it is discarded. -/
def readMessage (m : ReceiverMessage) : Option ReceiverEvent :=
  let key := wordAt m.body 0
  if messageSum m ≠ 0 ∨ key = 0 then none
  else match m.type.toNat, m.length.toNat with
    | 1, 8 => (classOf (byteAt m.body 4).toNat).map fun c =>
        .begins key c (clampNat 1 1440 (halfAt m.body 5).toNat) (clampNat 1 8 (byteAt m.body 7).toNat)
    | 2, 4 => some (.ends key)
    | 3, 4 => some (.cancels key)
    | _, _ => none

/-- A discarded receiver message counted (R135). -/
def receiverError (s : State) : State :=
  let n := bump 65535 s.au.errors
  postIf (!s.au.errorTold) .receiverError [word n] { s with au := { s.au with errors := n, errorTold := true } }

/-- A record's state and clip after its capture has been opened or refused (R136). -/
def openRecordCapture (id : Nat) (s : State) : State :=
  let r := openCapture s
  match r.2 with
  | some c => changeAlert id (fun a => { a with state := .capturing, clip := some c }) r.1
  | none => changeAlert id (fun a => { a with noCapture := true }) r.1

/-- A receiver BEGIN taken (R136). -/
def takeBegin (key : Word) (c : AlertClass) (duration repeats : Nat) (s : State) : State :=
  if keyHeld key s || keyRecent key s then s
  else
    let id := nextAlertId s
    let a := admitAlert (ownAlert s id key .receiver c duration repeats none) s
    if a.2 then handAlertFrame id (openRecordCapture id (takeAlertId (nextSeq s) a.1)) else dropAlert key c s

/-- The own-origin record holding a key. -/
def ownByKey (key : Word) (s : State) : Option Alert := s.au.table.find? fun r => r.key == key && r.own s

/-- ALERT_CAPTURED and the record's becoming PENDING at the close of its capture (R138). -/
def captureClosed (id : Nat) (truncated : Bool) (s : State) : State :=
  match alertOf s id with
  | none => s
  | some r =>
    let s := changeAlert id (fun a => { a with
      state := .pending, testWait := 0, truncated := a.truncated || truncated }) s
    let length := (r.clip.map fun c => (clipAt s c).length).getD 0
    handAlertFrame id (post .alertCaptured
      [word id, wordOpt (r.clip.map Fin.val), word length, wordFlag (r.truncated || truncated),
        wordFlag r.noCapture] s)

/-- A receiver END taken (R137): a CAPTURING record's capture is closed with cause END. -/
def takeEnd (key : Word) (s : State) : State :=
  match ownByKey key s with
  | some r =>
    if r.state = .capturing then
      match r.clip with
      | some c => captureClosed r.id false (closeCapture c ((clipAt s c).queued / 2) s)
      | none => s
    else s
  | none => s

/-- A receiver CANCEL taken (R137). -/
def takeCancel (key : Word) (s : State) : State :=
  match ownByKey key s with
  | some r => endAlert r.id .cancelled s
  | none => s

/-- A receiver message taken, or discarded and counted (R135). -/
def takeMessage (m : ReceiverMessage) (s : State) : State :=
  match readMessage m with
  | none => receiverError s
  | some (.begins k c d n) => takeBegin k c d n s
  | some (.ends k) => takeEnd k s
  | some (.cancels k) => takeCancel k s

/-- One byte at the receiver framer (R135); the 16-block limit runs from the start byte. -/
def receiverByte (b : Byte) (s : State) : State :=
  let r := framerStep s.au.framer b
  let blocks := if s.au.framer = .hunt then 0 else s.au.framerBlocks
  let s := { s with au := { s.au with framer := r.1, framerBlocks := blocks } }
  match r.2 with
  | some m => takeMessage m s
  | none => s

/-- Bytes reach the receiver framer, at an ALERT node (R135), and so before the first block start after configuration
(DESIGN CHOICE, log entry 111). -/
def receiverBytes (bs : List Byte) (s : State) : State :=
  if onLine s ∧ s.settings.roles.alert then forEach bs receiverByte s else s

/-- RECEIVER_TIMEOUT (R135): a message still incomplete after 16 block starts. -/
def receiverTimeout (s : State) : State :=
  if s.au.framer ≠ .hunt ∧ 16 ≤ s.au.framerBlocks then
    receiverError { s with au := { s.au with framer := .hunt, framerBlocks := 0 } }
  else s

/-- The framer's block start: the first one after the start byte counts 1 of the 16 (R135, R209; DESIGN CHOICE, log entry
122). -/
def framerTick (s : State) : State :=
  if s.au.framer = .hunt then s
  else receiverTimeout { s with au := { s.au with framerBlocks := bump 16 s.au.framerBlocks } }

/-- A block of alert-audio input as 16-bit bytes, least significant first (R138, R64). -/
def captureBytes (b : Block) : List Byte :=
  b.flatMap fun p =>
    let v : Half := BitVec.ofInt 16 (toSixteen p.1)
    [v.extractLsb' 0 8, v.extractLsb' 8 8]

/-- A CAPTURING record's block start (R138). -/
def captureTick (input : BlockInput) (id : Nat) (s : State) : State :=
  match (alertOf s id).bind Alert.clip with
  | none => s
  | some c =>
    let r := captureBlock c (captureBytes (tdmBlock input s.settings.alertAudioSlot)) s
    if r.2.isSome then captureClosed id true r.1 else r.1

/-! ## Alerts by command and from the site -/

/-- The message clip that an ALERT ISSUE names (R139): none, a clip, or a clip outside the set. -/
def issueClip (w : Word) : Option (Option (Fin 256)) :=
  if w = wordNone then some none else (index? 256 w.toNat).map some

/-- The checks of ALERT ISSUE up to admission (R139). -/
def issueRefusal (cls clip key : Word) (s : State) : Option ResultCode :=
  if atSite s then some .notRole
  else match classOf cls.toNat, issueClip clip with
    | some _, some c =>
      if (c.map isProtected).getD false then some .inUse
      else if (c.map fun x => (clipAt s x).state == .empty).getD false then some .wrongState
      else if keyHeld key s || keyRecent key s then some .inUse
      else none
    | _, _ => some .badParam

/-- ALERT ISSUE (R139). With key 0 the id is taken before the checks, and the key is made from it. -/
def alertIssueCommand (cls repeats clip key : Word) (s : State) : State × Reply :=
  let id := nextAlertId s
  let made := decide (key = 0)
  let k := if made then 0xF0000000#32 + word id else key
  let t := if made then takeAlertId (nextSeq s) s else s
  match issueRefusal cls clip k t with
  | some c => (t, .only c)
  | none =>
    let c := (issueClip clip).join
    let r := ownAlert t id k .command ((classOf cls.toNat).getD .test) t.settings.defaultDuration
      (clampNat 1 8 repeats.toNat) c
    let a := admitAlert r t
    if a.2 then
      (handAlertFrame id (assignClip c (if made then a.1 else takeAlertId (nextSeq s) a.1)), .okWith [word id, k])
    else (t, .only .full)

/-- ALERT CANCEL (R140). NO_SUCH answers every id that no record holds, one above 2,047 too (DESIGN CHOICE, log entry 121);
at a SITE node NOT_ROLE answers every id (DESIGN CHOICE, log entry 115). -/
def alertCancelCommand (id : Word) (s : State) : State × Reply :=
  if atSite s then refuse .notRole s
  else match alertOf s id.toNat with
    | none => refuse .noSuch s
    | some r => if r.own s then (endAlert r.id .cancelled s, .only .ok) else refuse .notOrigin s

/-- The site-alert clip, if it is READY or FILLING (R141). -/
def siteClip (s : State) : Option (Fin 256) :=
  s.settings.siteAlertClip.filter fun c => (clipAt s c).state != .empty

/-- A site BEGIN taken from a back frame (R141), with a key of 0 as with any other (DESIGN CHOICE, log entry 120). -/
def takeSiteBegin (key : Word) (c : AlertClass) (s : State) : State :=
  if keyHeld key s || keyRecent key s then s
  else
    let id := nextAlertId s
    let clip := siteClip s
    let a := admitAlert (ownAlert s id key .site c s.settings.defaultDuration 1 clip) s
    if a.2 then handAlertFrame id (assignClip clip (takeAlertId (nextSeq s) a.1)) else dropAlert key c s

/-- A site CANCEL taken from a back frame (R141). -/
def takeSiteCancel (key : Word) (s : State) : State :=
  match ownByKey key s with
  | some r => if r.origin = .site then endAlert r.id .cancelled s else s
  | none => s

/-- SITE_ALERT_EVENT (R141): a site END has no effect. -/
def takeSiteEvent (e : BackEvent) (s : State) : State :=
  match e.kind with
  | 1 => takeSiteBegin e.key e.cls s
  | 3 => takeSiteCancel e.key s
  | _ => s

/-! ## Frames heard -/

/-- A heard record formed from a frame (R143). -/
def heardAlert (b : AlertBody) : Alert where
  key := b.key
  id := b.id
  origin := b.origin
  cls := b.cls
  duration := b.duration
  minuteCount := 0
  repeats := b.repeats
  remaining := b.remaining
  interval := 0
  clip := none
  message := b.message
  state := b.state
  phase := b.phase
  phaseCount := 0
  age := b.age
  truncated := b.truncated
  noCapture := b.noCapture
  confirmed := false
  testWait := 0
  silence := 0
  sinceFrame := 0
  frameOwed := false

/-- A heard record that mirrors a frame (R143). -/
def Alert.mirror (a : Alert) (b : AlertBody) : Alert :=
  { a with
    cls := b.cls, state := b.state, phase := b.phase, repeats := b.repeats, remaining := b.remaining
    duration := b.duration, age := b.age, message := b.message, truncated := b.truncated
    noCapture := b.noCapture, silence := 0 }

/-- ALERT_YIELDED (R151): the node's own AIRING record yields to a higher-ranked alert that a frame reports
AIRING. -/
def yieldTest (b : AlertBody) (s : State) : State :=
  match s.au.table.find? (fun r => r.own s && r.state == .airing) with
  | some r =>
    if b.state = .airing ∧ ranksAbove b.cls b.age b.id r.cls r.age r.id then
      let s := changeAlert r.id (fun a => { a with state := .pending, testWait := 0 }) s
      post .alertYielded [word r.id, word b.id] (handAlertFrame r.id (cutAiring r.id s))
    else s
  | none => s

/-- A heard alert offered to admission, with ALERT_AIRING where it is admitted AIRING (R133, R143). -/
def admitHeard (b : AlertBody) (s : State) : State :=
  let a := admitAlert (heardAlert b) s
  if a.2 then postIf (b.state == .airing) .alertAiring [word b.id] a.1
  else { s with au := { s.au with heardDropped := bump 65535 s.au.heardDropped } }

/-- A frame whose key an own-origin record holds (R144): the lower origin node keeps the alert. -/
def settleDuplicate (r : Alert) (b : AlertBody) (s : State) : State :=
  if b.id / 256 < s.settings.nodeId.val then admitHeard b (endAlert r.id .duplicate s)
  else if s.settings.nodeId.val < b.id / 256 then handAlertFrame r.id s
  else s

/-- A frame for an alert id that no heard record holds with its key (R143; DEDUCED, log entry 48). An id that names this
node as its origin is admitted as any other where no record holds the key (DEDUCED, log entry 110). -/
def takeUnknown (b : AlertBody) (s : State) : State :=
  if keyRecent b.key s then s
  else match s.au.table.find? (fun r => r.key == b.key) with
    | some r =>
      if r.own s then settleDuplicate r b s
      else if b.id / 256 < r.id / 256 then admitHeard b (removeAlert r.id s)
      else s
    | none => admitHeard b s

/-- An ENDED frame (R143). -/
def takeEnded (b : AlertBody) (s : State) : State :=
  match alertOf s b.id with
  | none => s
  | some r =>
    if r.own s then s
    else
      let keep := (b.reason.map keepsKey).getD false
      let s := removeAlert r.id s
      post .alertEnded [word r.id, word (reasonCode b.reason)]
        { s with au := { s.au with recent := if keep then joinRecent s.au.recent r.key else s.au.recent } }

/-- What a frame that is not ENDED does to the table (R143): a heard record with its alert id and key mirrors it, with
ALERT_AIRING where it becomes AIRING. -/
def trackAlert (b : AlertBody) (s : State) : State :=
  match alertOf s b.id with
  | some r =>
    if r.own s then takeUnknown b s
    else if r.key = b.key then
      postIf (b.state == .airing && r.state != .airing) .alertAiring [word b.id]
        (changeAlert r.id (fun a => a.mirror b) s)
    else takeUnknown b (removeAlert r.id s)
  | none => takeUnknown b s

/-- An ALERT frame handed to the AU (R143). The yield test follows whatever the frame has done to the table, one that R143
or R144 disregards included (R151; DEDUCED, log entry 77). -/
def takeAlertFrame (b : AlertBody) (s : State) : State :=
  if b.ended then takeEnded b s else yieldTest b (trackAlert b s)

/-- Why a heard record is removed without an ENDED frame (R145). -/
inductive HeardEnd where
  | silent | originLost
deriving DecidableEq, Repr

/-- A heard end's word in ALERT_ENDED, after the end reasons (DESIGN CHOICE, log entry 20). -/
def HeardEnd.code : HeardEnd → Nat
  | .silent => 6
  | .originLost => 7

/-- A heard record removed with ALERT_ENDED (R145). -/
def endHeard (id : Nat) (why : HeardEnd) (s : State) : State :=
  post .alertEnded [word id, word why.code] (removeAlert id s)

/-- ALERT_SILENT_REMOVAL (R145). -/
def silentRemoval (id : Nat) (s : State) : State :=
  match alertOf s id with
  | some r => if r.own s = false ∧ 1024 ≤ r.silence then endHeard id .silent s else s
  | none => s

/-- An origin's Peer Table entry is reported LOST or ABSENT (R145): its records end in table order (DESIGN CHOICE, log
entry 87). -/
def loseOrigin (node : Fin 8) (s : State) : State :=
  forEach (s.au.table.filter fun r => !r.own s && r.id / 256 == node.val)
    (fun r => endHeard r.id .originLost) s

/-- ALERT_FRAME_REFRESH (R142): 256 block starts since the record's last frame, in JOINED. -/
def refreshFrame (id : Nat) (s : State) : State :=
  match alertOf s id with
  | some r => if r.own s ∧ joined s ∧ 256 ≤ r.sinceFrame then handAlertFrame id s else s
  | none => s

/-- The own-origin records' ids in table order, the order in which several of them hand frames (R142, R155; DESIGN CHOICE,
log entry 88). -/
def ownIds (s : State) : List Nat := (s.au.table.filter fun r => r.own s).map Alert.id

/-- Entry to JOINED at the AU (R142, R155). -/
def alertJoins (s : State) : State := forEach (ownIds s) handAlertFrame s

/-- REJOIN at the AU (R145, R155). -/
def alertRejoins (s : State) : State :=
  { s with au := { s.au with table := s.au.table.filter fun r => r.own s } }

/-- ALERT_CONFIRMED (R154): an own record's alert id is seen echoed. -/
def confirmAlert (id : Nat) (s : State) : State :=
  match alertOf s id with
  | some r =>
    if r.own s ∧ r.confirmed = false then
      post .alertConfirmed [word id] (changeAlert id (fun a => { a with confirmed := true }) s)
    else s
  | none => s

/-! ## Airing -/

/-- The highest-ranked own-origin PENDING record (R146). -/
def candidate (s : State) : Option Alert :=
  highestAlert (s.au.table.filter fun r => r.own s && r.state == .pending)

/-- The conditions of R146 other than a TEST record's. -/
def startOpen (s : State) : Bool :=
  !airingHere s && s.cu.inForce != some .alert && s.au.player.state == .idle

/-- A TEST record waits while LIVE is in force, up to 900,000 block starts (R146). -/
def testHeldBack (r : Alert) (s : State) : Bool :=
  r.cls == .test && s.cu.inForce == some .live && decide (r.testWait < 900000)

/-- A record starts airing (R146, R147): AIRING, ATTENTION; voice 0 is taken and the player enters TONE. -/
def beginAiring (r : Alert) (s : State) : State :=
  let s := changeAlert r.id (fun a => { a with state := .airing, phase := .attention, phaseCount := 0 }) s
  let s := post .alertAiring [word r.id] (handAlertFrame r.id s)
  let s := giveAlertEnvelope 4096 0 (takeAttentionVoice s)
  setAlertPlayer
    { AlertPlayer.reset with state := .tone, alert := some r.id, underruns := s.au.player.underruns } s

/-- ALERT_START (R146). -/
def startAlert (s : State) : State :=
  match candidate s with
  | some r => if startOpen s ∧ testHeldBack r s = false then beginAiring r s else s
  | none => s

/-- A start considered at a block start (R146): a TEST record held back counts its wait. -/
def startTick (s : State) : State :=
  match candidate s with
  | some r =>
    if startOpen s ∧ testHeldBack r s then changeAlert r.id (fun a => { a with testWait := a.testWait + 1 }) s
    else startAlert s
  | none => s

/-- AIRING_COMPLETE (R149): the player gives back its clip and becomes IDLE; with repeats left the record
enters INTERVAL, otherwise it ends COMPLETE (DEDUCED, log entry 21). -/
def completeAiring (id : Nat) (s : State) : State :=
  let s := idleAlertPlayer s
  match alertOf s id with
  | some r =>
    if 1 < r.remaining then
      handAlertFrame id (changeAlert id (fun a => { a with
        remaining := a.remaining - 1, state := .interval, phaseCount := 0 }) s)
    else endAlert id .complete s
  | none => s

/-- The record that the player plays for, while it is AIRING. -/
def airedRecord (s : State) : Option Alert :=
  (s.au.player.alert.bind (alertOf s)).filter fun r => r.state == .airing

/-- A message clip of length above 0 (R148). -/
def messageClip (r : Alert) (s : State) : Option (Fin 256) :=
  r.clip.filter fun c => decide (0 < (clipAt s c).length)

/-- ATTENTION_END (R147, R148): the phase becomes GAP, voice 0 is given back, and a message clip is taken. -/
def endAttention (s : State) : State :=
  match airedRecord s with
  | some r =>
    if s.au.player.state = .tone ∧ r.phase = .attention ∧ s.settings.attentionLength ≤ r.phaseCount then
      let s := changeAlert r.id (fun a => { a with phase := .gap, phaseCount := 0 }) s
      let s := setAlertPlayer { s.au.player with
        state := .silent, clip := messageClip r s, position := 0, fetchPosition := 0, buffer := [] }
        (closeRequests s)
      handAlertFrame r.id (releaseAttentionVoice s)
    else s
  | none => s

/-- GAP_END (R148): MESSAGE with a message clip; without one the airing is complete. -/
def endGap (s : State) : State :=
  match airedRecord s with
  | some r =>
    if s.au.player.state = .silent ∧ r.phase = .gap ∧ 500 ≤ r.phaseCount then
      if s.au.player.clip.isSome then
        handAlertFrame r.id (changeAlert r.id (fun a => { a with phase := .message })
          (giveAlertEnvelope 4096 0 (setAlertPlayer { s.au.player with state := .message } s)))
      else completeAiring r.id s
    else s
  | none => s

/-- INTERVAL_END (R149): the interval has passed and the record is PENDING again. -/
def endInterval (id : Nat) (s : State) : State :=
  match alertOf s id with
  | some r =>
    if r.own s ∧ r.state = .interval ∧ r.interval ≤ r.phaseCount then
      handAlertFrame id (changeAlert id (fun a => { a with state := .pending, testWait := 0 }) s)
    else s
  | none => s

/-- The clip that a player holds has been played to its last frame (R148). -/
def clipPlayedOut (clip : Option (Fin 256)) (position : Nat) (s : State) : Bool :=
  match clip with
  | some c => decide ((clipAt s c).length ≤ position)
  | none => false

/-- ALERT_FADE_COMPLETE (R150): the END block of a cut has been handed. -/
def completeAlertFade (s : State) : State :=
  let x := s.au.player
  let out := x.cutFrom == .message && (clipPlayedOut x.clip x.position s || x.fetchedAll && x.buffer.isEmpty)
  if x.state = .fading ∧ (s.me.alertEnvelope.atRest ∨ out = true) then idleAlertPlayer s else s

/-- ALERT_EXPIRED (R152): the duration has run out. -/
def expireAlert (id : Nat) (s : State) : State :=
  match alertOf s id with
  | some r =>
    if r.own s ∧ 60000 ≤ r.minuteCount ∧ r.duration ≤ 1 then endAlert id .expired s else s
  | none => s

/-- What the player hands: its own state, or what it was handing when it was cut (R150). -/
def AlertPlayer.handing (x : AlertPlayer) : AlertPlay := if x.state = .fading then x.cutFrom else x.state

/-- The player short of frames before the clip's end (R148). -/
def AlertPlayer.short (x : AlertPlayer) (length : Nat) : Bool :=
  decide (x.buffer.length < 48) && !x.fetchedAll && decide (x.fetchPosition < length)

/-- The player after handing a message block (R148, R89). -/
def AlertPlayer.afterBlock (x : AlertPlayer) (length : Nat) : AlertPlayer :=
  let position := min length (x.position + 48)
  { x with
    buffer := x.buffer.drop 48
    position := position
    fetchPosition := if x.short length then max x.fetchPosition position else x.fetchPosition
    underruns := if x.short length then bump 65535 x.underruns else x.underruns
    underrunTold := x.underrunTold || x.short length }

/-- The length of the clip the player holds. -/
def playerClipLength (s : State) : Nat := (s.au.player.clip.map fun c => (clipAt s c).length).getD 0

/-- The message block holds the clip's last frame (R148). -/
def lastMessage (s : State) : Bool :=
  let x := s.au.player
  x.handing == .message &&
    (decide (playerClipLength s ≤ x.position + 48) || (x.fetchedAll && decide (x.buffer.length ≤ 48)))

/-- The alert player's block at a block start (R147, R148, R150). In an underrun block the frames held are played and
the rest is zero (DEDUCED, log entry 57). -/
def alertBlock (s : State) : Option SourceBlock :=
  let x := s.au.player
  let mono := match x.handing with
    | .message => (x.clip.map fun c => isMono (clipAt s c).format).getD true
    | _ => true
  let raw : Block := match x.handing with
    | .tone => voiceBlock 0 s
    | .message => block48 (x.buffer.take 48)
    | _ => silence
  let gapEnds := match airedRecord s with
    | some r => x.state == .silent && x.clip.isNone && decide (500 ≤ r.phaseCount + 1)
    | none => false
  let fades := x.state == .fading && s.me.alertEnvelope.finishes
  if x.state = .idle then none
  else some
    { air := true
      cue := false
      mono := mono
      last := gapEnds || fades || lastMessage s
      tier := .alert
      tag := BitVec.ofNat 16 (x.alert.getD 0)
      lineUp := false
      samples := applyRamp s.me.alertEnvelope raw }

/-- The alert player after its block: message frames leave the buffer, the phase count of TONE and SILENT
runs, and the phase moves on (R147 to R149). ALERT_UNDERRUN tells the play position before the block (DESIGN CHOICE, log
entry 118). -/
def afterAlertBlock (s : State) : State :=
  let x := s.au.player
  let len := playerClipLength s
  let lastMsg := lastMessage s && x.state == .message
  let s := setAlertPlayer { (if x.handing = .message then x.afterBlock len else x) with handed := true } s
  let s := postIf (x.handing == .message && x.short len && !x.underrunTold) .alertUnderrun
    [word (x.alert.getD 0), word x.position] s
  match airedRecord s with
  | some r =>
    if x.state = .tone ∨ x.state = .silent then
      endGap (endAttentionFirst x (changeAlert r.id (fun a => { a with phaseCount := a.phaseCount + 1 }) s))
    else if lastMsg then completeAiring r.id s
    else s
  | none => s
where
  /-- ATTENTION ends on its own count; the GAP that follows starts from 0. -/
  endAttentionFirst (x : AlertPlayer) (s : State) : State := if x.state = .tone then endAttention s else s

/-- The alert player produces (R147). -/
def produceAlert (s : State) : State × Option SourceBlock :=
  match alertBlock s with
  | some b => (afterAlertBlock s, some b)
  | none => (s, none)

/-- The alert player asks for frames (R148). -/
def alertFetch (s : State) : State :=
  let x := s.au.player
  match x.clip with
  | some c =>
    if x.state ≠ .idle ∧ x.buffer.length ≤ 3024 ∧ x.notWritten = false ∧ x.fetchedAll = false
        ∧ x.fetchPosition < (clipAt s c).length ∧ hasFetch .alert s = false then
      requestFetch .alert c x.fetchPosition x.fetchPosition s
    else s
  | none => s

/-- A fetch completes for the alert player (R148, R88), as for a cue player where it is no longer wanted (DESIGN CHOICE, log
entry 81). -/
def alertCompletion (f : Fetch) (c : Completion) (s : State) : State :=
  let x := s.au.player
  match f.live, c with
  | _, .notWritten => setAlertPlayer { x with notWritten := true } s
  | true, .pastEnd => setAlertPlayer { x with fetchedAll := true } s
  | true, .ok frames =>
    setAlertPlayer { x with
      buffer := x.buffer ++ frames.drop (x.fetchPosition - f.place)
      fetchPosition := max x.fetchPosition (f.place + frames.length) } s
  | false, _ => s

/-! ## Block starts -/

/-- A whole minute of an own-origin record that does not end it (R152). -/
def Alert.minute (a : Alert) : Alert :=
  if 60000 ≤ a.minuteCount ∧ 1 < a.duration then { a with minuteCount := 0, duration := a.duration - 1 } else a

/-- Every record's counts at a block start (R131, R142, R145, R149, R152). -/
def Alert.tick (own : Bool) (a : Alert) : Alert :=
  let a := { a with age := bump 4294967295 a.age }
  if own then
    Alert.minute { a with
      minuteCount := a.minuteCount + 1, sinceFrame := a.sinceFrame + 1
      phaseCount := if a.state = .interval then a.phaseCount + 1 else a.phaseCount }
  else { a with silence := bump 1024 a.silence }

/-- The counts, ends and phase changes of the records at a block start, before the player's block (R137, R138, R145, R149,
R152). A record whose duration runs out ends with EXPIRED before anything else of this block start reaches it (DESIGN
CHOICE, log entry 86). Several open captures queue their blocks in table order (DESIGN CHOICE, log entry 103). -/
def alertTick (input : BlockInput) (s : State) : State :=
  let s := { s with au := { s.au with
    table := s.au.table.map fun a => a.tick (a.own s)
    player := { s.au.player with notWritten := false } } }
  let s := forEach (ownIds s) expireAlert s
  let s := forEach ((s.au.table.filter fun r => !r.own s).map Alert.id) silentRemoval s
  let s := forEach ((s.au.table.filter fun r => r.own s && r.state == .capturing).map Alert.id)
    (captureTick input) s
  forEach (ownIds s) endInterval (framerTick s)

/-- The own-origin records whose last frame was dropped unsent before this block start (R142). -/
def owedIds (s : State) : List Nat := (s.au.table.filter fun r => r.own s && r.frameOwed).map Alert.id

/-- What those records are owed is taken up at a block start in JOINED (R142): a frame dropped in the course of this
block start is owed at the next one. -/
def takeOwed (s : State) : State :=
  let clear (r : Alert) : Alert := if r.own s then { r with frameOwed := false } else r
  { s with au := { s.au with table := s.au.table.map clear } }

/-- A fresh frame for an owed record (R142), unless this block start has handed one for it already (DEDUCED, log entry
79). -/
def handOwed (id : Nat) (s : State) : State :=
  match alertOf s id with
  | some r => if r.sinceFrame = 0 then s else handAlertFrame id s
  | none => s

/-- The fresh frames owed, and the refreshes, at a block start in JOINED (R142). -/
def frameTick (owed : List Nat) (s : State) : State :=
  let s := if joined s then forEach owed handOwed s else s
  forEach (ownIds s) refreshFrame s

/-! ## Host view -/

/-- A record as READ ALERTS gives it (R156; DESIGN CHOICE, log entry 22); a field that the record does not keep shows what
State holds (DESIGN CHOICE, log entry 78). -/
def alertWords (s : State) (a : Alert) : List Word :=
  [a.key, word a.id, word a.origin.ctorIdx, word a.cls.ctorIdx, word a.duration, word a.minuteCount,
   word a.repeats, word a.remaining, word a.interval, wordOpt (a.clip.map Fin.val),
   wordFlag (a.clip.isSome || a.message), word a.state.ctorIdx, word a.phase.ctorIdx, word a.phaseCount,
   word a.age, wordFlag a.truncated, wordFlag a.noCapture, wordFlag a.confirmed, word a.testWait,
   word a.silence, wordFlag (a.own s)]

/-- A voice holder's word: 0 the Alert Unit, 1 to 3 the lines, 4 line-up, none as R210 (DESIGN CHOICE, log entry 19). -/
def holderWord : Option Holder → Word
  | none => wordNone
  | some .alertUnit => word 0
  | some (.line l) => lineWord' l
  | some .lineUp => word 4
where
  /-- The number of a line, 1 to 3. -/
  lineWord' (l : Fin 3) : Word := word (l.val + 1)

/-- READ ALERTS (R156): it then clears the counts and the reported flag. -/
def readAlertsCommand (s : State) : State × Reply :=
  if atSite s then refuse .notRole s
  else
    let x := s.au.player
    ({ s with au := { s.au with
        errors := 0, errorTold := false, heardDropped := 0, player := { x with underruns := 0 } } },
      .okWith ((word s.au.table.length :: (ranked s.au.table).flatMap (alertWords s))
        ++ (word s.au.recent.length :: s.au.recent)
        ++ [word x.state.ctorIdx, wordOpt x.alert, wordOpt (x.clip.map Fin.val), word x.position,
            word x.underruns, holderWord (Tab.at s.tg.voices 0).holder, word s.au.errors,
            word s.au.heardDropped]))

end Sys2Proof.Machine
end

