-- ==== Sys2Proof/Machine/Caller.lean ====
section
/-! DEFINITION. The Caller Unit: line records (R106 to R117), the Air Queue (R118 to R120), takes, drops,
hang-ups and requests (R121 to R127), and its host view (R130). -/

namespace Sys2Proof.Machine

/-! ## Line records -/

/-- A caller line's record. -/
def lineAt (s : State) (l : Fin 3) : CallLine := Tab.at s.ku.lines l

/-- A caller line's record replaced. -/
def setLine (l : Fin 3) (x : CallLine) (s : State) : State :=
  { s with ku := { s.ku with lines := s.ku.lines.put l x } }

/-- The number by which a line is named, 1 to 3. -/
def lineWord (l : Fin 3) : Word := word (l.val + 1)

/-- The three lines. -/
def allLines : List (Fin 3) := [0, 1, 2]

/-- The seized states (R106). -/
def seized : CallState → Bool
  | .checking => true
  | .screening => true
  | .holding => true
  | .ready => true
  | .onAir => true
  | _ => false

/-- The hook is ON in the seized states and in DEAD (R106). -/
def hookOn (st : CallState) : Bool := seized st || st == .dead

/-- Causes of a change of line state (R117); REQUEST carries the requesting node. -/
inductive LineCause where
  | host
  | request (node : Nat)
  | ring | timer | loop | check
deriving DecidableEq, Repr

/-- A cause's words: its place in R117's list, with the requesting node after REQUEST. -/
def LineCause.words : LineCause → List Word
  | .host => [word 0]
  | .request n => [word 1, word n]
  | .ring => [word 2]
  | .timer => [word 3]
  | .loop => [word 4]
  | .check => [word 5]

/-! ## The Air Queue -/

/-- The waiting time of an Air Queue entry (R118). -/
def waitingTime (now : Word) (e : AirEntry) : Nat := (now - e.stamp).toNat

/-- One entry stands before another in the Air Queue (R118): longer waiting, then owner, then line. -/
def airBefore (now : Word) (a b : AirEntry) : Bool :=
  let x := waitingTime now a
  let y := waitingTime now b
  decide (y < x) || (x == y && (decide (a.node.val < b.node.val)
    || (a.node == b.node && decide (a.line.val < b.line.val))))

/-- An entry put in its place. -/
def airInsert (now : Word) (e : AirEntry) : List AirEntry → List AirEntry
  | [] => [e]
  | x :: rest => if airBefore now e x then e :: x :: rest else x :: airInsert now e rest

/-- The Air Queue's entry for a line. -/
def airFind (node : Fin 8) (l : Fin 3) (s : State) : Option AirEntry :=
  s.ku.airQueue.find? fun e => e.node == node && e.line == l

/-- AIR_QUEUE (R119): the owner, the line, ADDED or REMOVED, and the entries after it. -/
def postAir (node : Fin 8) (l : Fin 3) (removed : Bool) (s : State) : State :=
  post .airQueue [word node, lineWord l, wordFlag removed, word s.ku.airQueue.length] s

/-- An entry added (R118, R119), at a CALLER node; each line stands in the queue at most once. -/
def airAdd (node : Fin 8) (l : Fin 3) (stamp : Word) (s : State) : State :=
  if s.settings.roles.caller ∧ airFind node l s = none then
    postAir node l false
      { s with ku := { s.ku with
          airQueue := airInsert s.clock.blockCount ⟨node, l, stamp⟩ s.ku.airQueue } }
  else s

/-- An entry removed (R119, R120). -/
def airRemove (node : Fin 8) (l : Fin 3) (s : State) : State :=
  match airFind node l s with
  | none => s
  | some _ =>
    postAir node l true
      { s with ku := { s.ku with
          airQueue := s.ku.airQueue.filter fun e => !(e.node == node && e.line == l) } }

/-- Every entry of an owner removed (R120), lines 1, 2 and 3 in ascending order (DESIGN CHOICE, log entry 84). -/
def airDropOwner (node : Fin 8) (s : State) : State := forEach allLines (airRemove node) s

/-- One line summary of a peer's announce at the Air Queue (R119). -/
def airSummary (node : Fin 8) (l : Fin 3) (x : LineSummary) (s : State) : State :=
  let stamp := s.clock.blockCount - word x.age
  if x.state = .ready then
    match airFind node l s with
    | none => airAdd node l stamp s
    | some e =>
      if waitingTime s.clock.blockCount e ≤ x.age + 24 ∨ x.age = 65535 then s
      else airAdd node l stamp (airRemove node l s)
  else airRemove node l s

/-- A peer's announce at the Air Queue, line by line (R119). -/
def airAnnounce (node : Fin 8) (b : AnnounceBody) (s : State) : State :=
  if s.settings.roles.caller then
    forEach allLines (fun l => airSummary node l (Tab.at b.lines l)) s
  else s

/-! ## Changes of line state -/

/-- A voice held or waited for let go at the exit from CHECKING (R110). -/
def releaseLineVoice (l : Fin 3) (s : State) : State :=
  let x := lineAt s l
  let none' (s : State) : State := setLine l { lineAt s l with voice := .none } s
  match x.voice with
  | .none => s
  | .waiting => withdrawRequest (.line l) (none' s)
  | .held v => giveBackVoice v (none' s)

/-- The record on entry to a state (R108 to R116): the timer starts from 0, in the states for which no rule says so too
(DESIGN CHOICE, log entry 74), the ready age starts from 0, the hook follows the state, and POOR_HYBRID is cleared on
entry to IDLE. -/
def CallLine.enter (x : CallLine) (new : CallState) : CallLine :=
  { x with state := new, hook := hookOn new, timer := 0, readyAge := 0
           poorHybrid := x.poorHybrid && new != .idle }

/-- The on-air count after a line's change of state (R115, R116). -/
def onAirAfter (n : Nat) (old new : CallState) : Nat :=
  if old = .onAir then (if new = .onAir then n else n - 1) else (if new = .onAir then n + 1 else n)

/-- A line's change of state (R117): a voice is let go on leaving CHECKING, the notice is posted with the
line, both states and the cause, the Air Queue follows READY (R120), and a channel that stops owes its END
block (R48). -/
def moveLine (l : Fin 3) (new : CallState) (k : NoticeKind) (c : LineCause) (extra : List Word) (s : State) :
    State :=
  let old := (lineAt s l).state
  let s := if old = .checking then releaseLineVoice l s else s
  let s := setLine l ((lineAt s l).enter new) s
  let s := { s with ku := { s.ku with onAir := onAirAfter s.ku.onAir old new } }
  let s := post k ([lineWord l, word old.ctorIdx, word new.ctorIdx] ++ c.words ++ extra) s
  let s := if old = .ready then airRemove s.settings.nodeId l s else s
  let s := if new = .ready then airAdd s.settings.nodeId l s.clock.blockCount s else s
  noteStop (lineSlot l) s

/-- CALL_RINGING (R108): an IDLE line whose ring level is ACTIVE enters RINGING. -/
def callRings (l : Fin 3) (s : State) : State :=
  let x := lineAt s l
  if x.state = .idle ∧ x.ring.level then moveLine l .ringing .callRinging .ring [] s else s

/-- A line's return to IDLE (R108): if its ring level is ACTIVE it enters RINGING at once. -/
def returnToIdle (l : Fin 3) (k : NoticeKind) (c : LineCause) (s : State) : State :=
  callRings l (moveLine l .idle k c [] s)

/-- CALL_ABANDONED (R108). -/
def abandonCall (l : Fin 3) (s : State) : State :=
  let x := lineAt s l
  if x.state = .ringing ∧ 8000 ≤ x.timer then returnToIdle l .callAbandoned .timer s else s

/-- LINE_DEAD_TIMEOUT (R112). -/
def endDead (l : Fin 3) (s : State) : State :=
  let x := lineAt s l
  if x.state = .dead ∧ 16 ≤ x.timer then returnToIdle l .lineState .timer s else s

/-- CLEARING_COMPLETE (R116). -/
def endClearing (l : Fin 3) (s : State) : State :=
  let x := lineAt s l
  if x.state = .clearing ∧ 500 ≤ x.timer then returnToIdle l .lineState .timer s else s

/-- CALLER_GONE (R116). -/
def loseCaller (l : Fin 3) (s : State) : State :=
  let x := lineAt s l
  if seized x.state ∧ 200 ≤ x.loopAbsent then moveLine l .clearing .callerGone .loop [] s else s

/-- The line holds a tone voice. -/
def CallLine.holdsVoice (x : CallLine) : Bool :=
  match x.voice with
  | .held _ => true
  | _ => false

/-- LINE_CHECKED (R111): the check count has reached the check length. A peak below dead_floor is DEAD even where it is
above echo_ceiling (DESIGN CHOICE, log entry 82). -/
def completeCheck (l : Fin 3) (s : State) : State :=
  let x := lineAt s l
  if x.state = .checking ∧ x.holdsVoice ∧ s.settings.checkLength ≤ x.checkCount then
    if x.checkPeak < s.settings.deadFloor then moveLine l .dead .lineDead .check [word x.checkPeak] s
    else
      let poor := decide (s.settings.echoCeiling < x.checkPeak)
      moveLine l .screening .lineChecked .check [word x.checkPeak, wordFlag poor]
        (setLine l { x with poorHybrid := poor } s)
  else s

/-- LINE_INPUT_ACCEPTED (R107, R108): a filter whose run count has reached 3 accepts its new level; a ring
acceptance makes an IDLE line ring. -/
def acceptLineInput (l : Fin 3) (c : Contact) (s : State) : State :=
  let x := lineAt s l
  match c with
  | .ring => if 3 ≤ x.ring.run then callRings l (setLine l { x with ring := x.ring.settle } s) else s
  | .loop => if 3 ≤ x.loop.run then setLine l { x with loop := x.loop.settle } s else s

/-! ## Block starts -/

/-- A line's filters take a block start's samples (R107). -/
def sampleLine (input : BlockInput) (l : Fin 3) (s : State) : State :=
  let x := lineAt s l
  let s := setLine l { x with
    ring := x.ring.count (input.ring.getD l false), loop := x.loop.count (input.loop.getD l false) } s
  acceptLineInput l .ring (acceptLineInput l .loop s)

/-- The timer of a line that was in a timed state (R108, R112, R116). -/
def timerTick (l : Fin 3) (before : CallState) (s : State) : State :=
  let x := lineAt s l
  if x.state ≠ before then s
  else match before with
    | .ringing => abandonCall l (setLine l { x with
        timer := if x.ring.level then 0 else bump 8000 x.timer } s)
    | .dead => endDead l (setLine l { x with timer := bump 8000 x.timer } s)
    | .clearing => endClearing l (setLine l { x with timer := bump 8000 x.timer } s)
    | _ => s

/-- The loop-absent count of a line that was seized (R116). -/
def loopTick (l : Fin 3) (before : CallState) (s : State) : State :=
  let x := lineAt s l
  if seized before then
    loseCaller l (setLine l { x with loopAbsent := if x.loop.level then 0 else bump 200 x.loopAbsent } s)
  else s

/-- The largest absolute value of a run of samples. -/
def samplesPeak (l : List Int) : Nat := l.foldl (fun m x => max m x.natAbs) 0

/-- The check count and peak of a line that held its voice before this block start (R110, R111). -/
def checkTick (l : Fin 3) (held : Bool) (ups : List Int) (s : State) : State :=
  let x := lineAt s l
  if held ∧ x.state = .checking ∧ x.holdsVoice then
    let n := bump 512 x.checkCount
    let len := s.settings.checkLength
    let peak := if len - len / 2 < n then max x.checkPeak (samplesPeak ups) else x.checkPeak
    completeCheck l (setLine l { x with checkCount := n, checkPeak := peak } s)
  else s

/-- The ready age of a line that was READY (R114). -/
def readyTick (l : Fin 3) (before : CallState) (s : State) : State :=
  let x := lineAt s l
  if before = .ready ∧ x.state = .ready then setLine l { x with readyAge := bump 65535 x.readyAge } s else s

/-- One line's block start: its filters, then its counts (DESIGN CHOICE, log entry 109), each by the state in which the block
start finds it. A line
whose loop-absent count and check count both end clears with CALLER_GONE (R111, R116; DEDUCED, log entry 76). -/
def lineTick (before : CallLine) (input : BlockInput) (ups : Tab (List Int) 3) (l : Fin 3) (s : State) : State :=
  let s := sampleLine input l s
  let s := timerTick l before.state s
  let s := loopTick l before.state s
  let s := checkTick l before.holdsVoice (Tab.at ups l) s
  readyTick l before.state s

/-- REQUEST_NO_ANSWER (R123): a request in SENT whose wait count has reached 32. -/
def noAnswer (tag : Half) (s : State) : State :=
  match s.ku.requests.find? (fun r => r.tag == tag) with
  | some r => if r.phase = .sent ∧ 32 ≤ r.wait then endRequest tag .noAnswer none s else s
  | none => s

/-- The pending requests at a block start (R123). -/
def requestTick (s : State) : State :=
  let s := { s with ku := { s.ku with requests := s.ku.requests.map fun r =>
    if r.phase = .sent then { r with wait := bump 32 r.wait } else r } }
  forEach (s.ku.requests.map Request.tag) noAnswer s

/-- Own READY lines return to the Air Queue at the block start after REJOIN (R120), with the ready ages that the call's state
then holds. -/
def requeueOwn (s : State) : State :=
  if s.ku.requeueOwn then
    forEach allLines (fun l s =>
        let x := lineAt s l
        if x.state = .ready then airAdd s.settings.nodeId l (s.clock.blockCount - word x.readyAge) s else s)
      { s with ku := { s.ku with requeueOwn := false } }
  else s

/-- The KU at a block start: the lines at a CALLER node, and the requests at every node on the line.
Lines 1, 2 and 3 come in ascending order, then the requests as they were made (DESIGN CHOICE, log entry 83); after REJOIN
own READY lines return once the lines have had their work (DESIGN CHOICE, log entry 93). -/
def callerTick (input : BlockInput) (ups : Tab (List Int) 3) (s : State) : State :=
  let before := s.ku.lines
  let s := if s.settings.roles.caller then
      requeueOwn (forEach allLines (fun l => lineTick (Tab.at before l) input ups l) s)
    else s
  requestTick s

/-! ## Host commands on own lines -/

/-- A line of a command (R109, R113): NOT_ROLE without the CALLER role, before BAD_PARAM for another number (R109; for R113
DESIGN CHOICE, log entry 115). -/
def ownLine (w : Word) (s : State) (act : Fin 3 → State × Reply) : State × Reply :=
  if !s.settings.roles.caller then refuse .notRole s
  else if w.toNat = 0 then refuse .badParam s
  else match index? 3 (w.toNat - 1) with
    | none => refuse .badParam s
    | some l => act l

/-- ANSWER LINE (R109). -/
def answerLineCommand (line : Word) (s : State) : State × Reply :=
  ownLine line s fun l =>
    if (lineAt s l).state ≠ .ringing then refuse .wrongState s
    else
      let s := moveLine l .checking .lineState .host [] s
      let s := setLine l { lineAt s l with
        loopAbsent := 0, checkCount := 0, checkPeak := 0, poorHybrid := false, voice := .waiting } s
      let s := setCallerSource l { Tab.at s.me.caller l with previous := 0 } s
      (requestVoice (.line l) s, .only .ok)

/-- SCREEN LINE, HOLD LINE and READY LINE (R113): a line among the three screening states moves to the one
named, or stays where it already is. -/
def screeningMove (target : CallState) (line : Word) (s : State) : State × Reply :=
  ownLine line s fun l =>
    let st := (lineAt s l).state
    if st = target then (s, .okWith [word target.ctorIdx])
    else if st = .screening ∨ st = .holding ∨ st = .ready then
      (moveLine l target .lineState .host [] s, .okWith [word target.ctorIdx])
    else refuse .wrongState s

/-! ## Takes, drops and hang-ups -/

/-- TAKE at the owner (R115). -/
def actTake (l : Fin 3) (c : LineCause) (s : State) : State × Answer :=
  if (lineAt s l).state ≠ .ready then (s, .refusedState)
  else if s.settings.maxOnAir ≤ s.ku.onAir then (s, .refusedLimit)
  else (moveLine l .onAir .lineState c [] s, .accepted)

/-- DROP at the owner (R115). -/
def actDrop (l : Fin 3) (c : LineCause) (s : State) : State × Answer :=
  if (lineAt s l).state ≠ .onAir then (s, .refusedState)
  else (moveLine l .holding .lineState c [] s, .accepted)

/-- HANG UP at the owner (R116). -/
def actHangUp (l : Fin 3) (c : LineCause) (s : State) : State × Answer :=
  if seized (lineAt s l).state then (moveLine l .clearing .lineState c [] s, .accepted)
  else (s, .refusedState)

/-- A verb's act on an own line. -/
def actOn (v : Verb) (l : Fin 3) (c : LineCause) (s : State) : State × Answer :=
  match v with
  | .take => actTake l c s
  | .drop => actDrop l c s
  | .hangUp => actHangUp l c s
  | .setRemoteOutput => (s, .refusedRole)

/-- The request tag after a value (R122): 65,535 wraps to 1. -/
def tagAfter (t : Half) : Half := if t = 0xFFFF#16 then 1 else t + 1

/-- The next request tag that no request in the list holds (R122); a list of at most 8 leaves one within 9. -/
def nextTag : Nat → List Half → Half → Half
  | 0, _, t => tagAfter t
  | n + 1, held, t => if held.contains (tagAfter t) then nextTag n held (tagAfter t) else tagAfter t

/-- A request made to a peer (R121, R122): WRONG_STATE outside JOINED, FULL with 8 in the list; otherwise it is
entered QUEUED, its frame is handed to the LU, and the answer is PENDING with its tag. -/
def makeRequest (v : Verb) (target : Fin 8) (item argument : Nat) (s : State) : State × Reply :=
  if !joined s then refuse .wrongState s
  else if 8 ≤ s.ku.requests.length then refuse .full s
  else
    let tag := s.ku.tagCounter
    let held := tag :: s.ku.requests.map Request.tag
    let s := { s with ku := { s.ku with
      requests := s.ku.requests ++ [⟨tag, v, target, item, argument, .queued, 0⟩]
      tagCounter := nextTag 9 held tag } }
    (handControl (.request ⟨v, tag, target.val, item, argument⟩) s, ⟨.pending, [word tag.toNat]⟩)

/-- The peer of a node id is PRESENT. -/
def peerPresent (k : Fin 8) (s : State) : Bool := (Tab.at s.peers k).state == .present

/-- The result code of an own act (R115, R121). -/
def answerCode : Answer → ResultCode
  | .accepted => .ok
  | .refusedState => .wrongState
  | .refusedLimit => .limit
  | .refusedRole => .notRole

/-- A verb on a line of the node itself or of a PRESENT peer (R121). -/
def actOrAsk (v : Verb) (node : Fin 8) (l : Fin 3) (s : State) : State × Reply :=
  if node = s.settings.nodeId then
    let r := actOn v l .host s
    if r.2 = .accepted then (r.1, .okWith [word (lineAt r.1 l).state.ctorIdx])
    else refuse (answerCode r.2) s
  else if peerPresent node s then makeRequest v node (l.val + 1) 0 s
  else refuse .noSuch s

/-- TAKE CALLER, DROP CALLER and HANG UP CALLER (R121). -/
def callerCommand (v : Verb) (node line : Word) (s : State) : State × Reply :=
  ownLine line s fun l =>
    match index? 8 node.toNat with
    | none => refuse .badParam s
    | some k => actOrAsk v k l s

/-- TAKE NEXT (R121): the head of the Air Queue is its target. -/
def takeNextCommand (s : State) : State × Reply :=
  if !s.settings.roles.caller then refuse .notRole s
  else match s.ku.airQueue with
    | [] => refuse .noSuch s
    | e :: _ => actOrAsk .take e.node e.line s

/-! ## Requests and answers from the line -/

/-- The line that a REQUEST's item names. -/
def requestLine (item : Nat) : Option (Fin 3) := if item = 0 then none else index? 3 (item - 1)

/-- A REQUEST judged at the owner (R124): its outcome and the line state after. -/
def judgeRequest (node : Fin 8) (r : RequestBody) (s : State) : State × Answer × Nat :=
  match requestLine r.item with
  | none => (s, .refusedRole, (Config.answerAfter r.item).toNat)
  | some l =>
    if !s.settings.roles.caller then (s, .refusedRole, (lineAt s l).state.ctorIdx)
    else
      let a := actOn r.verb l (.request node) s
      (a.1, a.2, (lineAt a.1 l).state.ctorIdx)

/-- A TAKE, DROP or HANG_UP REQUEST handed to the KU (R124, R125). -/
def takeRequest (node : Fin 8) (r : RequestBody) (s : State) : State :=
  if r.target ≠ s.settings.nodeId.val ∨ joined s = false then s
  else
    let a := judgeRequest node r s
    handControl (.answer ⟨node, r.tag, a.2.1, r.item, a.2.2⟩) a.1

/-- An ANSWER handed to the KU (R126). -/
def takeAnswer (node : Fin 8) (b : AnswerBody) (s : State) : State :=
  if b.requester ≠ s.settings.nodeId.val then s
  else match s.ku.requests.find? (fun r => r.tag == b.tag) with
    | some r =>
      if r.target = node ∧ r.phase = .sent then endRequest b.tag (.answered b.outcome) (some b.after) s else s
    | none => s

/-- An output of a REMOTE OUTPUT command: 1 to 4. -/
def outputOf (n : Nat) : Option (Fin 4) := if n = 0 then none else index? 4 (n - 1)

/-- The lowest-numbered PRESENT peer with the LINK role (R127). -/
def linkPeer (s : State) : Option (Fin 8) :=
  (List.finRange 8).find? fun k => peerPresent k s && (Tab.at s.peers k).roles.link

/-- REMOTE OUTPUT at a node without the LINK role (R127), its refusals in the order of the rule's sentences (DESIGN CHOICE,
log entry 115). -/
def askRemoteOutput (output level : Word) (s : State) : State × Reply :=
  match outputOf output.toNat with
  | none => refuse .badParam s
  | some _ => match linkPeer s with
    | none => refuse .noSuch s
    | some k => makeRequest .setRemoteOutput k output.toNat level.toNat s

/-- REJOIN at the KU (R120, R129): the Air Queue is emptied without notices and own READY lines return at the
next block start; every pending request ends NO_ANSWER, in the order in which they were made (DESIGN CHOICE, log entry
92). -/
def callerRejoins (s : State) : State :=
  forEach (s.ku.requests.map Request.tag) (fun t => endRequest t .noAnswer none)
    { s with ku := { s.ku with airQueue := [], requeueOwn := true } }

/-! ## Host view -/

/-- A line's voice field as a word: FFFF_FFFFh for NONE, 0 for WAITING, or the voice number (DESIGN CHOICE, log entry 19). -/
def voiceWord : VoiceHold → Word
  | .none => wordNone
  | .waiting => word 0
  | .held v => word v

/-- A line record as READ LINES gives it (R130); hook and levels by the places of their names (R210; DEDUCED, log entry
75). -/
def callLineWords (x : CallLine) : List Word :=
  [word x.state.ctorIdx, wordName x.hook, wordName x.ring.level, wordName x.loop.level, word x.timer,
   word x.loopAbsent, voiceWord x.voice, word x.checkCount, word x.checkPeak, wordFlag x.poorHybrid,
   word x.readyAge]

/-- READ LINES (R130). -/
def readLinesReply (s : State) : Reply :=
  if !s.settings.roles.caller then .only .notRole
  else .okWith (s.ku.lines.toList.flatMap callLineWords ++ [word s.ku.onAir, word s.settings.maxOnAir])

/-- READ AIR QUEUE (R130). -/
def readAirQueueReply (s : State) : Reply :=
  if !s.settings.roles.caller then .only .notRole
  else .okWith (word s.ku.airQueue.length :: s.ku.airQueue.flatMap fun e =>
    [word e.node, lineWord e.line, word (waitingTime s.clock.blockCount e)])

/-- READ REQUESTS (R130). -/
def readRequestsReply (s : State) : Reply :=
  if atSite s then .only .notRole
  else .okWith (word s.ku.requests.length :: s.ku.requests.flatMap fun r =>
    [word r.tag.toNat, word r.verb.ctorIdx, word r.target, word r.item, word r.argument, word r.phase.ctorIdx,
     word r.wait])

end Sys2Proof.Machine
end

