-- ==== Sys2Proof/Machine/Link.lean ====
section
/-! DEFINITION. The Transmitter Link at a LINK node: the filler players (R165, R166), forward frames (R157, R167),
back frames and the link state (R158 to R162), remote outputs (R163, R164) and the host view (R182). -/

namespace Sys2Proof.Machine

/-! ## The filler players -/

/-- Which end of the link a filler player serves. -/
inductive FillerEnd where
  | link | site
deriving DecidableEq, Repr

/-- An end's filler player. -/
def fillerAt (e : FillerEnd) (s : State) : Filler :=
  match e with
  | .link => s.link.filler
  | .site => s.site.filler

/-- An end's filler player replaced. -/
def setFiller (e : FillerEnd) (x : Filler) (s : State) : State :=
  match e with
  | .link => { s with link := { s.link with filler := x } }
  | .site => { s with site := { s.site with filler := x } }

/-- A filler player's reader at the Clip Store. -/
def fillerReader : FillerEnd → Reader
  | .link => .filler
  | .site => .siteFiller

/-- The configured filler clip, while it is READY (R165). -/
def readyFiller (s : State) : Option (Fin 256) :=
  s.settings.fillerClip.filter fun c => (clipAt s c).state == .ready

/-- FILLER_MISSING is posted when the filler clip is not READY (R165). -/
def reportMissing (s : State) : State := postIf (readyFiller s).isNone .fillerMissing [] s

/-- The filler gain given a target (R43, R166, R172). -/
def giveFillerGain (e : FillerEnd) (target length : Nat) (s : State) : State :=
  let x := fillerAt e s
  setFiller e { x with gain := x.gain.giveEnvelope target length } s

/-- A filler player enters FADING_IN (R166, R172); leaving OFF it reports a missing clip. -/
def fillerIn (e : FillerEnd) (s : State) : State :=
  let x := fillerAt e s
  let s := giveFillerGain e 4096 16 (setFiller e { x with state := .fadingIn } s)
  if x.state = .off then reportMissing (setFiller e { fillerAt e s with underrunTold := false } s) else s

/-- A filler player enters FADING_OUT (R166, R172). -/
def fillerOut (e : FillerEnd) (s : State) : State :=
  giveFillerGain e 0 16 (setFiller e { fillerAt e s with state := .fadingOut } s)

/-- A filler player enters OFF (R165): positions 0, buffer empty, not primed. -/
def fillerStop (e : FillerEnd) (s : State) : State :=
  disownFetch (fillerReader e)
    (setFiller e
      { fillerAt e s with
        state := .off, position := 0, fetchPosition := 0, buffer := [], primed := false, trimCopied := false } s)

/-- A filler player asks for frames (R165), copying the clip's trim at the first fetch of a priming. -/
def fillerFetch (e : FillerEnd) (s : State) : State :=
  let x := fillerAt e s
  match readyFiller s with
  | some c =>
    if x.buffer.length ≤ 3024 ∧ x.notWritten = false ∧ hasFetch (fillerReader e) s = false then
      let trim := if x.trimCopied then x.trim else (clipAt s c).trim
      requestFetch (fillerReader e) c x.fetchPosition x.fetchPosition
        (setFiller e { x with trim := trim, trimCopied := true } s)
    else s
  | none => s

/-- The filler clip's length. -/
def fillerLength (s : State) : Nat := (s.settings.fillerClip.map fun c => (clipAt s c).length).getD 0

/-- How many frames lie from one loop position to another, ahead of it. -/
def loopAhead (len a b : Nat) : Nat := if len = 0 then 0 else (b + len - a) % len

/-- What a completion brings to a filler player (R165): the clip loops. -/
def Filler.take (x : Filler) (len : Nat) (f : Fetch) (c : Completion) : Filler :=
  match c with
  | .notWritten => { x with notWritten := true }
  | .pastEnd => { x with fetchPosition := 0 }
  | .ok frames =>
    let skipped := loopAhead len f.place x.fetchPosition
    if skipped ≤ frames.length then
      let buffer := x.buffer ++ frames.drop skipped
      { x with
        buffer := buffer
        fetchPosition := if frames.length < 48 then 0 else f.place + frames.length
        primed := x.primed || decide (3072 ≤ buffer.length) }
    else x

/-- A fetch completes for a filler player (R165), as for a cue player where it is no longer wanted (R88; DESIGN CHOICE, log
entry 81). -/
def fillerCompletion (e : FillerEnd) (f : Fetch) (c : Completion) (s : State) : State :=
  if f.live ∨ c = .notWritten then setFiller e ((fillerAt e s).take (fillerLength s) f c) s else s

/-- A primed player short of frames (R165). -/
def Filler.short (x : Filler) : Bool := x.primed && decide (x.buffer.length < 48)

/-- A filler player after its block (R165, R89). -/
def Filler.afterBlock (x : Filler) (len : Nat) : Filler :=
  if x.primed then
    let position := if len = 0 then x.position else (x.position + 48) % len
    { x with
      buffer := x.buffer.drop 48
      position := position
      fetchPosition := if x.short then position else x.fetchPosition
      underruns := if x.short then bump 65535 x.underruns else x.underruns
      underrunTold := x.underrunTold || x.short }
  else x

/-- A filler player's block at a block start (R165): its frames under its trim; silence while it is not
primed; nothing while it is OFF. -/
def fillerBlock (x : Filler) : Block :=
  if x.state = .off ∨ x.primed = false then silence
  else applyRamp (Ramp.rest x.trim) (block48 (x.buffer.take 48))

/-- A filler player produces (R165), with FILLER_UNDERRUN at the first underrun since it left OFF. -/
def produceFiller (e : FillerEnd) (s : State) : State × Block :=
  let x := fillerAt e s
  if x.state = .off then (s, silence)
  else
    let s := setFiller e (x.afterBlock (fillerLength s)) s
    (postIf (x.short && !x.underrunTold) .fillerUnderrun [] s, fillerBlock x)

/-- The crossfade of R167 and R176 at one sample. -/
def crossfade (g a b : Int) : Int := (a * (4096 - g) + b * g + 2048) / 4096

/-- Two blocks crossfaded under the filler gain (R167). -/
def crossfadeBlocks (g : Ramp) (a b : Block) : Block :=
  (g.gains.zip (a.zip b)).map fun x => (crossfade x.1 x.2.1.1 x.2.2.1, crossfade x.1 x.2.1.2 x.2.2.2)

/-! ## The LINK node's filler -/

/-- FILLER_ON (R166): the delay count has reached filler_delay. FILLER_MISSING (R165) comes before it (DESIGN CHOICE, log
entry 97). -/
def fillerTurnsOn (s : State) : State :=
  let x := s.link.filler.state
  if (x = .off ∨ x = .fadingOut) ∧ s.settings.fillerDelay ≤ s.link.fillerDelay then
    post .fillerOn [] (fillerIn .link s)
  else s

/-- FILLER_FADE_IN_DONE (R166). -/
def fillerFadeInDone (s : State) : State :=
  let x := s.link.filler
  if x.state = .fadingIn ∧ x.gain.atRest ∧ x.gain.current = 4096 then
    setFiller .link { x with state := .on } s
  else s

/-- FILLER_OFF (R166). -/
def fillerTurnsOff (s : State) : State :=
  let x := s.link.filler
  if x.state = .fadingOut ∧ x.gain.atRest ∧ x.gain.current = 0 then post .fillerOff [] (fillerStop .link s) else s

/-- The filler's delay count and moves at a block start, after the silence monitor's decision (R166). -/
def fillerTick (s : State) : State :=
  let delay := if s.me.silent then bump s.settings.fillerDelay s.link.fillerDelay else 0
  let s := { s with link := { s.link with fillerDelay := delay } }
  let x := s.link.filler.state
  if (x = .fadingIn ∨ x = .on) ∧ s.me.silent = false then fillerOut .link s else fillerTurnsOn s

/-! ## Forward frames -/

/-- The highest-ranked AIRING record (R154, R157). -/
def airingRecord (s : State) : Option Alert := highestAlert (s.au.table.filter fun r => r.state == .airing)

/-- FORWARD_FRAME_SEND (R157, R167): one forward frame of PROGRAM and filler is formed and sent. -/
def sendForward (prog : Block) (s : State) : State :=
  let flag := s.link.filler.state != .off
  let g := s.link.filler.gain
  let r := produceFiller .link s
  let a := airingRecord s
  let frame : ForwardFrame :=
    { count := s.link.forwardCount
      samples := crossfadeBlocks g prog r.2
      levels := s.link.outputs
      alert := a.map Alert.id
      cls := a.map Alert.cls
      filler := flag
      lineUp := lineUpOn s }
  let s := r.1
  let x := s.link.filler
  { s with link := { s.link with
      forwardCount := s.link.forwardCount + 1, sent := onStream (forwardBytes frame)
      filler := { x with gain := x.gain.advance } } }

/-! ## Back frames and the link state -/

/-- A change of link state (R160): LINK_STATE; entering DOWN clears what it clears. -/
def setLink (new : LinkState) (s : State) : State :=
  let old := s.link.state
  let s := { s with link :=
    if new = .down then
      { s.link with state := new, history := [], validRun := 0, missingRun := 0, backWait := 0
                    lastSiteCount := none, echo := none }
    else { s.link with state := new } }
  post .linkState [word old.ctorIdx, word new.ctorIdx, s.clock.blockCount] s

/-- An outcome joins the back history; the oldest of 33 leaves (R159). -/
def joinHistory (l : List BackOutcome) (o : BackOutcome) : List BackOutcome :=
  let l' := l ++ [o]
  l'.drop (l'.length - 32)

/-- The history and runs after an outcome (R159). -/
def recordOutcome (o : BackOutcome) (s : State) : State :=
  let x := s.link
  { s with link := { x with
      history := joinHistory x.history o
      validRun := if o = .valid then bump 32 x.validRun else 0
      missingRun := if o = .missing then bump 16 x.missingRun else 0 } }

/-- The MISSING outcomes of the history. -/
def missingCount (l : List BackOutcome) : Nat := (l.filter fun o => o == .missing).length

/-- A VALID outcome (R159, R160): it brings a DOWN link to ACQUIRING, alone in the history. -/
def validOutcome (s : State) : State :=
  if s.link.state = .down then
    recordOutcome .valid
      (setLink .acquiring { s with link := { s.link with history := [], validRun := 0, missingRun := 0 } })
  else
    let s := recordOutcome .valid s
    match s.link.state with
    | .acquiring => if 8 ≤ s.link.validRun then setLink .up s else s
    | .degraded => if 32 ≤ s.link.validRun then setLink .up s else s
    | _ => s

/-- A MISSING outcome (R159, R160). -/
def missingOutcome (s : State) : State :=
  let s := recordOutcome .missing s
  if s.link.state = .down then s
  else if 16 ≤ s.link.missingRun then setLink .down s
  else if s.link.state = .up ∧ 4 ≤ missingCount s.link.history then setLink .degraded s
  else s

/-- BACK_FRAME_MISSING (R159): 6 block starts since the last back frame taken or declared missing. -/
def declareMissing (s : State) : State :=
  if s.link.state ≠ .down ∧ 6 ≤ s.link.backWait then
    missingOutcome { s with link := { s.link with backWait := 2 } }
  else s

/-- The back wait at a block start (R159). -/
def backTick (s : State) : State :=
  if s.link.state = .down then s
  else declareMissing { s with link := { s.link with backWait := bump 6 s.link.backWait } }

/-- Eight levels as one word, level 1 in bit 0 (DESIGN CHOICE, log entry 64). -/
def levelsWord (l : Tab Bool 8) : Word := word (levelsByte l).toNat

/-- The site report and Site Status record brought up to date (R161). -/
def takeReport (f : BackFrame) (s : State) : State :=
  let x := s.link
  let s := postIf (f.state != x.reportState) .siteState [word x.reportState.ctorIdx, word f.state.ctorIdx]
    { s with link := { x with
        reportState := f.state, reportDepth := f.depth, reportTrim := f.trim, reportPeak := f.peak } }
  let mask : Tab Bool 8 := Vector.ofFn fun i => Tab.at f.levels i != Tab.at x.status i
  if mask.toList.any id then
    post .siteStatus [levelsWord f.levels, levelsWord mask]
      { s with link := { s.link with status := f.levels, changed := mask } }
  else s

/-- The echoed alert id taken (R162); an own-origin record so echoed is confirmed (R154). -/
def takeEcho (e : Option Nat) (s : State) : State :=
  let s := { s with link := { s.link with echo := e } }
  match e with
  | some id => confirmAlert id s
  | none => s

/-- A valid back frame (R158): a repeat is disregarded, any other is taken. -/
def takeBack (f : BackFrame) (s : State) : State :=
  if s.link.lastSiteCount = some f.count then s
  else
    let s := { s with link := { s.link with lastSiteCount := some f.count, backWait := 0 } }
    let s := validOutcome s
    let s := { s with link := { s.link with forwardErrors := bumpBy 65535 f.crcCount s.link.forwardErrors } }
    let s := takeEcho f.echo (takeReport f s)
    match f.event with
    | some e => takeSiteEvent e s
    | none => s

/-- A back frame discarded for its CRC or its length (R158). -/
def backError (s : State) : State := { s with link := { s.link with backErrors := bump 65535 s.link.backErrors } }

/-- What the receiver of the back stream comes to (R158, R208). -/
def backFound (x : LinkFound) (s : State) : State :=
  match x with
  | .wrongLength => backError s
  | .frame bytes => match parseBack bytes with
    | none => backError s
    | some f => takeBack f s

/-- BACK_FRAME_RECEIVED (R158, R208), at a LINK node: bytes of the back stream (DEDUCED, log entry 67). -/
def receiveBack (bytes : List Byte) (s : State) : State :=
  if onLine s ∧ s.settings.roles.link then
    let r := linkScan 25 s.link.stream bytes
    forEach r.2 backFound { s with link := { s.link with stream := r.1 } }
  else s

/-! ## Remote outputs -/

/-- A level of the Remote Output record set (R163), with its source: FFFF_FFFFh for HOST, or the requesting
node (DESIGN CHOICE, log entry 19). -/
def setOutput (o : Fin 4) (level : Nat) (source : Word) (s : State) : State :=
  let v := min 255 level
  post .remoteOutputSet [word (o.val + 1), word v, source]
    { s with link := { s.link with outputs := s.link.outputs.put o v } }

/-- REMOTE OUTPUT (R163, R127): at a LINK node at once, at a SITE node refused before the output is looked at (DESIGN CHOICE,
log entry 108), elsewhere a request. -/
def remoteOutputCommand (output level : Word) (s : State) : State × Reply :=
  if atSite s then refuse .notRole s
  else if s.settings.roles.link then
    match outputOf output.toNat with
    | none => refuse .badParam s
    | some o => (setOutput o level.toNat wordNone s, .okWith [word (min 255 level.toNat)])
  else askRemoteOutput output level s

/-- A SET_REMOTE_OUTPUT REQUEST judged (R164): its outcome and the level after. -/
def judgeOutput (node : Fin 8) (r : RequestBody) (s : State) : State × Answer × Nat :=
  match outputOf r.item with
  | none => (s, .refusedRole, (Config.answerAfter r.item).toNat)
  | some o =>
    if s.settings.roles.link then
      let s := setOutput o r.argument (word node) s
      (s, .accepted, Tab.at s.link.outputs o)
    else (s, .refusedRole, Tab.at s.link.outputs o)

/-- A SET_REMOTE_OUTPUT REQUEST handed to the XU (R164). -/
def takeOutputRequest (node : Fin 8) (r : RequestBody) (s : State) : State :=
  if r.target ≠ s.settings.nodeId.val ∨ joined s = false then s
  else
    let a := judgeOutput node r s
    handControl (.answer ⟨node, r.tag, a.2.1, r.item, a.2.2⟩) a.1

/-! ## Host view -/

/-- READ LINK's data at a LINK node (R182). -/
def linkWords (s : State) : List Word :=
  let x := s.link
  [word x.state.ctorIdx, word x.history.length] ++ x.history.map (fun o => word o.ctorIdx)
    ++ [word x.validRun, word x.missingRun, word x.backWait, word x.reportState.ctorIdx, word x.reportDepth,
        wordInt x.reportTrim, word x.reportPeak]
    ++ x.status.toList.map wordName ++ x.changed.toList.map wordFlag ++ [wordOpt x.echo]
    ++ x.outputs.toList.map word
    ++ [word x.forwardCount.toNat, word x.filler.state.ctorIdx, word x.filler.gain.current,
        word x.filler.underruns, word x.fillerDelay, word x.forwardErrors, word x.backErrors]

/-- READ LINK's counts cleared at a LINK node (R182). -/
def clearLink (s : State) : State :=
  { s with link := { s.link with
      forwardErrors := 0, backErrors := 0, filler := { s.link.filler with underruns := 0 } } }

end Sys2Proof.Machine
end

