-- ==== Sys2Proof/Machine/Site.lean ====
section
/-! DEFINITION. The Transmitter Link at a SITE node: the feed (R169 to R173), the clock trim (R174), back frames
(R175), the output (R176, R177), the status filters (R178), site alerts (R179 to R181) and READ LINK (R182). -/

namespace Sys2Proof.Machine

/-! ## Site alerts -/

/-- Kinds of change that SITE_ALERT tells (R179 to R181), numbered in this order (DESIGN CHOICE, log entry 20). -/
inductive SiteChange where
  | admitted | refused | displaced | removed | relayDropped | airing | aired | cut
deriving DecidableEq, Repr

/-- SITE_ALERT (R179). -/
def postSite (key : Word) (c : AlertClass) (k : SiteChange) (s : State) : State :=
  post .siteAlert [key, word c.ctorIdx, word k.ctorIdx] s

/-- The SITE end's alert player replaced. -/
def setSitePlayer (x : SitePlayer) (s : State) : State := { s with site := { s.site with player := x } }

/-- One site alert record ranks above another (R179): class, then age, then the lower key. -/
def SiteAlert.above (a b : SiteAlert) : Bool := ranksAbove a.cls a.age a.key.toNat b.cls b.age b.key.toNat

/-- The lowest-ranked of some site alert records. -/
def lowestSite : List SiteAlert → Option SiteAlert
  | [] => none
  | a :: rest => some (rest.foldl (fun m b => if m.above b then b else m) a)

/-- The highest-ranked of some site alert records. -/
def highestSite : List SiteAlert → Option SiteAlert
  | [] => none
  | a :: rest => some (rest.foldl (fun m b => if b.above m then b else m) a)

/-- A record put in its place by rank. -/
def rankSite (a : SiteAlert) : List SiteAlert → List SiteAlert
  | [] => [a]
  | b :: rest => if a.above b then a :: b :: rest else b :: rankSite a rest

/-- The filler envelope given a target (R181). -/
def giveFillerEnvelope (target length : Nat) (s : State) : State :=
  let x := s.site.filler
  setFiller .site { x with envelope := x.envelope.giveEnvelope target length } s

/-- The site alert player's airing is over (R181): voice 0 and the clip are given back, the player is IDLE and
the filler returns. Every other field but the envelope goes back to its reset value (DESIGN CHOICE, log entry 85). -/
def idleSitePlayer (k : SiteChange) (s : State) : State :=
  let x := s.site.player
  let s := disownFetch .siteAlert (setSitePlayer { SitePlayer.reset with envelope := x.envelope } s)
  let s := if (Tab.at s.tg.voices 0).holder = some .alertUnit then releaseAttentionVoice s else s
  postSite (x.key.getD 0) x.cls k (giveFillerEnvelope 4096 8 s)

/-- The site alert player's envelope given a target. -/
def giveSiteEnvelope (target length : Nat) (s : State) : State :=
  let x := s.site.player
  setSitePlayer { x with envelope := x.envelope.giveEnvelope target length } s

/-- A local airing cut (R181, R150). -/
def cutSiteAiring (s : State) : State :=
  let x := s.site.player
  match x.state with
  | .idle => s
  | .fading => s
  | _ =>
    if x.handed = false then idleSitePlayer .cut s
    else giveSiteEnvelope 0 8 (setSitePlayer { x with cutFrom := x.state, state := .fading } s)

/-- The site alert list's record of a key. -/
def siteAlertOf (s : State) (key : Word) : Option SiteAlert := s.site.alerts.find? fun r => r.key == key

/-- The site alert player is airing a key (R179), until it is IDLE (DESIGN CHOICE, log entry 98). -/
def siteAiring (key : Word) (s : State) : Bool := s.site.player.state != .idle && s.site.player.key == some key

/-- A record leaves the site alert list; its airing is cut (R179). -/
def dropSiteAlert (key : Word) (s : State) : State :=
  let s := { s with site := { s.site with alerts := s.site.alerts.filter fun r => r.key != key } }
  if siteAiring key s then cutSiteAiring s else s

/-- A removal by CANCEL or by expiry (R179): the key joins the site recent keys, of which the last 4 are
kept. -/
def removeSiteAlert (r : SiteAlert) (s : State) : State :=
  let l := s.site.recent ++ [r.key]
  postSite r.key r.cls .removed
    (dropSiteAlert r.key { s with site := { s.site with recent := l.drop (l.length - 4) } })

/-- An event relayed toward the studio (R180). -/
def relayEvent (k : SiteEventKind) (key : Word) (c : AlertClass) (s : State) : State :=
  if s.site.relay.length < 4 then
    { s with site := { s.site with relay := s.site.relay ++ [⟨k, key, c, 0⟩] } }
  else postSite key c .relayDropped s

/-- A site record added to the list. -/
def addSiteAlert (r : SiteAlert) (s : State) : State :=
  postSite r.key r.cls .admitted { s with site := { s.site with alerts := s.site.alerts ++ [r] } }

/-- Admission to the site alert list (R179), as R133 admits, against the lowest record that is not airing. -/
def admitSiteAlert (r : SiteAlert) (s : State) : State :=
  if s.site.alerts.length < 4 then addSiteAlert r s
  else match (lowestSite (s.site.alerts.filter fun x => !siteAiring x.key s)).filter fun x => r.above x with
    | some x => addSiteAlert r (postSite x.key x.cls .displaced (dropSiteAlert x.key s))
    | none => postSite r.key r.cls .refused s

/-- A site BEGIN (R179). -/
def takeSiteMessage (key : Word) (c : AlertClass) (duration : Nat) (s : State) : State :=
  if (siteAlertOf s key).isSome || s.site.recent.contains key then s
  else admitSiteAlert ⟨key, c, duration, 0, 0, false⟩ (relayEvent .start key c s)

/-- A site CANCEL (R179). A CANCEL message carries no class: the relayed event takes the record's, and
without a record a free one (DESIGN CHOICE, log entry 23). -/
def cancelSiteMessage (key : Word) (s : State) : State :=
  if s.site.recent.contains key then s
  else match siteAlertOf s key with
    | some r => removeSiteAlert r (relayEvent .cancel key r.cls s)
    | none => relayEvent .cancel key ((classOf (Config.cancelClass key).val).getD .test) s

/-- A failed message at the site framer (R179). -/
def siteReceiverError (s : State) : State :=
  let n := bump 65535 s.site.errors
  postIf (!s.site.errorTold) .receiverError [word n]
    { s with site := { s.site with errors := n, errorTold := true } }

/-- A receiver message at the site (R179): an END has no effect. -/
def siteMessage (m : ReceiverMessage) (s : State) : State :=
  match readMessage m with
  | none => siteReceiverError s
  | some (.begins k c d _) => takeSiteMessage k c d s
  | some (.ends _) => s
  | some (.cancels k) => cancelSiteMessage k s

/-- One byte at the site framer (R179, R135). -/
def siteByte (b : Byte) (s : State) : State :=
  let r := framerStep s.site.framer b
  let blocks := if s.site.framer = .hunt then 0 else s.site.framerBlocks
  let s := { s with site := { s.site with framer := r.1, framerBlocks := blocks } }
  match r.2 with
  | some m => siteMessage m s
  | none => s

/-- Bytes reach the site framer, at a SITE node (R179). -/
def siteBytes (bs : List Byte) (s : State) : State := if atSite s then forEach bs siteByte s else s

/-- A site message still incomplete after 16 block starts (R135, R179), counted as in the studio (DESIGN CHOICE, log entry
122). -/
def siteFramerTick (s : State) : State :=
  if s.site.framer = .hunt then s
  else
    let n := bump 16 s.site.framerBlocks
    if 16 ≤ n then siteReceiverError { s with site := { s.site with framer := .hunt, framerBlocks := 0 } }
    else { s with site := { s.site with framerBlocks := n } }

/-- SITE_ALERT_EXPIRY (R179). -/
def expireSiteAlert (key : Word) (s : State) : State :=
  match siteAlertOf s key with
  | some r => if 60000 ≤ r.minuteCount ∧ r.duration ≤ 1 then removeSiteAlert r s else s
  | none => s

/-- A site alert record's counts at a site block start (R179). -/
def SiteAlert.tick (r : SiteAlert) : SiteAlert :=
  let r := { r with age := bump 4294967295 r.age, minuteCount := r.minuteCount + 1 }
  if 60000 ≤ r.minuteCount ∧ 1 < r.duration then { r with minuteCount := 0, duration := r.duration - 1 } else r

/-- The site alert list at a site block start (R179). -/
def siteAlertTick (s : State) : State :=
  let s := { s with site := { s.site with alerts := s.site.alerts.map SiteAlert.tick } }
  forEach (s.site.alerts.map SiteAlert.key) expireSiteAlert s

/-! ## The site alert player -/

/-- SITE_ALERT_AIRING (R181): away from FEEDING an IDLE player starts the highest-ranked record whose aired
flag is clear. -/
def startSiteAlert (s : State) : State :=
  match highestSite (s.site.alerts.filter fun r => !r.aired) with
  | some r =>
    if s.site.state ≠ .feeding ∧ s.site.player.state = .idle then
      let s := takeAttentionVoice s
      let s := setSitePlayer
        { SitePlayer.reset with state := .tone, key := some r.key, cls := r.cls } s
      postSite r.key r.cls .airing (giveFillerEnvelope 0 8 s)
    else s
  | none => s

/-- SITE_ALERT_AIRED (R181): the airing is complete and the record's aired flag is set. -/
def completeSiteAiring (s : State) : State :=
  let mark (r : SiteAlert) : SiteAlert :=
    if some r.key = s.site.player.key then { r with aired := true } else r
  idleSitePlayer .aired { s with site := { s.site with alerts := s.site.alerts.map mark } }

/-- The site-alert clip, if it is READY with a length above 0 (R181). -/
def siteMessageClip (s : State) : Option (Fin 256) :=
  s.settings.siteAlertClip.filter fun c => (clipAt s c).state == .ready && decide (0 < (clipAt s c).length)

/-- SITE_ATTENTION_END (R181, R147, R148). -/
def endSiteAttention (s : State) : State :=
  let x := s.site.player
  if x.state = .tone ∧ s.settings.attentionLength ≤ x.phaseCount then
    releaseAttentionVoice
      (setSitePlayer
        { x with
          state := .silent, phaseCount := 0, clip := siteMessageClip s, position := 0, fetchPosition := 0
          buffer := [] } (closeRequests s))
  else s

/-- SITE_GAP_END (R181, R148). -/
def endSiteGap (s : State) : State :=
  let x := s.site.player
  if x.state = .silent ∧ 500 ≤ x.phaseCount then
    if x.clip.isSome then giveSiteEnvelope 4096 0 (setSitePlayer { x with state := .message } s)
    else completeSiteAiring s
  else s

/-- The length of the clip the site alert player holds. -/
def siteClipLength (s : State) : Nat := (s.site.player.clip.map fun c => (clipAt s c).length).getD 0

/-- What the site alert player hands (R181, R150). -/
def SitePlayer.handing (x : SitePlayer) : AlertPlay := if x.state = .fading then x.cutFrom else x.state

/-- The site alert player has played its clip to the last frame. -/
def sitePlayedOut (s : State) : Bool :=
  let x := s.site.player
  x.handing == .message
    && (decide (siteClipLength s ≤ x.position) || (x.fetchedAll && x.buffer.isEmpty))

/-- SITE_ALERT_CUT_DONE (R181): the cut's END block has been handed. -/
def completeSiteCut (s : State) : State :=
  let x := s.site.player
  if x.state = .fading ∧ (x.envelope.atRest ∨ sitePlayedOut s) then idleSitePlayer .cut s else s

/-- The site alert player short of frames before its clip's end. -/
def SitePlayer.short (x : SitePlayer) (length : Nat) : Bool :=
  decide (x.buffer.length < 48) && !x.fetchedAll && decide (x.fetchPosition < length)

/-- The site alert player after a message block (R148, R89). -/
def SitePlayer.afterBlock (x : SitePlayer) (length : Nat) : SitePlayer :=
  let position := min length (x.position + 48)
  { x with
    buffer := x.buffer.drop 48
    position := position
    fetchPosition := if x.short length then max x.fetchPosition position else x.fetchPosition }

/-- The one sample that both sides take (R176): free where a clip frame's sides differ (DESIGN CHOICE, log entry 24). -/
def oneSample (p : Pair) : Int := if p.1 = p.2 then p.1 else (Config.siteAlertSample p.1 p.2).toInt

/-- The site alert player's samples for one block (R181), the same on both sides; silence while IDLE. -/
def siteAlertBlock (s : State) : Block :=
  let x := s.site.player
  let raw : Block := match x.handing with
    | .tone => voiceBlock 0 s
    | .message => (block48 (x.buffer.take 48)).map fun p => (oneSample p, oneSample p)
    | _ => silence
  applyRamp x.envelope raw

/-- The site alert player after its block: its counts, and the phase or airing that ends with it (R181). A block short of
frames is neither counted nor told (DESIGN CHOICE, log entry 95). -/
def afterSiteBlock (s : State) : State :=
  let x := s.site.player
  let x := { (if x.handing = .message then x.afterBlock (siteClipLength s) else x) with
    handed := true, phaseCount := if x.state = .tone ∨ x.state = .silent then x.phaseCount + 1 else x.phaseCount }
  let s := setSitePlayer x s
  match x.state with
  | .tone => endSiteAttention s
  | .silent => endSiteGap s
  | .message => if sitePlayedOut s then completeSiteAiring s else s
  | _ => s

/-- The site alert player produces at a site block start, and a cut that has faded out is done (R181). -/
def produceSiteAlert (s : State) : State × Block :=
  if s.site.player.state = .idle then (s, silence)
  else
    let b := siteAlertBlock s
    let s := afterSiteBlock s
    let x := s.site.player
    (completeSiteCut (setSitePlayer { x with envelope := x.envelope.advance } s), b)

/-- The site alert player asks for frames (R181, R148). -/
def siteAlertFetch (s : State) : State :=
  let x := s.site.player
  match x.clip with
  | some c =>
    if x.state ≠ .idle ∧ x.buffer.length ≤ 3024 ∧ x.notWritten = false ∧ x.fetchedAll = false
        ∧ x.fetchPosition < (clipAt s c).length ∧ hasFetch .siteAlert s = false then
      requestFetch .siteAlert c x.fetchPosition x.fetchPosition s
    else s
  | none => s

/-- A fetch completes for the site alert player (R181, R88), as for a cue player where it is no longer wanted (DESIGN CHOICE,
log entry 81). -/
def siteAlertCompletion (f : Fetch) (c : Completion) (s : State) : State :=
  let x := s.site.player
  match f.live, c with
  | _, .notWritten => setSitePlayer { x with notWritten := true } s
  | true, .pastEnd => setSitePlayer { x with fetchedAll := true } s
  | true, .ok frames =>
    setSitePlayer { x with
      buffer := x.buffer ++ frames.drop (x.fetchPosition - f.place)
      fetchPosition := max x.fetchPosition (f.place + frames.length) } s
  | false, _ => s

/-! ## The feed -/

/-- Causes of FEED_STATE (R172), numbered in this order (DESIGN CHOICE, log entry 20). -/
inductive FeedCause where
  | validFrame | depthReached | lossRun | validRun
deriving DecidableEq, Repr

/-- A change of site state, with FEED_STATE (R172). -/
def setSiteState (new : SiteState) (c : FeedCause) (s : State) : State :=
  post .feedState [word s.site.state.ctorIdx, word new.ctorIdx, word c.ctorIdx]
    { s with site := { s.site with state := new } }

/-- The remote levels applied take the safe levels (R177). -/
def safeLevels (s : State) : State := { s with site := { s.site with levels := s.settings.safeLevels } }

/-- Entering FEEDING (R172, R173): the filler fades out and a local airing is cut. -/
def enterFeeding (s : State) : State :=
  let s := setSiteState .feeding .depthReached s
  let s := { s with site := { s.site with overflowTold := false, underrunTold := false, lastDrawn := (0, 0) } }
  cutSiteAiring (fillerOut .site s)

/-- A frame appended to the elastic buffer (R170): as many sample frames as fit, with an overflow counted;
in LOCKING the append that brings the depth to the target enters FEEDING (R172). -/
def appendFrame (b : Block) (s : State) : State :=
  let room := 2048 - s.site.buffer.length
  let full := decide (room < 48)
  let told := s.site.overflowTold
  let s := { s with site := { s.site with
    buffer := s.site.buffer ++ (block48 b).take room
    overflows := if full then bump 65535 s.site.overflows else s.site.overflows
    overflowTold := told || full } }
  let s := postIf (full && !told) .feedOverflow [] s
  if s.site.state = .locking ∧ s.settings.targetDepth ≤ s.site.buffer.length then enterFeeding s else s

/-- Every record's aired flag cleared at an entry to FILLING (R172, R181; DEDUCED, log entry 38). -/
def clearAired (s : State) : State :=
  { s with site := { s.site with alerts := s.site.alerts.map fun r => { r with aired := false } } }

/-- FEED_LOSS_LIMIT (R172): the loss run has reached 32. -/
def loseFeed (s : State) : State :=
  if s.site.lossRun < 32 then s
  else match s.site.state with
    | .locking =>
      let origin := s.site.lockingOrigin
      let s := safeLevels (setSiteState origin .lossRun
        { s with site := { s.site with buffer := [], validRun := 0 } })
      if origin = .filling then clearAired s else s
    | .feeding =>
      clearAired (safeLevels (fillerIn .site (setSiteState .filling .lossRun
        { s with site := { s.site with buffer := [], validRun := 0 } })))
    | _ => s

/-- The concealment frame of a missing event (R171). -/
def concealFrame (s : State) : Block := if s.site.lossRun = 0 then s.site.lastFrame.map halve else silence

/-- One missing event (R171). -/
def missingOnce (s : State) : State :=
  let s := { s with site := { s.site with expected := s.site.expected + 1, validRun := 0 } }
  if s.site.state = .locking ∨ s.site.state = .feeding then
    let s := appendFrame (concealFrame s) s
    loseFeed { s with site := { s.site with lossRun := bump 32 s.site.lossRun } }
  else s

/-- So many missing events, each in the state that the one before it left (R170, R172). -/
def missingTimes : Nat → State → State
  | 0, s => s
  | n + 1, s => missingTimes n (missingOnce s)

/-- MISSING_EVENT (R171): the gap wait has reached 2. -/
def overdue (s : State) : State :=
  if s.site.state ≠ .noFeed ∧ 2 ≤ s.site.gapWait then
    missingOnce { s with site := { s.site with gapWait := 1 } }
  else s

/-- The gap wait at a site block start (R171). -/
def gapTick (s : State) : State :=
  if s.site.state = .noFeed then s
  else overdue { s with site := { s.site with gapWait := bump 2 s.site.gapWait } }

/-- SITE_STATUS_ACCEPTED (R178): a filter whose run count has reached 3 accepts its new level. -/
def acceptStatus (i : Fin 8) (s : State) : State :=
  let f := Tab.at s.site.status i
  if 3 ≤ f.run then { s with site := { s.site with status := s.site.status.put i f.settle } } else s

/-- The eight site status inputs sampled (R178). -/
def sampleStatus (levels : List Bool) (s : State) : State :=
  let counted : Tab Filter 8 := Vector.ofFn fun i => (Tab.at s.site.status i).count (levels.getD i.val false)
  forEach (List.finRange 8) acceptStatus { s with site := { s.site with status := counted } }

/-- A frame taken in LOCKING or FEEDING (R170). -/
def takeIntoBuffer (f : ForwardFrame) (levels : List Bool) (s : State) : State :=
  let s := appendFrame f.samples s
  sampleStatus levels
    { s with site := { s.site with lastFrame := block48 f.samples, lossRun := 0, levels := f.levels } }

/-- LOCKING entered with a frame, which is taken into the emptied buffer (R172). -/
def enterLocking (origin : SiteState) (c : FeedCause) (f : ForwardFrame) (levels : List Bool) (s : State) :
    State :=
  takeIntoBuffer f levels (setSiteState .locking c
    { s with site := { s.site with lockingOrigin := origin, buffer := [], lossRun := 0 } })

/-- FEED_VALID_RUN (R172): the valid run has reached 256 in FILLING. -/
def relock (f : ForwardFrame) (levels : List Bool) (s : State) : State :=
  if s.site.state = .filling ∧ 256 ≤ s.site.validRun then enterLocking .filling .validRun f levels s else s

/-- A frame taken (R170). -/
def takeForward (f : ForwardFrame) (levels : List Bool) (s : State) : State :=
  let s := { s with site := { s.site with
    expected := f.count + 1, gapWait := 0
    reportAlert := f.alert, reportClass := f.cls, reportFiller := f.filler, reportLineUp := f.lineUp } }
  match s.site.state with
  | .noFeed => enterLocking .noFeed .validFrame f levels s
  | .locking => takeIntoBuffer f levels s
  | .feeding => takeIntoBuffer f levels s
  | .filling => relock f levels { s with site := { s.site with validRun := bump 256 s.site.validRun } }

/-- A valid frame compared with the next expected count (R170). -/
def compareForward (f : ForwardFrame) (levels : List Bool) (s : State) : State :=
  let d := (f.count - s.site.expected).toNat
  if s.site.state = .noFeed ∨ d = 0 then takeForward f levels s
  else if d ≤ 32 then takeForward f levels (missingTimes d s)
  else if 65472 ≤ d then { s with site := { s.site with lates := bump 65535 s.site.lates } }
  else takeForward f levels { s with site := { s.site with breaks := bump 65535 s.site.breaks } }

/-! ## Clock trim and back frames -/

/-- A value limited to a magnitude. -/
def limitTo (l : Nat) (x : Int) : Int := max (-(l : Int)) (min (l : Int) x)

/-- The trim loop's error (R174). -/
def trimError (s : State) : Int := (s.site.buffer.length : Int) - s.settings.targetDepth

/-- The trim after the loop (R174). -/
def trimAfter (s : State) : Int :=
  limitTo s.settings.trimLimit (s.site.trim + limitTo 16 ((trimError s).tdiv 8))

/-- The buffer after a slip (R174): the head frame discarded for a positive error, repeated for a negative
one; with nothing at the head the repeated frame is free (DESIGN CHOICE, log entry 25). -/
def slipBuffer (e : Int) (n : Nat) (b : Block) : Block :=
  if 0 < e then b.drop 1
  else match b with
    | p :: rest => p :: p :: rest
    | [] => [((Config.slipFrame n).1.toInt, (Config.slipFrame n).2.toInt)]

/-- The trim loop in FEEDING, with its slip (R174). SLIP carries the direction, 0 for a frame discarded and 1 for one
repeated (DESIGN CHOICE, log entry 64). -/
def trimLoop (s : State) : State :=
  if s.site.state = .feeding then
    let e := trimError s
    let t := trimAfter s
    let s := { s with site := { s.site with trim := t } }
    if t.natAbs = s.settings.trimLimit ∧ s.settings.slipThreshold ≤ e.natAbs then
      post .slip [wordFlag (decide (e < 0)), wordInt e, wordInt t]
        { s with site := { s.site with
          buffer := slipBuffer e s.site.slips s.site.buffer, slips := bump 65535 s.site.slips } }
    else s
  else s

/-- The back frame's kind code of a relayed event (R208). -/
def relayKind : SiteEventKind → Nat
  | .start => 1
  | .cancel => 3

/-- The relay queue after a back frame has carried its head event (R180). -/
def relayAfter : List SiteEvent → List SiteEvent
  | [] => []
  | e :: rest => if 4 ≤ e.sends + 1 then rest else { e with sends := e.sends + 1 } :: rest

/-- The back frame formed after the trim loop, carrying the depth that the loop read (R175). -/
def backFrameOf (depth : Nat) (s : State) : BackFrame where
  count := s.site.frameCount
  state := s.site.state
  depth := depth
  trim := s.site.trim
  levels := Tab.each s.site.status Filter.level
  event := s.site.relay.head?.map fun e => ⟨relayKind e.kind, e.key, e.cls⟩
  echo := s.site.reportAlert
  crcCount := s.site.forwardCrc
  peak := s.site.offAirPeak

/-- BACK_FRAME_SEND (R174, R175): the back count has reached 4. -/
def sendBack (s : State) : State :=
  if 4 ≤ s.site.backCount then
    let depth := s.site.buffer.length
    let s := trimLoop s
    { s with site := { s.site with
        backCount := 0, frameCount := s.site.frameCount + 1, forwardCrc := 0, offAirPeak := 0
        relay := relayAfter s.site.relay, sent := onStream (backBytes (backFrameOf depth s)) } }
  else s

/-- A forward frame discarded for its CRC or its length (R170). The count since the last back frame stops at 65,535 as the
total does (DESIGN CHOICE, log entry 112). -/
def forwardError (s : State) : State :=
  { s with site := { s.site with
      forwardCrc := bump 65535 s.site.forwardCrc, forwardCrcTotal := bump 65535 s.site.forwardCrcTotal } }

/-- What the receiver of the forward stream comes to (R170, R208). -/
def forwardFound (levels : List Bool) (x : LinkFound) (s : State) : State :=
  match x with
  | .wrongLength => forwardError s
  | .frame bytes => match parseForward bytes with
    | none => forwardError s
    | some f =>
      let s := compareForward f levels s
      sendBack { s with site := { s.site with backCount := s.site.backCount + 1 } }

/-- FORWARD_FRAME_RECEIVED (R170, R208), at a SITE node: bytes of the forward stream (DEDUCED, log entry 67). -/
def receiveForward (bytes : List Byte) (levels : List Bool) (s : State) : State :=
  if atSite s then
    let r := linkScan 302 s.site.stream bytes
    forEach r.2 (forwardFound levels) { s with site := { s.site with stream := r.1 } }
  else s

/-! ## The output -/

/-- FEED_DRAW (R173): the feed block of a site block start. A buffer that has only come to be fed at this very block
start is drawn from the next one (R172). -/
def drawFeed (feeding : Bool) (s : State) : State × Block :=
  if feeding ∧ s.site.state = .feeding then
    let b := s.site.buffer.take 48
    let short := decide (b.length < 48)
    let last := b.getLastD s.site.lastDrawn
    let told := s.site.underrunTold
    let s := { s with site := { s.site with
      buffer := s.site.buffer.drop 48, lastDrawn := last
      underruns := if short then bump 65535 s.site.underruns else s.site.underruns
      underrunTold := told || short } }
    (postIf (short && !told) .feedUnderrun [] s, b ++ List.replicate (48 - b.length) last)
  else (s, silence)

/-- The filler player at the SITE end comes to rest ON or OFF (R165, R172). -/
def siteFillerRest (s : State) : State :=
  let x := s.site.filler
  if x.gain.atRest then
    match x.state with
    | .fadingIn => if x.gain.current = 4096 then setFiller .site { x with state := .on } s else s
    | .fadingOut => if x.gain.current = 0 then fillerStop .site s else s
    | _ => s
  else s

/-- SITE_OUTPUT (R176): the crossfade of feed and filler, with the local alert on top. -/
def siteOutput (feed alert : Block) (s : State) : State :=
  let g := s.site.filler.gain
  let env := s.site.filler.envelope
  let r := produceFiller .site s
  let fill := applyRamp env r.2
  let out := ((crossfadeBlocks g feed fill).zip alert).map fun x => (sat24 (x.1.1 + x.2.1), sat24 (x.1.2 + x.2.2))
  let s := r.1
  let f := s.site.filler
  siteFillerRest { s with site := { s.site with
    playing := s.site.output, output := out
    filler := { f with gain := f.gain.advance, envelope := f.envelope.advance } } }

/-- What an audio TDM output slot plays at a SITE node (R176). -/
def siteSlot (slot : Fin 8) (s : State) : Block :=
  if Tab.at s.settings.outMap slot = some .program then s.site.playing else silence

/-- The sample periods of a site block for which a remote level drives its lamp output on (R177). -/
def lampPeriods (level : Nat) : Nat := level * 48 / 255

/-- Whether a lamp output is driven on in sample period `k` of a block (R177, R188): at a SITE node by the remote level
applied, elsewhere as the lamp stands. -/
def lampOutput (i : Fin 4) (k : Nat) (s : State) : Bool :=
  if atSite s then decide (k < lampPeriods (Tab.at s.site.levels i)) else (Tab.at s.tg.lamps i).lit

/-- The site status inputs in level order (R178). -/
def statusLevels (input : BlockInput) : List Bool :=
  (List.range 4).map (fun i => input.status.getD i false)
    ++ [input.ring.getD 0 false, input.loop.getD 0 false, input.ring.getD 1 false, input.loop.getD 1 false]

/-- The off-air monitor takes the closing block (R175). -/
def offAirTick (input : BlockInput) (s : State) : State :=
  { s with site := { s.site with
      offAirPeak := max s.site.offAirPeak (blockPeak (tdmBlock input s.settings.offAirSlot)) } }

/-- The free-running timer restarts and the block count increases (R14); fetches are asked for afresh. -/
def openSiteBlock (s : State) : State :=
  closeRequests { s with
    clock := { s.clock with timer := 0, blockCount := s.clock.blockCount + 1 }
    site := { s.site with
      filler := { s.site.filler with notWritten := false }
      player := { s.site.player with notWritten := false } } }

/-- The site's work at its block start (R171 to R181, R183). -/
def siteTick (input : BlockInput) (s : State) : State :=
  let feeding := s.site.state == .feeding
  let s := offAirTick input s
  let s := if s.site.state = .noFeed ∨ s.site.state = .filling then sampleStatus (statusLevels input) s else s
  let a := produceSiteAlert (formVoices (gapTick (siteAlertTick (siteFramerTick s))))
  let f := drawFeed feeding a.1
  startSiteAlert (siteOutput f.2 a.2 f.1)

/-- SITE_BLOCK_START (R14, R171 to R181): the free-running timer gives a site block start. -/
def siteBlockStart (input : BlockInput) (s : State) : State :=
  if atSite s then siteTick input (openSiteBlock s) else s

/-- The SITE end begins at the acceptance of an image (R169). -/
def beginSite (s : State) : State :=
  let s := safeLevels s
  let s := { s with site := { s.site with
    state := .noFeed, trim := limitTo s.settings.trimLimit s.site.trim
    filler := { s.site.filler with state := .on, gain := Ramp.rest 4096 } } }
  reportMissing s

/-! ## Host view -/

/-- A site alert record as READ LINK gives it. -/
def siteAlertWords (r : SiteAlert) : List Word :=
  [r.key, word r.cls.ctorIdx, word r.duration, word r.minuteCount, word r.age, wordFlag r.aired]

/-- A relayed event as READ LINK gives it. -/
def relayWords (e : SiteEvent) : List Word := [word e.kind.ctorIdx, e.key, word e.cls.ctorIdx, word e.sends]

/-- READ LINK's data at a SITE node (R182); the locking origin by its place among the site states (DESIGN CHOICE, log entry
96). -/
def siteWords (s : State) : List Word :=
  let x := s.site
  [word x.state.ctorIdx, word x.lockingOrigin.ctorIdx, word x.expected.toNat, word x.gapWait, word x.lossRun,
   word x.validRun, word x.buffer.length, wordInt x.trim, wordOpt x.reportAlert,
   wordOpt (x.reportClass.map AlertClass.ctorIdx), wordFlag x.reportFiller, wordFlag x.reportLineUp]
    ++ x.levels.toList.map word ++ x.status.toList.map (fun f => wordName f.level)
    ++ (word x.alerts.length :: (x.alerts.foldr rankSite []).flatMap siteAlertWords)
    ++ (word x.recent.length :: x.recent) ++ (word x.relay.length :: x.relay.flatMap relayWords)
    ++ [word x.player.state.ctorIdx, word x.filler.state.ctorIdx, word x.filler.gain.current,
        word x.filler.envelope.current, word x.filler.underruns, word x.underruns, word x.overflows,
        word x.lates, word x.breaks, word x.slips, word x.forwardCrcTotal, word x.errors]

/-- READ LINK's counts cleared at a SITE node (R182). -/
def clearSite (s : State) : State :=
  { s with site := { s.site with
      underruns := 0, overflows := 0, lates := 0, breaks := 0, slips := 0, forwardCrcTotal := 0, errors := 0
      errorTold := false, filler := { s.site.filler with underruns := 0 } } }

/-- READ LINK (R182). -/
def readLinkCommand (s : State) : State × Reply :=
  if atSite s then (clearSite s, .okWith (siteWords s))
  else if s.settings.roles.link then (clearLink s, .okWith (linkWords s))
  else refuse .notRole s

end Sys2Proof.Machine
end

