-- ==== Sys2Proof/Machine/Panel.lean ====
section
/-! DEFINITION. The Tone Generator's lamps (R188), status inputs and their actions (R189, R190), and READ PANEL
(R191). -/

namespace Sys2Proof.Machine

/-! ## Lamps -/

/-- The LOCAL entry of a slot is PRESENT or CONCEALED with AIR set (R188). -/
def localOnAir (slot : Fin 8) (s : State) : Bool :=
  match findEntry s.settings.nodeId slot s.cu.table with
  | some e => e.own && e.air && e.presence != .stale
  | none => false

/-- MIC_LIVE (R188). -/
def micLive (s : State) : Bool :=
  s.cu.inForce == some .live && ((localOnAir 0 s && !lineUpOn s) || localOnAir 1 s)

/-- A Peer Table entry shows a link fault (R188). -/
def peerLinkFault (p : Peer) : Bool :=
  p.roles.link && (p.state == .lost || (p.state == .present && (p.body.map AnnounceBody.link) != some .up))

/-- LINK_FAULT (R188). -/
def linkFault (s : State) : Bool :=
  if s.settings.roles.link then s.link.state != .up else s.peers.toList.any peerLinkFault

/-- A lamp condition (R188). -/
def LampCondition.holds (c : LampCondition) (s : State) : Bool :=
  match c with
  | .none => false
  | .micLive => micLive s
  | .callerWaiting => !s.ku.airQueue.isEmpty
  | .alertHeld => !s.au.table.isEmpty
  | .linkFault => linkFault s
  | .seatHolding => s.pu.seat == .holding

/-- A lamp's half-period: a STEADY lamp counts as for 128 (R188). -/
def halfPeriod : LampMode → Nat
  | .steady => 128
  | .blink h => h

/-- A lamp blinks: in BLINK mode, or an ALERT_HELD lamp in STEADY mode while a record is AIRING (R188). -/
def lampBlinks (a : LampAssign) (airing : Bool) : Bool :=
  match a.mode with
  | .blink _ => true
  | .steady => a.condition == .alertHeld && airing

/-- A lamp at a block start (R188): lit by its mode and the count before the increase. -/
def Lamp.update (x : Lamp) (a : LampAssign) (holds airing : Bool) : Lamp :=
  if holds then
    let h := halfPeriod a.mode
    ⟨!lampBlinks a airing || decide (x.blink < h), if x.blink + 1 < 2 * h then x.blink + 1 else 0⟩
  else ⟨false, 0⟩

/-- LAMP_UPDATE (R188): the four lamps at a block start. -/
def updateLamps (s : State) : State :=
  { s with tg := { s.tg with lamps := Vector.ofFn fun i =>
      let a := Tab.at s.settings.lamps i
      (Tab.at s.tg.lamps i).update a (LampCondition.holds a.condition s) (airingHere s) } }

/-! ## Status inputs -/

/-- An input action's code (R211, index 32). -/
def actionCode : InputAction → Nat
  | .none => 0
  | .remoteStart => 1
  | .cough d => 2 + d
  | .airToggle d => 4 + d

/-- A COUGH edge at a DESK node (R190, R46): the first rising edge sets the cough hold and cuts the gain, the
last falling edge clears it and restores the host level. -/
def coughEdge (d : Fin 2) (rising : Bool) (s : State) : State :=
  let n := Tab.at s.tg.coughs d
  let n' := if rising then n + 1 else n - 1
  let s := { s with tg := { s.tg with coughs := s.tg.coughs.put d n' } }
  let x := Tab.at s.me.desk d
  if rising ∧ n = 0 then setDesk d { x with cough := true, gain := x.gain.giveGain 0 2 } s
  else if rising = false ∧ n' = 0 then setDesk d { x with cough := false, gain := x.gain.giveGain x.level 2 } s
  else s

/-- AIR_TOGGLE at a DESK node (R190, R49). -/
def toggleAir (d : Fin 2) (s : State) : State :=
  let x := Tab.at s.me.desk d
  noteStop (deskSlot d) (setDesk d { x with air := !x.air } s)

/-- An input's action at its edge (R190). -/
def applyAction (a : InputAction) (rising : Bool) (s : State) : State :=
  match a with
  | .none => s
  | .remoteStart => if rising then remoteStart s else s
  | .cough d => if s.settings.roles.desk then coughEdge d rising s else s
  | .airToggle d => if s.settings.roles.desk && rising then toggleAir d s else s

/-- INPUT_CHANGE (R189): a filter whose run count has reached 3 accepts its new level; the notice gives the
input, the level and the action, and the action applies. -/
def acceptInput (i : Fin 4) (s : State) : State :=
  let f := Tab.at s.tg.inputs i
  if 3 ≤ f.run then
    let g := f.settle
    let a := Tab.at s.settings.inputs i
    applyAction a g.level
      (post .inputChange [word (i.val + 1), wordName g.level, word (actionCode a)]
        { s with tg := { s.tg with inputs := s.tg.inputs.put i g } })
  else s

/-- The four status inputs at a block start (R189). -/
def inputTick (input : BlockInput) (s : State) : State :=
  let counted : Tab Filter 4 :=
    Vector.ofFn fun i => (Tab.at s.tg.inputs i).count (input.status.getD i.val false)
  forEach (List.finRange 4) acceptInput { s with tg := { s.tg with inputs := counted } }

/-! ## Host view -/

/-- A voice as READ PANEL gives it (R191). -/
def voiceWords (v : Voice) : List Word :=
  [holderWord v.holder, wordFlag v.dual, word v.f1, word v.f2, word v.i1, word v.i2, word v.level, v.p1, v.p2]

/-- A lamp mode's word (R211, index 31). -/
def modeWord : LampMode → Word
  | .steady => word 0
  | .blink h => word h

/-- The voices and the pool wait list. -/
def poolWords (s : State) : List Word :=
  s.tg.voices.toList.flatMap voiceWords
    ++ (word s.tg.waitList.length :: s.tg.waitList.map fun h => holderWord (some h))

/-- READ PANEL (R191). At a SITE node the reply leaves out the line-up state, the route and the cough counts and keeps
each input's action (DESIGN CHOICE, log entry 89). -/
def readPanelReply (s : State) : Reply :=
  if atSite s then
    .okWith (poolWords s ++ s.site.levels.toList.map word
      ++ s.settings.inputs.toList.flatMap fun a => [word (actionCode a), wordName false, word 0, word 0])
  else
    .okWith (poolWords s ++ [word s.tg.lineUp.ctorIdx, word s.tg.route.ctorIdx]
      ++ (s.settings.lamps.toList.zip s.tg.lamps.toList).flatMap (fun x =>
        [word x.1.condition.ctorIdx, modeWord x.1.mode, wordFlag x.2.lit, word x.2.blink])
      ++ (s.settings.inputs.toList.zip s.tg.inputs.toList).flatMap (fun x =>
        [word (actionCode x.1), wordName x.2.level, word x.2.run, word x.2.holdOff])
      ++ s.tg.coughs.toList.map word)

end Sys2Proof.Machine
end

