-- ==== Sys2Proof/Machine/LineState.lean ====
section
/-! DEFINITION. The Line Unit's states (R14 to R18), instance stamps and duplicate ids (R19, R20), announces (R21)
and the Peer Table (R22 to R24), with what every unit does on them (R38, R104, R129, R155, R204). -/

namespace Sys2Proof.Machine

/-! ## Stamps and announces -/

/-- A new instance stamp drawn (R19): any value other than the one in use (DESIGN CHOICE, log entry 9). -/
def drawStamp (s : State) : State :=
  let stamp := s.lu.stamp + 1 + BitVec.ofNat 16 (Config.stampOffset s.lu.draws).val
  { s with lu := { s.lu with stamp := stamp, draws := s.lu.draws + 1 } }

/-- The SELF entry of the Peer Table changed (R22). -/
def changeSelf (f : Peer → Peer) (s : State) : State :=
  { s with peers := s.peers.put s.settings.nodeId (f (Tab.at s.peers s.settings.nodeId)) }

/-- The body of an announce, from the values its owning units hold (R21). -/
def announceBody (s : State) : AnnounceBody :=
  let r := s.settings.roles
  { node := BitVec.ofNat 8 s.settings.nodeId.val
    stamp := s.lu.stamp
    roles := r
    seat := if r.playout then s.pu.seat else .standby
    silence := r.link && s.me.silent
    link := if r.link then s.link.state else .down
    echo := if r.link then s.link.echo else none
    lines := Tab.each s.ku.lines fun l =>
      if r.caller then ⟨l.state, min 65535 l.readyAge⟩ else ⟨.idle, 0⟩ }

/-- An announce built and queued (R21): its body is also written into the SELF entry. -/
def queueAnnounce (s : State) : State :=
  let b := announceBody s
  handControl (.announce b) (changeSelf (fun p => { p with body := some b }) s)

/-- ANNOUNCE_DUE (R21): the announce count has reached 16. -/
def announceDue (s : State) : State :=
  if joined s ∧ 16 ≤ s.lu.announceCount then
    queueAnnounce { s with lu := { s.lu with announceCount := 0 } }
  else s

/-! ## Line states -/

/-- Causes of LINE_JOINED (R15), numbered in this order (DESIGN CHOICE, log entry 64). -/
inductive JoinCause where
  | marks | alone
deriving DecidableEq, Repr

/-- Entry to JOINED (R15, R16, R142): the announce mismatch run and the announce count start from 0, an announce
is queued, and the AU hands its frames, after the announce (DESIGN CHOICE, log entry 114). -/
def enterJoined (c : JoinCause) (s : State) : State :=
  let s := { s with lu := { s.lu with state := .joined, mismatchRun := 0, announceCount := 0 } }
  alertJoins (queueAnnounce (post .lineJoined [word c.ctorIdx] s))

/-- LINE_JOINED_MARKS (R15): 64 good marks in a row. -/
def joinByMarks (s : State) : State :=
  if s.lu.state = .listening ∧ 64 ≤ s.lu.goodMarks then enterJoined .marks s else s

/-- LINE_JOINED_ALONE (R15): 4 block periods with no mark. -/
def joinAlone (s : State) : State :=
  if s.lu.state = .listening ∧ 4 ≤ s.lu.noMarks then enterJoined .alone s else s

/-- Causes of DUPLICATE_ID (R20), numbered in this order (DESIGN CHOICE, log entry 64). -/
inductive DuplicateCause where
  | heard | readback
deriving DecidableEq, Repr

/-- DUPLICATE_ID and entry to MUTED (R17, R20): the AUDIO queue is emptied without a count, and the seat
follows a change out of JOINED (R104). A frame being sent is given up without a count (DEDUCED, log entry 65). -/
def enterMuted (c : DuplicateCause) (s : State) : State :=
  let was := joined s
  let s := post .duplicateId [word c.ctorIdx] s
  let s := { s with
    lu := { s.lu with state := .muted, goodMarks := 0, noMarks := 0 }
    tx := { s.tx with audio := Vector.replicate 8 none, sending := none } }
  if was then seatLeavesLine s else s

/-- READBACK_MUTE (R20): three announce attempts in a row ended in TX_MISMATCH. -/
def readbackMute (s : State) : State :=
  if joined s ∧ 3 ≤ s.lu.mismatchRun then enterMuted .readback s else s

/-! ## The Peer Table -/

/-- What PEER_STATE tells (R23, R24), numbered in this order (DESIGN CHOICE, log entry 20). -/
inductive PeerChange where
  | absent | present | lost | rejoined
deriving DecidableEq, Repr

/-- PEER_STATE (R23, R24). -/
def postPeer (k : Fin 8) (c : PeerChange) (s : State) : State := post .peerState [word k, word c.ctorIdx] s

/-- A Peer Table entry replaced. -/
def setPeer (k : Fin 8) (p : Peer) (s : State) : State := { s with peers := s.peers.put k p }

/-- The Peer Table at an announce from another node (R23). -/
def updatePeer (k : Fin 8) (b : AnnounceBody) (s : State) : State :=
  let p := Tab.at s.peers k
  let s := setPeer k ⟨.present, b.stamp, b.roles, 0, some b⟩ s
  match p.state with
  | .absent => postPeer k .present s
  | st =>
    let s := if st = .lost then postPeer k .present s else s
    if p.stamp = b.stamp then s else postPeer k .rejoined s

/-- An echo in a LINK peer's announce confirms an own record (R154). -/
def confirmFrom (b : AnnounceBody) (s : State) : State :=
  match b.roles.link, b.echo with
  | true, some id => confirmAlert id s
  | _, _ => s

/-- An ANNOUNCE bearing the node's own id (R20). -/
def duplicateCheck (b : AnnounceBody) (s : State) : State :=
  match s.lu.state with
  | .joined => if b.stamp = s.lu.stamp then s else enterMuted .heard s
  | .listening => enterMuted .heard s
  | _ => s

/-- A received ANNOUNCE (R12, R20, R23, R119, R154). -/
def takeAnnounce (node : Fin 8) (b : AnnounceBody) (s : State) : State :=
  if node = s.settings.nodeId then duplicateCheck b s
  else confirmFrom b (airAnnounce node b (updatePeer node b s))

/-- PEER_LOST (R24): 64 block starts since a PRESENT peer's last announce; its callers leave the Air Queue
(R120) and its alerts lose their origin (R145). -/
def losePeer (k : Fin 8) (s : State) : State :=
  let p := Tab.at s.peers k
  if p.state = .present ∧ 64 ≤ p.since then
    loseOrigin k (airDropOwner k (postPeer k .lost (setPeer k { p with state := .lost } s)))
  else s

/-- PEER_ABSENT (R24): 1,088 block starts since a LOST peer's last announce. The entry is then as at reset, its count 0
too (DESIGN CHOICE, log entry 69). -/
def forgetPeer (k : Fin 8) (s : State) : State :=
  let p := Tab.at s.peers k
  if p.state = .lost ∧ 1088 ≤ p.since then loseOrigin k (postPeer k .absent (setPeer k Peer.absent s)) else s

/-- One entry's block start (R24). -/
def peerTickAt (k : Fin 8) (s : State) : State :=
  let p := Tab.at s.peers k
  if p.state = .present ∨ p.state = .lost then
    forgetPeer k (losePeer k (setPeer k { p with since := bump 65535 p.since } s))
  else s

/-- The Peer Table at a block start (R24). -/
def peerTick (s : State) : State := forEach (List.finRange 8) peerTickAt s

/-! ## REJOIN -/

/-- REJOIN at the Line Unit (R18, R22); a frame being sent is given up without a count (DEDUCED, log entry 65). -/
def lineRejoins (s : State) : State :=
  let s := drawStamp s
  let own := Tab.at s.peers s.settings.nodeId
  { s with
    lu := { s.lu with state := .listening, goodMarks := 0, noMarks := 0, announceCount := 0, mismatchRun := 0 }
    clock := { s.clock with sinceMark := none }
    tx := { s.tx with audio := Vector.replicate 8 none, control := [], sending := none }
    peers := Tab.put (Vector.replicate 8 Peer.absent) s.settings.nodeId { own with stamp := s.lu.stamp } }

/-- REJOIN (R204): every unit acts on it in one event. -/
def rejoinCommand (s : State) : State × Reply :=
  if atSite s then refuse .notRole s
  else
    let s := seatRejoins (alertRejoins (callerRejoins (rejoinTable (lineRejoins s))))
    (s, .okWith [word s.lu.stamp.toNat])

/-- READ COUNTERS (R13). -/
def readCountersCommand (s : State) : State × Reply :=
  ({ s with counters := Vector.replicate 5 0 }, .okWith (s.counters.toList.map word))

end Sys2Proof.Machine
end

