-- ==== Sys2Proof/Machine/Image.lean ====
section
/-! DEFINITION. The configuration image: its layout (R211), its fields and defaults (R200), its validation
(R194, R201) and its acceptance (R202). -/

namespace Sys2Proof.Machine

/-! ## Layout -/

/-- The image's marker (R211). -/
def imageMarker : Word := 0x06401A5C#32

/-- The image's length in bytes (R211). -/
def imageLength : Nat := 316

/-- The value of the field length (R211). -/
def imageFields : Nat := 304

/-- The header announces an image of the image length (R203, R211). -/
def headerOk (img : List Byte) : Bool :=
  wordAt img 0 == imageMarker && (wordAt img 4).toNat == imageFields

/-- The CRC over the image is right (R206, R211). -/
def imageCrcOk (img : List Byte) : Bool := crcBytes (img.take 312) == wordAt img 312

/-- The word that asks for a field's default (R211). -/
def asksDefault : Word := wordNone

/-- The default word of a field word, where the field's rule states one: the duck matrix and hold weight (R36,
R53), the silence monitor (R59), the filler and the site (Transmitter Link's table), the checks (R110, R111,
R115), the alerts (Emergency Alerts' table), the tones, lamps and inputs (their table), the counter mask (R13) and
the routing (R197). No rule states one for the node id, the roles, the seat enable, the output slot map, the screener
slot and the capture definitions. -/
def statedDefault (i : Nat) : Option Nat :=
  if i < 12 then none
  else if i = 12 then some 0
  else if i < 24 then [0, 0, 0, 6, 0, 0, 8, 8389, 8000, 2000, 0xFFFFFFFF][i - 13]?
  else if i < 36 then none
  else [1020, 1024, 200, 2100, 4200000, 2, 745, 1175, 2896, 8000, 120000, 60, 255, 1024, 768, 0, 0, 0, 0,
    0xFFFFFFFF, 0, 0, 0, 0, 0, 0, 0, 0, 0, 0, 0, 0, 0, 31, 0, 0, 0, 0, 0, 0][i - 36]?

/-- Field word `i`: as the image gives it, or its default; a free value where it asks for a default that no
rule states (DESIGN CHOICE, log entry 10). -/
def fieldWord (img : List Byte) (i : Nat) : Word :=
  let w := wordAt img (8 + 4 * i)
  if w = asksDefault then ((statedDefault i).map word).getD (Config.defaultWord i) else w

/-! ## Fields -/

/-- The role set of the roles word (R211). -/
def rolesWord (w : Word) : Roles :=
  ⟨w.getLsbD 0, w.getLsbD 1, w.getLsbD 2, w.getLsbD 3, w.getLsbD 4, w.getLsbD 5⟩

/-- The roles word names known roles, and SITE only alone (R201). -/
def rolesOk (w : Word) : Bool := decide (w.toNat < 64) && (!w.getLsbD 5 || decide (w.toNat = 32))

/-- The bus of an output slot map word; `none` for NONE (R211). -/
def busOf : Nat → Option Bus
  | 1 => some .program
  | 2 => some .cue
  | 3 => some .hold
  | 4 => some .mixMinus1
  | 5 => some .mixMinus2
  | 6 => some .mixMinus3
  | _ => none

/-- An input slot word: a value above 7 is taken as 7 (R211). -/
def slotWord (w : Word) : Fin 8 := ⟨min 7 w.toNat, by omega⟩

/-- A clip word: 0 to 251 a clip, any other value none (R211). -/
def clipWord (w : Word) : Option (Fin 256) := if w.toNat ≤ 251 then index? 256 w.toNat else none

/-- The capture definition of three words: capacity (0 for none), first extent and count (R211). -/
def captureDef (capacity first count : Nat) : Option CaptureDef :=
  if capacity = 0 then none
  else some ⟨capacity, (List.range (min 255 count)).filterMap fun k => index? 512 (first + k)⟩

/-- A capture definition is valid under R74 and stays within the extents (R211). -/
def captureOk (capacity first count : Nat) : Bool :=
  capacity == 0 || (decide (1 ≤ count) && decide (count ≤ 255) && decide (first + count ≤ 512)
    && decide (capacity * 2 ≤ count * 1048576))

/-- The lamp condition of a code (R188, R211). -/
def conditionOf : Nat → Option LampCondition
  | 0 => some .none
  | 1 => some .micLive
  | 2 => some .callerWaiting
  | 3 => some .alertHeld
  | 4 => some .linkFault
  | 5 => some .seatHolding
  | _ => none

/-- The lamp mode of a word (R211). -/
def modeOf (n : Nat) : Option LampMode :=
  if n = 0 then some .steady
  else if n = 64 ∨ n = 128 ∨ n = 256 ∨ n = 512 then some (.blink n) else none

/-- The input action of a code (R211). -/
def actionOf : Nat → Option InputAction
  | 0 => some .none
  | 1 => some .remoteStart
  | 2 => some (.cough 0)
  | 3 => some (.cough 1)
  | 4 => some (.airToggle 0)
  | 5 => some (.airToggle 1)
  | _ => none

/-- The INT line of a routing word; `none` for NONE (R211). -/
def routeLine (n : Nat) : Option (Fin 4) := index? 4 n

/-! ## Validation -/

/-- The extents of the four capture definitions, in order. -/
def captureExtents (fw : Nat → Word) : List (Fin 512) :=
  (List.range 4).flatMap fun k =>
    match captureDef (fw (24 + 3 * k)).toNat (fw (25 + 3 * k)).toNat (fw (26 + 3 * k)).toNat with
    | some d => d.extents
    | none => []

/-- The fields that can fail, in index order, with whether each does (R201). -/
def fieldFaults (fw : Nat → Word) : List (Nat × Bool) :=
  let n (i : Nat) := (fw i).toNat
  [(1, decide (7 < n 0)),
   (2, !rolesOk (fw 1)),
   (4, (List.range 8).any fun k => decide (6 < n (3 + k))),
   (13, ((List.range 4).any fun k => !captureOk (n (24 + 3 * k)) (n (25 + 3 * k)) (n (26 + 3 * k)))
      || !decide (captureExtents fw).Nodup),
   (31, (List.range 4).any fun k => (conditionOf (n (57 + 2 * k))).isNone || (modeOf (n (58 + 2 * k))).isNone),
   (32, (List.range 4).any fun k => (actionOf (n (65 + k))).isNone),
   (34, (List.range 6).any fun k => decide (4 < n (70 + k)))]

/-- The index of the first field that fails (R201); `none` for a valid image. -/
def fieldFault (fw : Nat → Word) : Option Nat := ((fieldFaults fw).find? fun x => x.2).map fun x => x.1

/-! ## The values taken -/

/-- The duck matrix (R36): a value above 16 is taken as 16. -/
def duckOf (n : Nat → Nat) : Duck :=
  ⟨min 16 (n 13), min 16 (n 14), min 16 (n 15), min 16 (n 16), min 16 (n 17), min 16 (n 18)⟩

/-- The values of a valid image (R200), each clamped into its range where its owner states one (R194, R201). -/
def settingsOf (fw : Nat → Word) : Settings :=
  let n (i : Nat) := (fw i).toNat
  { nodeId := (index? 8 (n 0)).getD 0
    roles := rolesWord (fw 1)
    seatEnable := n 2 != 0
    outMap := Vector.ofFn fun k => busOf (n (3 + k.val))
    screenerSlot := slotWord (fw 11)
    alertAudioSlot := slotWord (fw 12)
    duck := duckOf n
    holdWeight := min 16 (n 19)
    silenceFloor := clampNat 1 8388608 (n 20)
    silenceLimit := clampNat 1 65535 (n 21)
    fillerDelay := clampNat 1 65535 (n 22)
    fillerClip := clipWord (fw 23)
    captures := Vector.ofFn fun k => captureDef (n (24 + 3 * k.val)) (n (25 + 3 * k.val)) (n (26 + 3 * k.val))
    checkFrequency := clampNat 20 20000 (n 36)
    checkLevel := min 8192 (n 37)
    checkLength := clampNat 32 512 (n 38)
    deadFloor := min 8388608 (n 39)
    echoCeiling := min 8388608 (n 40)
    maxOnAir := clampNat 1 3 (n 41)
    attentionF1 := clampNat 20 20000 (n 42)
    attentionF2 := clampNat 20 20000 (n 43)
    attentionLevel := min 8192 (n 44)
    attentionLength := clampNat 1000 60000 (n 45)
    alertInterval := clampNat 1000 3600000 (n 46)
    defaultDuration := clampNat 1 1440 (n 47)
    trimLimit := min 511 (n 48)
    targetDepth := clampNat 192 1856 (n 49)
    slipThreshold := clampNat 48 1024 (n 50)
    safeLevels := Vector.ofFn fun k => min 255 (n (51 + k.val))
    siteAlertClip := clipWord (fw 55)
    offAirSlot := slotWord (fw 56)
    lamps := Vector.ofFn fun k =>
      ⟨(conditionOf (n (57 + 2 * k.val))).getD .none, (modeOf (n (58 + 2 * k.val))).getD .steady⟩
    inputs := Vector.ofFn fun k => (actionOf (n (65 + k.val))).getD .none
    counterEnable := Vector.ofFn fun k => (fw 69).getLsbD k.val
    routing := Vector.ofFn fun k => routeLine (n (70 + k.val)) }

/-- A host image examined (R201): its values, or the index of the first field that fails. -/
def examineImage (img : List Byte) : Except Nat Settings :=
  if img.length ≠ imageLength ∨ headerOk img = false ∨ imageCrcOk img = false then .error 0
  else match fieldFault (fieldWord img) with
    | some i => .error i
    | none => .ok (settingsOf (fieldWord img))

/-! ## Acceptance -/

/-- Where an accepted image came from (R202), in code order. -/
inductive ImageSource where
  | host | flash
deriving DecidableEq, Repr

/-- The CP takes the interrupt routing and sets the INT lines from the notices queued (R197, R202). -/
def takeRouting (st : Settings) (s : State) : State :=
  { s with
    settings := st
    cp := { s.cp with
      device := .running, routing := st.routing, ints := intLines st.routing s.cp.notices } }

/-- The own entry of the Peer Table becomes SELF (R22; DEDUCED, log entry 42). -/
def becomeSelf (s : State) : State :=
  { s with peers := s.peers.put s.settings.nodeId ⟨.self, s.lu.stamp, s.settings.roles, 0, none⟩ }

/-- The Line Unit at the acceptance (R14, R202): LISTENING with a new stamp and block count 0, or OFFLINE with
the free-running timer started at a SITE node. -/
def startLine (s : State) : State :=
  let s := { s with clock := ⟨0, true, 0, none, false⟩ }
  if s.settings.roles.site then becomeSelf s
  else
    let s := drawStamp s
    becomeSelf { s with lu := { s.lu with state := .listening, goodMarks := 0, noMarks := 0 } }

/-- The capture clips take their definitions (R74). -/
def takeCaptures (s : State) : State :=
  forEach (captureClips.zip s.settings.captures.toList)
    (fun x s => match x.2 with
      | some d => defineCapture x.1 d s
      | none => s) s

/-- The XU at the acceptance (R163, R169). -/
def startLink (s : State) : State :=
  let s := if s.settings.roles.link then { s with link := { s.link with outputs := s.settings.safeLevels } } else s
  if s.settings.roles.site then beginSite s else s

/-- The status input filters start from INACTIVE (R189). -/
def startInputs (s : State) : State :=
  { s with tg := { s.tg with inputs := Vector.replicate 4 Filter.reset } }

/-- The acceptance of an image (R202): every unit takes its values in one event, and CONFIGURED is posted. -/
def acceptImage (src : ImageSource) (st : Settings) (s : State) : State :=
  let s := startInputs (startLink (takeCaptures (startLine (takeRouting st s))))
  post .configured [word st.nodeId, word (Roles.code st.roles), word src.ctorIdx] s

/-- CONFIGURE (R199, R201, R202). -/
def configureCommand (img : List Byte) (s : State) : State × Reply :=
  if s.cp.device = .running then refuse .wrongState s
  else if s.cp.boot = .reading then refuse .busy s
  else match examineImage img with
    | .error i => (s, ⟨.badParam, [word i]⟩)
    | .ok st =>
      let s := acceptImage .host st s
      (s, .okWith [word st.nodeId, if st.roles.site then 0 else word s.lu.stamp.toNat])

/-- A flash image refused (R203): the boot status is REFUSED with its cause, and CONFIG_REFUSED is posted. -/
def refuseFlash (c : BootCause) (field : Nat) (items : List Word) (s : State) : State :=
  post .configRefused (word c.ctorIdx :: items)
    { s with cp := { s.cp with boot := .refused, bootCause := some c, bootField := field } }

/-- The end of a flash read (R203; DEDUCED, log entry 46). -/
def endFlashRead (flash : Option (List Byte)) (s : State) : State :=
  if s.cp.boot ≠ .reading then s
  else
    let img := (flash.getD []).take imageLength
    if img.length ≠ imageLength ∨ headerOk img = false then refuseFlash .noImage 0 [] s
    else if imageCrcOk img = false then refuseFlash .check 0 [word 0] s
    else match fieldFault (fieldWord img) with
      | some i => refuseFlash .field i [word i] s
      | none =>
        acceptImage .flash (settingsOf (fieldWord img)) { s with cp := { s.cp with boot := .accepted } }

end Sys2Proof.Machine
end

