-- ==== Sys2Proof/Machine/ControlPort.lean ====
section
/-! DEFINITION. The Control Port: writes and reads on the port (R192, R193), notices read (R196), status (R198),
and power-on, reset and its release (R203, R205). -/

namespace Sys2Proof.Machine

/-- The type and tag that a message holds; free where it is too short to hold them (R193; DESIGN CHOICE, log entry
27). -/
def headerOf (bytes : List Byte) : Half × Half :=
  let free := Config.shortHeader bytes
  (if 2 ≤ bytes.length then halfAt bytes 0 else free.1, if 4 ≤ bytes.length then halfAt bytes 2 else free.2)

/-- A write taken in IDLE (R192, R193): a well-formed command waits in the slot, ACTING; any other is answered
BAD_PARAM. -/
def takeWrite (bytes : List Byte) (cp : ControlPort) : ControlPort :=
  match decodeMessage bytes with
  | some m => { cp with slot := some ⟨m.1, m.2.1, m.2.2.1⟩, port := .acting }
  | none => cp.respond (headerOf bytes).1 (headerOf bytes).2 (.only .badParam)

/-- COMMAND_WRITE_COMPLETE (R192). A part held in reset takes no message (R205; DEDUCED, log entry 53). -/
def writeComplete (bytes : List Byte) (s : State) : State :=
  if s.cp.resetHeld then s
  else { s with cp := match s.cp.port with
      | .idle => takeWrite bytes s.cp
      | .acting => { s.cp with busyFlag := true }
      | .ready => { s.cp with response := s.cp.response.map fun r => { r with portBusy := true } } }

/-- The response of type NONE that the host reads where none is held (R192). -/
def noneResponse (c : ResultCode) : Response :=
  ⟨0, (Config.noneHeader c.ctorIdx).1, c, (Config.noneHeader c.ctorIdx).2, []⟩

/-- A response as it travels (R210): an 8-byte header of the type, the tag echoed, the result code, a flag byte with
PORT_BUSY in bit 0 and the data length, then the data words, most significant byte first. -/
def responseBytes (r : Response) : List Byte :=
  be16 r.type ++ be16 r.tag ++ [BitVec.ofNat 8 r.code.ctorIdx, BitVec.ofNat 8 r.portBusy.toNat]
    ++ be16 (BitVec.ofNat 16 (4 * r.data.length)) ++ r.data.flatMap be32

/-- A response read to its last byte: what the host has read, and the bytes it was read as (R192, R210). -/
def ControlPort.readOut (cp : ControlPort) (r : Option Response) : ControlPort :=
  { cp with lastRead := r, shifted := (r.map responseBytes).getD [] }

/-- RESPONSE_READ_COMPLETE (R192). -/
def readComplete (s : State) : State :=
  { s with cp := match s.cp.port with
      | .idle => s.cp.readOut (some (noneResponse .noSuch))
      | .acting => s.cp.readOut (some (noneResponse .busy))
      | .ready =>
        { s.cp.readOut s.cp.response with response := none, rdy := false, port := .idle } }

/-- A notice as READ NOTICE returns it, with the number left (R196, R210). -/
def noticeReply (n : Notice) (left : Nat) : List Word :=
  [word (noticeNumber n.kind), word (NoticeClass.index (noticeClass n.kind)), n.block] ++ noticeWords n ++ [word left]

/-- READ NOTICE (R196, R197): the oldest notice leaves the queue, and the INT lines follow. -/
def readNoticeCommand (s : State) : State × Reply :=
  match s.cp.notices with
  | [] => (s, ⟨.noSuch, [word 0]⟩)
  | n :: rest =>
    ({ s with cp := { s.cp with notices := rest, ints := intLines s.cp.routing rest } },
      .okWith (noticeReply n rest.length))

/-- What READ STATUS returns (R198). -/
def statusWords (s : State) : List Word :=
  [word s.cp.device.ctorIdx, word s.cp.boot.ctorIdx, wordOpt (s.cp.bootCause.map BootCause.ctorIdx),
   word s.cp.bootField, word s.settings.nodeId, word (Roles.code s.settings.roles), word s.lu.state.ctorIdx,
   s.clock.blockCount, word s.cp.notices.length]
    ++ s.cp.ints.toList.map wordFlag ++ [word s.cp.dropped]

/-- READ STATUS (R198): the dropped-notice count is then set to 0. -/
def readStatusCommand (s : State) : State × Reply :=
  ({ s with cp := { s.cp with dropped := 0 } }, .okWith (statusWords s))

/-- Power-on and the assertion of RESET (R205): every unit at its reset values. What waits outside the part, and
how far the stamp generator has run, are not the part's to reset (DEDUCED, log entry 47). -/
def putReset (s : State) : State :=
  { State.reset with pending := s.pending, lu := { State.reset.lu with draws := s.lu.draws } }

/-- The release of reset (R203, R205): the boot status is set from BOOT, and a flash read begins if it is high. -/
def releaseReset (boot : Bool) (s : State) : State :=
  if s.cp.resetHeld then
    { s with cp := { s.cp with resetHeld := false, boot := if boot then .reading else .none } }
  else s

end Sys2Proof.Machine
end

