-- ==== Sys2Proof/Machine/BlockStart.lean ====
section
/-! DEFINITION. Block timing (R2 to R4, R14, R15) and the block start (R3): what every unit does at it, in one
order. Where the manual gives no order between two units' work the order is this file's (DESIGN CHOICE, log entry 30). -/

namespace Sys2Proof.Machine

/-! ## The parts of a block start -/

/-- The block timer restarts and the block count increases (R3). -/
def openBlock (s : State) : State :=
  closeRequests { s with clock := { s.clock with timer := 0, blockCount := s.clock.blockCount + 1 } }

/-- The Line Unit's queues and peers at a block start (R9, R10, R15, R24). A node that joins by marks at a block start
ages at it the frames that its entry queued (DEDUCED, log entry 68). -/
def lineStart (s : State) : State :=
  let s := ageControl (joinByMarks s)
  peerTick (if joined s then emptyAudio s else s)

/-- The presence decision for the block that closes (R31 to R37), which may bring the ALERT tier's hold (R97,
R98). -/
def decisionStart (closing : Word) (s : State) : State := withHold .alertTier (presenceDecision closing) s

/-- Status inputs and caller lines at a block start (R56, R107 to R116, R189, R190), and the tone voices' blocks
(R183); it answers with the phone samples converted up. -/
def panelStart (input : BlockInput) (s : State) : State × Tab (List Int) 3 :=
  let r := upConvertAll input (inputTick input s)
  (formVoices (callerTick input r.2 r.1), r.2)

/-- The Alert Unit at a block start: ages and captures (R131, R138, R152), the alert player's block (R147 to
R150), the frames due (R142), and the choice of an airing (R146), which may bring its hold (R97, R98). -/
def alertStart (input : BlockInput) (owed : List Nat) (s : State) : State × Option SourceBlock :=
  let r := produceAlert (alertTick input s)
  (withHold .alertAiring startTick (frameTick owed r.1), r.2)

/-- The players in the order in which their segue points are tested (R93): player A again after player B, whose
follower may have started on A with its segue point at frame 0. -/
def segueOrder : List (Fin 2) := [0, 1, 0]

/-- The Playout Unit before its players produce: holds released (R97, R100), AT_TIME entries (R90), segue
points (R93), endings (R89, R94, R96) and the seat (R101 to R103). -/
def playoutStart (s : State) : State :=
  if s.settings.roles.playout then
    let s := releaseTick (playoutTick s)
    let s := forEach (s.pu.cues.map CueEntry.tag) dueAtTime s
    let s := forEach segueOrder reachSegue s
    let s := forEach bothPlayers finishEnded s
    seatTick (forEach bothPlayers beginEnding s)
  else s

/-- The players' blocks (R89) and the source stage (R41, R45 to R48), with the fades that it completes (R99,
R150). -/
def sourceStart (input : BlockInput) (ups : Tab (List Int) 3) (alert : Option SourceBlock) (s : State) : State :=
  let a := producePlayer 0 s
  let b := producePlayer 1 a.1
  let s := sourceStage input ups a.2 b.2 alert b.1
  forEach bothPlayers completeHoldFade (completeAlertFade s)

/-- The Link Unit at a LINK node (R157, R159, R160, R166, R167). -/
def linkStart (prog : Block) (s : State) : State :=
  if s.settings.roles.link then
    let s := { s with link := { s.link with filler := { s.link.filler with notWritten := false } } }
    backTick (fillerTurnsOff (fillerFadeInDone (sendForward prog (fillerTick s))))
  else s

/-- The announce count at a block start in JOINED (R21); `was` says that the node was JOINED before it, so the block
start at which it joins by marks is not counted (DEDUCED, log entry 68). -/
def announceTick (was : Bool) (s : State) : State :=
  if was then announceDue { s with lu := { s.lu with announceCount := bump 16 s.lu.announceCount } } else s

/-- The bus stage and what follows PROGRAM: the silence monitor (R59) and the link. -/
def busStart (input : BlockInput) (s : State) : State :=
  linkStart (programBlock s) (silenceMonitor (busStage input s))

/-- BLOCK_START (R3): every unit does its work for the block (DEDUCED, log entry 5). A block start at which the node joins by
marks counts among the 256 to the refresh of the ALERT frames that it hands (R142; DESIGN CHOICE, log entry 119). -/
def blockStart (input : BlockInput) (s : State) : State :=
  let was := joined s
  let owed := if was then owedIds s else []
  let opened := openBlock s
  let s := decisionStart s.clock.blockCount (lineStart (if was then takeOwed opened else opened))
  let p := panelStart input s
  let a := alertStart input owed p.1
  let s := busStart input (sourceStart input p.2 a.2 (playoutStart a.1))
  updateLamps (announceTick was s)

/-! ## Marks and expiries -/

/-- A good mark follows the previous one by 49,088 to 49,216 local bit times (R15). -/
def goodInterval (n : Nat) : Bool := decide (49088 ≤ n) && decide (n ≤ 49216)

/-- The counts of LISTENING at a recognised mark begin (R15): `interval` is what went by since the previous
one. -/
def countMark (interval : Option Nat) (s : State) : State :=
  if s.lu.state = .listening then
    let good := (interval.map goodInterval).getD false
    { s with lu := { s.lu with goodMarks := if good then bump 64 s.lu.goodMarks else 0, noMarks := 0 } }
  else s

/-- A mark begun cuts off what is on the line (R2, R8, R11), so many bit times after the last CRC bit of the frame
received last. -/
def cutOff (sinceCrc : Nat) (s : State) : State := truncateReceived sinceCrc (truncateOwn s)

/-- A recognised mark begin (R2, R3, R15) at `t` local bit times on the timer: within 64 of a local expiry it
belongs to the block that the expiry started; otherwise it gives a block start (DESIGN CHOICE, log entry 2). -/
def recogniseMark (t : Nat) (input : BlockInput) (s : State) : State :=
  let same := s.clock.expiryOpen && decide (t ≤ 64)
  let s := countMark (s.clock.sinceMark.map (· + t)) (cutOff input.sinceCrc s)
  let s := { s with clock := { s.clock with timer := 0, sinceMark := some 0, expiryOpen := false } }
  if same then joinByMarks s else blockStart input s

/-- MARK_BEGIN (R2, R3): `elapsed` local bit times after the last timed event. -/
def markBegins (elapsed : Nat) (input : BlockInput) (s : State) : State :=
  if receives s then recogniseMark (s.clock.timer + elapsed) input s else s

/-- LOCAL_EXPIRY (R3): in LISTENING and MUTED the timer reaches 49,152 with no mark begun. -/
def expiryStart (input : BlockInput) (s : State) : State :=
  if s.lu.state = .listening ∨ s.lu.state = .muted then
    blockStart input { s with clock := { s.clock with
      timer := 0, sinceMark := s.clock.sinceMark.map (· + 49152), expiryOpen := true } }
  else s

/-- SEND_MARK (R2, R4): in JOINED the timer reaches 49,152; the node sends a mark, whose begin it recognises. -/
def sendsMark (input : BlockInput) (s : State) : State :=
  if joined s then recogniseMark 49152 input { s with tx := { s.tx with markSent := true } } else s

/-- NO_MARK_AFTER_EXPIRY (R15): 64 bit times after a local expiry without a mark begin. -/
def markMissed (s : State) : State :=
  if s.clock.expiryOpen then
    let s := { s with clock := { s.clock with timer := 64, expiryOpen := false } }
    if s.lu.state = .listening then
      joinAlone { s with lu := { s.lu with noMarks := bump 4 s.lu.noMarks } }
    else s
  else s

/-! ## Frames abandoned and frames received -/

/-- FRAME_ABANDONED (R8, R20): at a mark begin, or because another node drives the line, which may bring the
third announce attempt in a row so ended. -/
def abandonFrame (mark : Bool) (s : State) : State :=
  if mark then truncateOwn s else readbackMute (mismatchOwn s)

/-- The node part of a frame equals the node's own id (R12). -/
def fromOwnId (node : Fin 8) (s : State) : Bool := node == s.settings.nodeId

/-- A control frame ends on the line (R11, R12): one that fails the checks is counted, one that passes is handed
on where its kind is the one asked for (DEDUCED, log entry 6). -/
def receiveControl (kind : Nat) (f : RxControl) (handOn : State → State) (s : State) : State :=
  receiveFrame (RxControl.passes f) (fun s => if f.kind.toNat = kind then handOn s else s) s

/-- AUDIO_FRAME_RECEIVED (R11, R28). -/
def receiveAudio (f : RxAudio) (s : State) : State := receiveFrame (RxAudio.passes f) (takeHeard f) s

/-- ANNOUNCE_RECEIVED (R12, R20, R23). The id an ANNOUNCE bears is the node part of its arbitration field; byte 0 of its
body is not acted on (DESIGN CHOICE, log entry 80). -/
def receiveAnnounce (f : RxControl) (s : State) : State :=
  receiveControl 1 f (takeAnnounce f.node (parseAnnounce f.body)) s

/-- ALERT_FRAME_RECEIVED (R12, R143); a frame it cannot read is discarded (R207). It may bring the airing's
hold (R97, R98). -/
def receiveAlert (f : RxControl) (s : State) : State :=
  receiveControl 2 f (fun s =>
    match fromOwnId f.node s, parseAlert f.body with
    | false, some b => withHold .alertAiring (takeAlertFrame b) s
    | _, _ => s) s

/-- A REQUEST ends on the line, handed on by its verb (R12, R207). -/
def receiveRequestWith (act : RequestBody → State → State) (f : RxControl) (s : State) : State :=
  receiveControl 3 f (fun s =>
    match fromOwnId f.node s, parseRequest f.body with
    | false, some b => act b s
    | _, _ => s) s

/-- A REQUEST goes to the XU when its verb is SET_REMOTE_OUTPUT, otherwise to the KU (R12). -/
def handRequest (node : Fin 8) (b : RequestBody) (s : State) : State :=
  if b.verb = .setRemoteOutput then takeOutputRequest node b s else takeRequest node b s

/-- REQUEST_RECEIVED and SET_REMOTE_OUTPUT_RECEIVED (R12, R124, R164). -/
def receiveRequest (f : RxControl) (s : State) : State := receiveRequestWith (handRequest f.node) f s

/-- ANSWER_RECEIVED (R12, R126, R207). -/
def receiveAnswer (f : RxControl) (s : State) : State :=
  receiveControl 4 f (fun s =>
    match fromOwnId f.node s, parseAnswer f.body with
    | false, some b => takeAnswer f.node b s
    | _, _ => s) s

/-- INVALID_FRAME_RECEIVED (R11): a frame that passes the checks is not one. -/
def receiveInvalid (f : RxFrame) (s : State) : State :=
  if RxFrame.passes f then s else receiveFrame false id s

/-! ## Clip store fetches -/

/-- A reader asks for its next frames (R73, R88, R148, R165, R181): the filler player at a LINK node, the site's
players at a SITE node. -/
def askFetch (r : Reader) (s : State) : State :=
  match r with
  | .playerA => playerFetch 0 s
  | .playerB => playerFetch 1 s
  | .alert => alertFetch s
  | .filler => if onLine s ∧ s.settings.roles.link then fillerFetch .link s else s
  | .siteAlert => if atSite s then siteAlertFetch s else s
  | .siteFiller => if atSite s then fillerFetch .site s else s

/-- A completion goes to its reader (R73). -/
def deliver (f : Fetch) (c : Completion) (s : State) : State :=
  match f.reader with
  | .playerA => playerCompletion 0 f c s
  | .playerB => playerCompletion 1 f c s
  | .alert => alertCompletion f c s
  | .filler => fillerCompletion .link f c s
  | .siteAlert => siteAlertCompletion f c s
  | .siteFiller => fillerCompletion .site f c s

/-- A completion delivered where there is one. -/
def deliverAny (r : State × Option (Fetch × Completion)) : State :=
  match r.2 with
  | some (f, c) => deliver f c r.1
  | none => r.1

end Sys2Proof.Machine
end

