-- ==== Sys2Proof/Machine/Operands.lean ====
section
/-! DEFINITION. How a row reaches its unit: a host command through the Control Port's slot (R193), a row of one
role's unit where the node has that role, a row of a link frame with its bytes read. -/

namespace Sys2Proof.Machine

/-- What a meaning answers. -/
abbrev Row := Host.Outcome State Fault Refusal

/-- A host command's row (R192, R193). -/
def hostRow (i : Instr) (act : State → State × Reply) (s : State) : Row := .next (hostCommand i act s)

/-- A row where a condition on the node stands; elsewhere there is nothing for it to act on (DEDUCED, log entry 52). -/
def rowWhere (c : State → Bool) (f : State → State) (s : State) : Row := .next (if c s then f s else s)

/-- A row of a configured node on the studio line. -/
def lineRow (f : State → State) (s : State) : Row := rowWhere onLine f s

/-- A row of a CALLER node. -/
def callerRow (f : State → State) (s : State) : Row :=
  rowWhere (fun s => onLine s && s.settings.roles.caller) f s

/-- A row of a LINK node. -/
def linkRow (f : State → State) (s : State) : Row := rowWhere (fun s => onLine s && s.settings.roles.link) f s

/-- A row of a SITE node. -/
def siteRow (f : State → State) (s : State) : Row := rowWhere atSite f s

/-- A forward frame's bytes read for the valid run that it completes (R172, R208). -/
def relockWith (bytes : List Byte) (levels : List Bool) (s : State) : State :=
  match parseForward bytes with
  | some f => relock f levels s
  | none => s

end Sys2Proof.Machine
end

