-- ==== Sys2Proof/Machine/AlertRows.lean ====
section
/-! DEFINITION. The Alert Unit's rows: one meaning for each. -/

namespace Sys2Proof.Machine

/-- ALERT_ISSUE (R139). -/
def execAlertIssue (cls repeats clip key : Word) (s : State) : Row :=
  hostRow (.alertIssue cls repeats clip key) (alertIssueCommand cls repeats clip key) s

/-- ALERT_CANCEL (R140). -/
def execAlertCancel (id : Word) (s : State) : Row := hostRow (.alertCancel id) (alertCancelCommand id) s

/-- READ_ALERTS (R156). -/
def execReadAlerts (s : State) : Row := hostRow .readAlerts readAlertsCommand s

/-- RECEIVER_BEGIN (R136). -/
def execReceiverBegin (bytes : List Byte) (s : State) : Row := .next (receiverBytes bytes s)

/-- RECEIVER_END (R137). -/
def execReceiverEnd (bytes : List Byte) (s : State) : Row := .next (receiverBytes bytes s)

/-- RECEIVER_CANCEL (R137). -/
def execReceiverCancel (bytes : List Byte) (s : State) : Row := .next (receiverBytes bytes s)

/-- RECEIVER_TIMEOUT (R135). -/
def execReceiverTimeout (s : State) : Row := .next (Sys2Proof.Machine.receiverTimeout s)

/-- RECEIVER_BAD_MESSAGE (R135). -/
def execReceiverBadMessage (bytes : List Byte) (s : State) : Row := .next (receiverBytes bytes s)

/-- ALERT_FRAME_REFRESH (R142). -/
def execAlertFrameRefresh (id : Nat) (s : State) : Row := .next (refreshFrame id s)

/-- ALERT_START (R146). -/
def execAlertStart (s : State) : Row := .next (withHold .alertAiring startAlert s)

/-- ATTENTION_END (R147). -/
def execAttentionEnd (s : State) : Row := .next (endAttention s)

/-- GAP_END (R148). -/
def execGapEnd (s : State) : Row := .next (endGap s)

/-- INTERVAL_END (R149). -/
def execIntervalEnd (id : Nat) (s : State) : Row := .next (endInterval id s)

/-- ALERT_FADE_COMPLETE (R150). -/
def execAlertFadeComplete (s : State) : Row := .next (completeAlertFade s)

/-- ALERT_EXPIRED (R152). -/
def execAlertExpired (id : Nat) (s : State) : Row := .next (expireAlert id s)

/-- ALERT_SILENT_REMOVAL (R145). -/
def execAlertSilentRemoval (id : Nat) (s : State) : Row := .next (silentRemoval id s)

end Sys2Proof.Machine
end

