-- ==== Sys2Proof/Machine/CallerRows.lean ====
section
/-! DEFINITION. The Caller Unit's rows: one meaning for each. -/

namespace Sys2Proof.Machine

/-- ANSWER_LINE (R109). -/
def execAnswerLine (line : Word) (s : State) : Row := hostRow (.answerLine line) (answerLineCommand line) s

/-- SCREEN_LINE (R113). -/
def execScreenLine (line : Word) (s : State) : Row :=
  hostRow (.screenLine line) (screeningMove .screening line) s

/-- HOLD_LINE (R113). -/
def execHoldLine (line : Word) (s : State) : Row := hostRow (.holdLine line) (screeningMove .holding line) s

/-- READY_LINE (R113). -/
def execReadyLine (line : Word) (s : State) : Row := hostRow (.readyLine line) (screeningMove .ready line) s

/-- TAKE_NEXT (R121). -/
def execTakeNext (s : State) : Row := hostRow .takeNext takeNextCommand s

/-- TAKE_CALLER (R121). -/
def execTakeCaller (node line : Word) (s : State) : Row :=
  hostRow (.takeCaller node line) (callerCommand .take node line) s

/-- DROP_CALLER (R121). -/
def execDropCaller (node line : Word) (s : State) : Row :=
  hostRow (.dropCaller node line) (callerCommand .drop node line) s

/-- HANG_UP_CALLER (R121). -/
def execHangUpCaller (node line : Word) (s : State) : Row :=
  hostRow (.hangUpCaller node line) (callerCommand .hangUp node line) s

/-- READ_LINES (R130). -/
def execReadLines (s : State) : Row := hostRow .readLines (reading readLinesReply) s

/-- READ_AIR_QUEUE (R130). -/
def execReadAirQueue (s : State) : Row := hostRow .readAirQueue (reading readAirQueueReply) s

/-- READ_REQUESTS (R130). -/
def execReadRequests (s : State) : Row := hostRow .readRequests (reading readRequestsReply) s

/-- CALL_RINGING (R108). -/
def execCallRinging (line : Fin 3) (s : State) : Row := callerRow (callRings line) s

/-- CALL_ABANDONED (R108). -/
def execCallAbandoned (line : Fin 3) (s : State) : Row := callerRow (abandonCall line) s

/-- LINE_CHECKED (R111). -/
def execLineChecked (line : Fin 3) (s : State) : Row := callerRow (completeCheck line) s

/-- LINE_DEAD_TIMEOUT (R112). -/
def execLineDeadTimeout (line : Fin 3) (s : State) : Row := callerRow (endDead line) s

/-- CALLER_GONE (R116). -/
def execCallerGone (line : Fin 3) (s : State) : Row := callerRow (loseCaller line) s

/-- CLEARING_COMPLETE (R116). -/
def execClearingComplete (line : Fin 3) (s : State) : Row := callerRow (endClearing line) s

/-- LINE_INPUT_ACCEPTED (R107). -/
def execLineInputAccepted (line : Fin 3) (contact : Contact) (s : State) : Row :=
  callerRow (acceptLineInput line contact) s

/-- REQUEST_NO_ANSWER (R123). -/
def execRequestNoAnswer (tag : Half) (s : State) : Row := .next (noAnswer tag s)

end Sys2Proof.Machine
end

