-- ==== Sys2Proof/Machine/LineRows.lean ====
section
/-! DEFINITION. The Line Unit's rows: block timing, frames on the line, line states and peers: one meaning for each. -/

namespace Sys2Proof.Machine

/-- READ_COUNTERS (R13). -/
def execReadCounters (s : State) : Row := hostRow .readCounters readCountersCommand s

/-- REJOIN (R204). -/
def execRejoin (s : State) : Row := hostRow .rejoin rejoinCommand s

/-- MARK_BEGIN (R2). -/
def execMarkBegin (elapsed : Nat) (input : BlockInput) (s : State) : Row := .next (markBegins elapsed input s)

/-- LOCAL_EXPIRY (R3). -/
def execLocalExpiry (input : BlockInput) (s : State) : Row := .next (expiryStart input s)

/-- SEND_MARK (R4). -/
def execSendMark (input : BlockInput) (s : State) : Row := .next (sendsMark input s)

/-- FRAME_OFFER (R7). -/
def execFrameOffer (offset : Nat) (s : State) : Row := .next (offerFrame offset s)

/-- ARBITRATION_LOST (R7). -/
def execArbitrationLost (s : State) : Row := .next (loseArbitration s)

/-- FRAME_SEND_COMPLETE (R8). -/
def execFrameSendComplete (s : State) : Row := .next (completeFrame s)

/-- FRAME_ABANDONED (R8). -/
def execFrameAbandoned (mark : Bool) (s : State) : Row := .next (abandonFrame mark s)

/-- READBACK_MUTE (R20). -/
def execReadbackMute (s : State) : Row := .next (Sys2Proof.Machine.readbackMute s)

/-- CONTROL_FRAME_AGED (R10). -/
def execControlFrameAged (s : State) : Row := .next (dropAged s)

/-- AUDIO_FRAME_RECEIVED (R28). -/
def execAudioFrameReceived (f : RxAudio) (s : State) : Row := .next (receiveAudio f s)

/-- ANNOUNCE_RECEIVED (R23). -/
def execAnnounceReceived (f : RxControl) (s : State) : Row := .next (receiveAnnounce f s)

/-- ALERT_FRAME_RECEIVED (R143). -/
def execAlertFrameReceived (f : RxControl) (s : State) : Row := .next (receiveAlert f s)

/-- REQUEST_RECEIVED (R124). -/
def execRequestReceived (f : RxControl) (s : State) : Row := .next (receiveRequest f s)

/-- SET_REMOTE_OUTPUT_RECEIVED (R164). -/
def execSetRemoteOutputReceived (f : RxControl) (s : State) : Row := .next (receiveRequest f s)

/-- ANSWER_RECEIVED (R126). -/
def execAnswerReceived (f : RxControl) (s : State) : Row := .next (receiveAnswer f s)

/-- LINE_JOINED_MARKS (R15). -/
def execLineJoinedMarks (s : State) : Row := .next (joinByMarks s)

/-- LINE_JOINED_ALONE (R15). -/
def execLineJoinedAlone (s : State) : Row := .next (joinAlone s)

/-- ANNOUNCE_DUE (R21). -/
def execAnnounceDue (s : State) : Row := .next (Sys2Proof.Machine.announceDue s)

/-- PEER_LOST (R24). -/
def execPeerLost (node : Fin 8) (s : State) : Row := .next (losePeer node s)

/-- PEER_ABSENT (R24). -/
def execPeerAbsent (node : Fin 8) (s : State) : Row := .next (forgetPeer node s)

/-- START_BIT_RECEIVED (R11). -/
def execStartBitReceived (s : State) : Row := .next (beginReceiving s)

/-- NO_MARK_AFTER_EXPIRY (R15). -/
def execNoMarkAfterExpiry (s : State) : Row := .next (markMissed s)

/-- INVALID_FRAME_RECEIVED (R11). -/
def execInvalidFrameReceived (f : RxFrame) (s : State) : Row := .next (receiveInvalid f s)

end Sys2Proof.Machine
end

