-- ==== Sys2Proof/Machine/LinkRows.lean ====
section
/-! DEFINITION. The Link Unit's rows, at the LINK node and at the SITE node: one meaning for each. -/

namespace Sys2Proof.Machine

/-- REMOTE_OUTPUT (R163). -/
def execRemoteOutput (output level : Word) (s : State) : Row :=
  hostRow (.remoteOutput output level) (remoteOutputCommand output level) s

/-- READ_LINK (R182). -/
def execReadLink (s : State) : Row := hostRow .readLink readLinkCommand s

/-- BACK_FRAME_RECEIVED (R158). -/
def execBackFrameReceived (bytes : List Byte) (s : State) : Row := linkRow (receiveBack bytes) s

/-- BACK_FRAME_MISSING (R159). -/
def execBackFrameMissing (s : State) : Row := linkRow declareMissing s

/-- FILLER_ON (R166). -/
def execFillerOn (s : State) : Row := linkRow fillerTurnsOn s

/-- FILLER_FADE_IN_DONE (R166). -/
def execFillerFadeInDone (s : State) : Row := linkRow fillerFadeInDone s

/-- FILLER_OFF (R166). -/
def execFillerOff (s : State) : Row := linkRow fillerTurnsOff s

/-- SITE_BLOCK_START (R14). -/
def execSiteBlockStart (input : BlockInput) (s : State) : Row :=
  .next (Sys2Proof.Machine.siteBlockStart input s)

/-- FORWARD_FRAME_RECEIVED (R170). -/
def execForwardFrameReceived (bytes : List Byte) (levels : List Bool) (s : State) : Row :=
  siteRow (receiveForward bytes levels) s

/-- MISSING_EVENT (R171). -/
def execMissingEvent (s : State) : Row := siteRow overdue s

/-- FEED_LOSS_LIMIT (R172). -/
def execFeedLossLimit (s : State) : Row := siteRow loseFeed s

/-- FEED_VALID_RUN (R172). -/
def execFeedValidRun (bytes : List Byte) (levels : List Bool) (s : State) : Row :=
  siteRow (relockWith bytes levels) s

/-- BACK_FRAME_SEND (R175). -/
def execBackFrameSend (s : State) : Row := siteRow sendBack s

/-- SITE_STATUS_ACCEPTED (R178). -/
def execSiteStatusAccepted (level : Fin 8) (s : State) : Row := siteRow (acceptStatus level) s

/-- SITE_RECEIVER_BEGIN (R179). -/
def execSiteReceiverBegin (bytes : List Byte) (s : State) : Row := .next (siteBytes bytes s)

/-- SITE_RECEIVER_END (R179). -/
def execSiteReceiverEnd (bytes : List Byte) (s : State) : Row := .next (siteBytes bytes s)

/-- SITE_RECEIVER_CANCEL (R179). -/
def execSiteReceiverCancel (bytes : List Byte) (s : State) : Row := .next (siteBytes bytes s)

/-- SITE_RECEIVER_ERROR (R179). -/
def execSiteReceiverError (bytes : List Byte) (s : State) : Row := .next (siteBytes bytes s)

/-- SITE_ALERT_EXPIRY (R179). -/
def execSiteAlertExpiry (key : Word) (s : State) : Row := siteRow (expireSiteAlert key) s

/-- SITE_ALERT_AIRING (R181). -/
def execSiteAlertAiring (s : State) : Row := siteRow startSiteAlert s

/-- SITE_ATTENTION_END (R181). -/
def execSiteAttentionEnd (s : State) : Row := siteRow endSiteAttention s

/-- SITE_GAP_END (R181). -/
def execSiteGapEnd (s : State) : Row := siteRow endSiteGap s

/-- SITE_ALERT_CUT_DONE (R181). -/
def execSiteAlertCutDone (s : State) : Row := siteRow completeSiteCut s

end Sys2Proof.Machine
end

