-- ==== Sys2Proof/Machine/MixRows.lean ====
section
/-! DEFINITION. The rows of the Contribution Unit and the Mix Engine: one meaning for each. -/

namespace Sys2Proof.Machine

/-- READ_CHANNELS (R40). -/
def execReadChannels (s : State) : Row := hostRow .readChannels (reading readChannelsReply) s

/-- READ_TIERS (R40). -/
def execReadTiers (s : State) : Row := hostRow .readTiers (reading readTiersReply) s

/-- SET_GAIN (R46). -/
def execSetGain (slot gain : Word) (s : State) : Row :=
  hostRow (.setGain slot gain) (setGainCommand slot gain) s

/-- SET_CHANNEL (R49). -/
def execSetChannel (slot air cue : Word) (s : State) : Row :=
  hostRow (.setChannel slot air cue) (setChannelCommand slot air cue) s

/-- SET_TRIM (R52). -/
def execSetTrim (bus trim : Word) (s : State) : Row := hostRow (.setTrim bus trim) (setTrimCommand bus trim) s

/-- READ_METERS (R58). -/
def execReadMeters (s : State) : Row := hostRow .readMeters readMetersCommand s

/-- CHANNEL_GONE (R34). -/
def execChannelGone (node slot : Fin 8) (s : State) : Row := .next (removeGone node slot s)

/-- PROGRAM_SILENT (R59). -/
def execProgramSilent (s : State) : Row := .next (becomeSilent s)

/-- PROGRAM_RESTORED (R59). -/
def execProgramRestored (s : State) : Row := .next (becomeSounding s)

end Sys2Proof.Machine
end

