-- ==== Sys2Proof/Machine/PanelRows.lean ====
section
/-! DEFINITION. The Tone Generator's rows: one meaning for each. -/

namespace Sys2Proof.Machine

/-- LINE_UP_ON (R187). -/
def execLineUpOn (route : Word) (s : State) : Row := hostRow (.lineUpOn route) (startLineUp route) s

/-- LINE_UP_OFF (R187). -/
def execLineUpOff (s : State) : Row := hostRow .lineUpOff stopLineUp s

/-- READ_PANEL (R191). -/
def execReadPanel (s : State) : Row := hostRow .readPanel (reading readPanelReply) s

/-- INPUT_CHANGE (R189). -/
def execInputChange (input : Fin 4) (s : State) : Row := lineRow (acceptInput input) s

end Sys2Proof.Machine
end

