-- ==== Sys2Proof/Machine/PlayoutRows.lean ====
section
/-! DEFINITION. The Playout Unit's rows: one meaning for each. -/

namespace Sys2Proof.Machine

/-- CUE_INSERT (R81). -/
def execCueInsert
    (position tag kind source startMode startTime gain fadeIn fadeOut tier hold endAction : Word) (s : State) : Row :=
  hostRow (.cueInsert position tag kind source startMode startTime gain fadeIn fadeOut tier hold
    endAction) (cueInsertCommand position tag kind source startMode startTime gain fadeIn fadeOut tier hold endAction) s

/-- CUE_REMOVE (R82). -/
def execCueRemove (tag : Word) (s : State) : Row := hostRow (.cueRemove tag) (cueRemoveCommand tag) s

/-- CUE_MOVE (R83). -/
def execCueMove (tag position : Word) (s : State) : Row :=
  hostRow (.cueMove tag position) (cueMoveCommand tag position) s

/-- CUE_GAIN (R84). -/
def execCueGain (tag gain : Word) (s : State) : Row := hostRow (.cueGain tag gain) (cueGainCommand tag gain) s

/-- PLAY (R91). -/
def execPlay (s : State) : Row := hostRow .play playCommand s

/-- STOP (R95). -/
def execStop (tag : Word) (s : State) : Row := hostRow (.stop tag) (stopCommand tag) s

/-- SEAT_RESET (R104). -/
def execSeatReset (s : State) : Row := hostRow .seatReset seatResetCommand s

/-- READ_CUE (R105). -/
def execReadCue (s : State) : Row := hostRow .readCue (reading readCueReply) s

/-- READ_PLAYER (R105). -/
def execReadPlayer (player : Word) (s : State) : Row :=
  hostRow (.readPlayer player) (readPlayerCommand player) s

/-- READ_SEAT (R105). -/
def execReadSeat (s : State) : Row := hostRow .readSeat (reading readSeatReply) s

/-- PLAYER_LOAD (R87). -/
def execPlayerLoad (s : State) : Row := .next (Sys2Proof.Machine.playerLoad s)

/-- ENTRY_DUE_AT_TIME (R90). -/
def execEntryDueAtTime (tag : Half) (s : State) : Row := .next (dueAtTime tag s)

/-- SEGUE_POINT_REACHED (R93). -/
def execSeguePointReached (player : Fin 2) (s : State) : Row := .next (reachSegue player s)

/-- PLAYER_ENDING (R94). -/
def execPlayerEnding (player : Fin 2) (s : State) : Row := .next (beginEnding player s)

/-- HOLD_FADE_COMPLETE (R99). -/
def execHoldFadeComplete (player : Fin 2) (s : State) : Row := .next (completeHoldFade player s)

/-- PLAYERS_RELEASED (R100). -/
def execPlayersReleased (s : State) : Row := .next (releasePlayers s)

/-- SEAT_HOLDING (R102). -/
def execSeatHolding (s : State) : Row := .next (holdSeat s)

/-- SEAT_YIELDED (R103). -/
def execSeatYielded (s : State) : Row := .next (yieldSeat s)

/-- YIELD_TIMER_EXPIRY (R104). -/
def execYieldTimerExpiry (s : State) : Row := .next (endYield s)

end Sys2Proof.Machine
end

