-- ==== Sys2Proof/Machine/PortRows.lean ====
section
/-! DEFINITION. The Control Port's rows: power, reset, start-up, and the port's own commands: one meaning for each. -/

namespace Sys2Proof.Machine

/-- POWER_ON (R205). -/
def execPowerOn (s : State) : Row := .next (putReset s)

/-- RESET_ASSERTED (R205). -/
def execResetAsserted (s : State) : Row := .next (putReset s)

/-- RESET_RELEASED (R203). -/
def execResetReleased (boot : Bool) (s : State) : Row := .next (releaseReset boot s)

/-- FLASH_READ_COMPLETE (R203). -/
def execFlashReadComplete (flash : Option (List Byte)) (s : State) : Row := .next (endFlashRead flash s)

/-- COMMAND_WRITE_COMPLETE (R192). -/
def execCommandWriteComplete (bytes : List Byte) (s : State) : Row := .next (writeComplete bytes s)

/-- RESPONSE_READ_COMPLETE (R192). -/
def execResponseReadComplete (s : State) : Row := .next (readComplete s)

/-- CONFIGURE (R199). -/
def execConfigure (image : List Byte) (s : State) : Row := hostRow (.configure image) (configureCommand image) s

/-- READ_STATUS (R198). -/
def execReadStatus (s : State) : Row := hostRow .readStatus readStatusCommand s

/-- READ_NOTICE (R196). -/
def execReadNotice (s : State) : Row := hostRow .readNotice readNoticeCommand s

end Sys2Proof.Machine
end

