-- ==== Sys2Proof/Machine/StoreRows.lean ====
section
/-! DEFINITION. The Clip Store's rows: one meaning for each. -/

namespace Sys2Proof.Machine

/-- DEFINE_CLIP (R66). -/
def execDefineClip (clip format length : Word) (extents : List Word) (s : State) : Row :=
  hostRow (.defineClip clip format length extents) (defineClip clip format length extents) s

/-- CLIP_DATA (R69). -/
def execClipData (clip offset : Word) (bytes : List Byte) (s : State) : Row :=
  hostRow (.clipData clip offset bytes) (clipData clip offset bytes) s

/-- SEAL_CLIP (R71). -/
def execSealClip (clip : Word) (s : State) : Row := hostRow (.sealClip clip) (sealClip clip) s

/-- DELETE_CLIP (R68). -/
def execDeleteClip (clip : Word) (s : State) : Row := hostRow (.deleteClip clip) (deleteClip clip) s

/-- SET_CLIP (R67). -/
def execSetClip (clip trim segue : Word) (s : State) : Row :=
  hostRow (.setClip clip trim segue) (setClipValues clip trim segue) s

/-- SET_GROUP (R77). -/
def execSetGroup (group mode : Word) (clips : List Word) (start : Word) (s : State) : Row :=
  hostRow (.setGroup group mode clips start) (setGroup group mode clips start) s

/-- CLEAR_GROUP (R77). -/
def execClearGroup (group : Word) (s : State) : Row := hostRow (.clearGroup group) (clearGroup group) s

/-- READ_CLIP (R79). -/
def execReadClip (clip : Word) (s : State) : Row := hostRow (.readClip clip) (reading (readClipReply clip)) s

/-- READ_GROUP (R79). -/
def execReadGroup (group : Word) (s : State) : Row :=
  hostRow (.readGroup group) (reading (readGroupReply group)) s

/-- READ_EXTENTS (R79). -/
def execReadExtents (first count : Word) (s : State) : Row :=
  hostRow (.readExtents first count) (reading (readExtentsReply first count)) s

/-- DRAM_WRITE_GRANT (R72). -/
def execDramWriteGrant (s : State) : Row := .next (grantWrite s)

/-- DRAM_WRITE_COMPLETE (R70). -/
def execDramWriteComplete (s : State) : Row := .next (completeWrite s)

/-- FETCH_REQUEST (R73). -/
def execFetchRequest (reader : Reader) (s : State) : Row := .next (askFetch reader s)

/-- FETCH_GRANT (R72). -/
def execFetchGrant (s : State) : Row := .next (deliverAny (grantFetch s))

/-- FETCH_COMPLETE (R88). -/
def execFetchComplete (s : State) : Row := .next (deliverAny (finishFetch s))

end Sys2Proof.Machine
end

