-- ==== Sys2Proof/Machine/Dispatch.lean ====
section
/-! DEFINITION. The dispatch: one arm for each command and event. -/

namespace Sys2Proof.Machine

def exec (i : Instr) (s : State) : Host.Outcome State Fault Refusal :=
  match i with
  | .powerOn => Sys2Proof.Machine.execPowerOn s
  | .resetAsserted => Sys2Proof.Machine.execResetAsserted s
  | .resetReleased boot => Sys2Proof.Machine.execResetReleased boot s
  | .flashReadComplete flash => Sys2Proof.Machine.execFlashReadComplete flash s
  | .commandWriteComplete bytes => Sys2Proof.Machine.execCommandWriteComplete bytes s
  | .responseReadComplete => Sys2Proof.Machine.execResponseReadComplete s
  | .readCounters => Sys2Proof.Machine.execReadCounters s
  | .rejoin => Sys2Proof.Machine.execRejoin s
  | .readChannels => Sys2Proof.Machine.execReadChannels s
  | .readTiers => Sys2Proof.Machine.execReadTiers s
  | .setGain slot gain => Sys2Proof.Machine.execSetGain slot gain s
  | .setChannel slot air cue => Sys2Proof.Machine.execSetChannel slot air cue s
  | .setTrim bus trim => Sys2Proof.Machine.execSetTrim bus trim s
  | .readMeters => Sys2Proof.Machine.execReadMeters s
  | .defineClip clip format length extents => Sys2Proof.Machine.execDefineClip clip format length extents s
  | .clipData clip offset bytes => Sys2Proof.Machine.execClipData clip offset bytes s
  | .sealClip clip => Sys2Proof.Machine.execSealClip clip s
  | .deleteClip clip => Sys2Proof.Machine.execDeleteClip clip s
  | .setClip clip trim segue => Sys2Proof.Machine.execSetClip clip trim segue s
  | .setGroup group mode clips start => Sys2Proof.Machine.execSetGroup group mode clips start s
  | .clearGroup group => Sys2Proof.Machine.execClearGroup group s
  | .readClip clip => Sys2Proof.Machine.execReadClip clip s
  | .readGroup group => Sys2Proof.Machine.execReadGroup group s
  | .readExtents first count => Sys2Proof.Machine.execReadExtents first count s
  | .cueInsert position tag kind source startMode startTime gain fadeIn fadeOut tier hold endAction => Sys2Proof.Machine.execCueInsert position tag kind source startMode startTime gain fadeIn fadeOut tier hold endAction s
  | .cueRemove tag => Sys2Proof.Machine.execCueRemove tag s
  | .cueMove tag position => Sys2Proof.Machine.execCueMove tag position s
  | .cueGain tag gain => Sys2Proof.Machine.execCueGain tag gain s
  | .play => Sys2Proof.Machine.execPlay s
  | .stop tag => Sys2Proof.Machine.execStop tag s
  | .seatReset => Sys2Proof.Machine.execSeatReset s
  | .readCue => Sys2Proof.Machine.execReadCue s
  | .readPlayer player => Sys2Proof.Machine.execReadPlayer player s
  | .readSeat => Sys2Proof.Machine.execReadSeat s
  | .answerLine line => Sys2Proof.Machine.execAnswerLine line s
  | .screenLine line => Sys2Proof.Machine.execScreenLine line s
  | .holdLine line => Sys2Proof.Machine.execHoldLine line s
  | .readyLine line => Sys2Proof.Machine.execReadyLine line s
  | .takeNext => Sys2Proof.Machine.execTakeNext s
  | .takeCaller node line => Sys2Proof.Machine.execTakeCaller node line s
  | .dropCaller node line => Sys2Proof.Machine.execDropCaller node line s
  | .hangUpCaller node line => Sys2Proof.Machine.execHangUpCaller node line s
  | .readLines => Sys2Proof.Machine.execReadLines s
  | .readAirQueue => Sys2Proof.Machine.execReadAirQueue s
  | .readRequests => Sys2Proof.Machine.execReadRequests s
  | .remoteOutput output level => Sys2Proof.Machine.execRemoteOutput output level s
  | .alertIssue cls repeats clip key => Sys2Proof.Machine.execAlertIssue cls repeats clip key s
  | .alertCancel id => Sys2Proof.Machine.execAlertCancel id s
  | .readAlerts => Sys2Proof.Machine.execReadAlerts s
  | .readLink => Sys2Proof.Machine.execReadLink s
  | .lineUpOn route => Sys2Proof.Machine.execLineUpOn route s
  | .lineUpOff => Sys2Proof.Machine.execLineUpOff s
  | .readPanel => Sys2Proof.Machine.execReadPanel s
  | .configure image => Sys2Proof.Machine.execConfigure image s
  | .readStatus => Sys2Proof.Machine.execReadStatus s
  | .readNotice => Sys2Proof.Machine.execReadNotice s
  | .markBegin elapsed input => Sys2Proof.Machine.execMarkBegin elapsed input s
  | .localExpiry input => Sys2Proof.Machine.execLocalExpiry input s
  | .sendMark input => Sys2Proof.Machine.execSendMark input s
  | .siteBlockStart input => Sys2Proof.Machine.execSiteBlockStart input s
  | .frameOffer offset => Sys2Proof.Machine.execFrameOffer offset s
  | .arbitrationLost => Sys2Proof.Machine.execArbitrationLost s
  | .frameSendComplete => Sys2Proof.Machine.execFrameSendComplete s
  | .frameAbandoned mark => Sys2Proof.Machine.execFrameAbandoned mark s
  | .readbackMute => Sys2Proof.Machine.execReadbackMute s
  | .controlFrameAged => Sys2Proof.Machine.execControlFrameAged s
  | .audioFrameReceived f => Sys2Proof.Machine.execAudioFrameReceived f s
  | .announceReceived f => Sys2Proof.Machine.execAnnounceReceived f s
  | .alertFrameReceived f => Sys2Proof.Machine.execAlertFrameReceived f s
  | .requestReceived f => Sys2Proof.Machine.execRequestReceived f s
  | .setRemoteOutputReceived f => Sys2Proof.Machine.execSetRemoteOutputReceived f s
  | .answerReceived f => Sys2Proof.Machine.execAnswerReceived f s
  | .lineJoinedMarks => Sys2Proof.Machine.execLineJoinedMarks s
  | .lineJoinedAlone => Sys2Proof.Machine.execLineJoinedAlone s
  | .announceDue => Sys2Proof.Machine.execAnnounceDue s
  | .peerLost node => Sys2Proof.Machine.execPeerLost node s
  | .peerAbsent node => Sys2Proof.Machine.execPeerAbsent node s
  | .channelGone node slot => Sys2Proof.Machine.execChannelGone node slot s
  | .programSilent => Sys2Proof.Machine.execProgramSilent s
  | .programRestored => Sys2Proof.Machine.execProgramRestored s
  | .dramWriteGrant => Sys2Proof.Machine.execDramWriteGrant s
  | .dramWriteComplete => Sys2Proof.Machine.execDramWriteComplete s
  | .fetchRequest reader => Sys2Proof.Machine.execFetchRequest reader s
  | .fetchGrant => Sys2Proof.Machine.execFetchGrant s
  | .fetchComplete => Sys2Proof.Machine.execFetchComplete s
  | .playerLoad => Sys2Proof.Machine.execPlayerLoad s
  | .entryDueAtTime tag => Sys2Proof.Machine.execEntryDueAtTime tag s
  | .seguePointReached player => Sys2Proof.Machine.execSeguePointReached player s
  | .playerEnding player => Sys2Proof.Machine.execPlayerEnding player s
  | .holdFadeComplete player => Sys2Proof.Machine.execHoldFadeComplete player s
  | .playersReleased => Sys2Proof.Machine.execPlayersReleased s
  | .seatHolding => Sys2Proof.Machine.execSeatHolding s
  | .seatYielded => Sys2Proof.Machine.execSeatYielded s
  | .yieldTimerExpiry => Sys2Proof.Machine.execYieldTimerExpiry s
  | .callRinging line => Sys2Proof.Machine.execCallRinging line s
  | .callAbandoned line => Sys2Proof.Machine.execCallAbandoned line s
  | .lineChecked line => Sys2Proof.Machine.execLineChecked line s
  | .lineDeadTimeout line => Sys2Proof.Machine.execLineDeadTimeout line s
  | .callerGone line => Sys2Proof.Machine.execCallerGone line s
  | .clearingComplete line => Sys2Proof.Machine.execClearingComplete line s
  | .lineInputAccepted line contact => Sys2Proof.Machine.execLineInputAccepted line contact s
  | .requestNoAnswer tag => Sys2Proof.Machine.execRequestNoAnswer tag s
  | .receiverBegin bytes => Sys2Proof.Machine.execReceiverBegin bytes s
  | .receiverEnd bytes => Sys2Proof.Machine.execReceiverEnd bytes s
  | .receiverCancel bytes => Sys2Proof.Machine.execReceiverCancel bytes s
  | .receiverTimeout => Sys2Proof.Machine.execReceiverTimeout s
  | .alertFrameRefresh id => Sys2Proof.Machine.execAlertFrameRefresh id s
  | .alertStart => Sys2Proof.Machine.execAlertStart s
  | .attentionEnd => Sys2Proof.Machine.execAttentionEnd s
  | .gapEnd => Sys2Proof.Machine.execGapEnd s
  | .intervalEnd id => Sys2Proof.Machine.execIntervalEnd id s
  | .alertFadeComplete => Sys2Proof.Machine.execAlertFadeComplete s
  | .alertExpired id => Sys2Proof.Machine.execAlertExpired id s
  | .alertSilentRemoval id => Sys2Proof.Machine.execAlertSilentRemoval id s
  | .backFrameReceived bytes => Sys2Proof.Machine.execBackFrameReceived bytes s
  | .backFrameMissing => Sys2Proof.Machine.execBackFrameMissing s
  | .fillerOn => Sys2Proof.Machine.execFillerOn s
  | .fillerFadeInDone => Sys2Proof.Machine.execFillerFadeInDone s
  | .fillerOff => Sys2Proof.Machine.execFillerOff s
  | .forwardFrameReceived bytes levels => Sys2Proof.Machine.execForwardFrameReceived bytes levels s
  | .missingEvent => Sys2Proof.Machine.execMissingEvent s
  | .feedLossLimit => Sys2Proof.Machine.execFeedLossLimit s
  | .feedValidRun bytes levels => Sys2Proof.Machine.execFeedValidRun bytes levels s
  | .backFrameSend => Sys2Proof.Machine.execBackFrameSend s
  | .siteStatusAccepted level => Sys2Proof.Machine.execSiteStatusAccepted level s
  | .siteReceiverBegin bytes => Sys2Proof.Machine.execSiteReceiverBegin bytes s
  | .siteReceiverEnd bytes => Sys2Proof.Machine.execSiteReceiverEnd bytes s
  | .siteReceiverCancel bytes => Sys2Proof.Machine.execSiteReceiverCancel bytes s
  | .siteAlertExpiry key => Sys2Proof.Machine.execSiteAlertExpiry key s
  | .siteAlertAiring => Sys2Proof.Machine.execSiteAlertAiring s
  | .siteAttentionEnd => Sys2Proof.Machine.execSiteAttentionEnd s
  | .siteGapEnd => Sys2Proof.Machine.execSiteGapEnd s
  | .siteAlertCutDone => Sys2Proof.Machine.execSiteAlertCutDone s
  | .inputChange input => Sys2Proof.Machine.execInputChange input s
  | .startBitReceived => Sys2Proof.Machine.execStartBitReceived s
  | .noMarkAfterExpiry => Sys2Proof.Machine.execNoMarkAfterExpiry s
  | .invalidFrameReceived f => Sys2Proof.Machine.execInvalidFrameReceived f s
  | .receiverBadMessage bytes => Sys2Proof.Machine.execReceiverBadMessage bytes s
  | .siteReceiverError bytes => Sys2Proof.Machine.execSiteReceiverError bytes s

end Sys2Proof.Machine
end

