-- ==== Sys2Proof/Safety.lean ====
section
/-! DEFINITION. What the claims speak of: the legal states of the port, of reset and of start-up, what may change beside a
unit's own state, when a host command is acted on, and what a block start does to a contact filter, a caller line and a cue
entry. -/

namespace Sys2Proof.Machine

/-! ## Invariants -/

/-- The port's legal states (R192, R195, R197): the queue and the dropped count within their bounds, the INT lines as
the queue and the routing give them, RDY high and a response held in READY alone, a command held in ACTING alone,
and the PORT_BUSY flag set in ACTING alone. -/
structure PortOk (cp : ControlPort) : Prop where
  queue : cp.notices.length ≤ 32
  dropped : cp.dropped ≤ 255
  ints : cp.ints = intLines cp.routing cp.notices
  rdy : cp.rdy = true ↔ cp.port = .ready
  response : cp.response.isSome = true ↔ cp.port = .ready
  slot : cp.slot.isSome = true ↔ cp.port = .acting
  busy : cp.busyFlag = true → cp.port = .acting

/-- The legal states of reset, device and flash read (R199, R203, R205): a part held in reset is UNCONFIGURED, its port
IDLE and no flash read under way, and a RUNNING part reads no flash. -/
structure BootOk (cp : ControlPort) : Prop where
  held : cp.resetHeld = true → cp.device = .unconfigured ∧ cp.port = .idle ∧ cp.boot ≠ .reading
  running : cp.device = .running → cp.boot ≠ .reading

/-! ## What posting a notice changes -/

/-- The Control Port after some notices have been posted, and nothing else: the queue has only grown, and only the
dropped count and the INT lines have followed (R195, R197). -/
structure Posted (a b : ControlPort) : Prop where
  same : b = { a with notices := b.notices, dropped := b.dropped, ints := b.ints }
  grows : a.notices <+: b.notices
  counts : a.dropped ≤ 255 → a.dropped ≤ b.dropped ∧ b.dropped ≤ 255
  sound : PortOk a → PortOk b

/-! ## Host commands -/

/-- The Control Port is ACTING on host command `i`, held as the message `m` (R192). -/
structure Acting (s : State) (i : Instr) (m : CommandMessage) : Prop where
  port : s.cp.port = .acting
  slot : s.cp.slot = some m
  reads : decodeCommand m.type.toNat m.params = some i

/-- A host command acted on by a part that has taken an image (R193). -/
structure Running (s : State) (i : Instr) (m : CommandMessage) : Prop where
  acting : Acting s i m
  running : s.cp.device = .running

/-- The state with the command answered: the response enters its slot with the PORT_BUSY flag, RDY rises, and the
port is READY (R192). -/
def answer (m : CommandMessage) (c : ResultCode) (data : List Word) (s : State) : State :=
  { s with cp := s.cp.respond m.type m.tag ⟨c, data⟩ }

/-! ## Fill queue entries -/

/-- The bytes that a fill queue entry carries (R69): an address entry carries none. -/
def FillEntry.bytes : FillEntry → List Byte
  | .address _ => []
  | .data _ l => l

/-! ## The acceptance of an image -/

/-- What the acceptance of an image does (R202): every unit takes its values from it, each defined capture clip takes its
map and owns its extents (R74), the LU draws a stamp and enters
LISTENING (or stays OFFLINE with its timer started, at a SITE node), the XU sets the safe levels, the TG's filters
start from INACTIVE, the routing is in force, CONFIGURED is posted, and the units that take nothing else are left. -/
structure Accepted (src : ImageSource) (st : Settings) (s t : State) : Prop where
  device : t.cp.device = .running
  settings : t.settings = st
  routing : t.cp.routing = st.routing
  ints : t.cp.ints = intLines st.routing t.cp.notices
  notice : s.cp.notices.length < 31 → t.cp.notices.getLast?
    = some ⟨.configured, 0, [word st.nodeId, word (Roles.code st.roles), word src.ctorIdx]⟩
  clock : t.clock = ⟨0, true, 0, none, false⟩
  line : st.roles.site = false → t.lu.state = .listening ∧ t.lu.goodMarks = 0 ∧ t.lu.noMarks = 0
    ∧ t.lu.stamp ≠ s.lu.stamp
  offline : st.roles.site = true → t.lu = s.lu
  self : t.peers = s.peers.put st.nodeId ⟨.self, t.lu.stamp, st.roles, 0, none⟩
  captures : ∀ (k : Fin 4) (d : CaptureDef), Tab.at st.captures k = some d →
    clipAt t ⟨252 + k.val, by omega⟩ = { Clip.empty with map := d.extents, capacity := d.capacity, length := d.capacity }
  store : t.cs = { s.cs with owner := t.cs.owner, directory := t.cs.directory }
  others : ∀ c : Fin 256, (∀ (k : Fin 4) (d : CaptureDef), Tab.at st.captures k = some d → c.val ≠ 252 + k.val) →
    clipAt t c = clipAt s c
  owned : ∀ (k : Fin 4) (d : CaptureDef) (e : Fin 512), Tab.at st.captures k = some d → e ∈ d.extents →
    Tab.at t.cs.owner e = some ⟨252 + k.val, by omega⟩
  left : ∀ e : Fin 512, (∀ (k : Fin 4) (d : CaptureDef), Tab.at st.captures k = some d → e ∉ d.extents) →
    Tab.at t.cs.owner e = Tab.at s.cs.owner e
  outputs : st.roles.link = true → st.roles.site = false → t.link.outputs = st.safeLevels
  noFeed : st.roles.site = true → t.site.state = .noFeed ∧ t.site.levels = st.safeLevels
  filters : t.tg.inputs = Vector.replicate 4 Filter.reset
  same : t.tx = s.tx ∧ t.counters = s.counters ∧ t.cu = s.cu ∧ t.me = s.me ∧ t.dram = s.dram ∧ t.pu = s.pu
    ∧ t.ku = s.ku ∧ t.au = s.au ∧ t.pending = s.pending

/-! ## A caller line's change of state -/

/-- A caller line's change of state (R106, R110, R113 to R117, R120): line `l` stands in `new` with its hook ON in
the seized states and DEAD, its timer and ready age at 0 and its voice given back on leaving CHECKING; the on-air
count, the Air Queue and the owed END block follow; one notice of kind `k` tells the line, both states and `extra`,
alone unless READY is left or entered; the other lines change at most in a voice that leaving CHECKING frees. -/
structure LineMoved (l : Fin 3) (new : CallState) (k : NoticeKind) (extra : List Word) (s t : State) : Prop where
  frame : t = { s with
    cp := t.cp
    ku := { s.ku with lines := t.ku.lines, onAir := t.ku.onAir, airQueue := t.ku.airQueue }
    me := { s.me with endOwed := t.me.endOwed }
    tg := { s.tg with voices := t.tg.voices, waitList := t.tg.waitList, lineUp := t.tg.lineUp } }
  line : lineAt t l = { lineAt s l with
    state := new
    hook := new = .checking || new = .screening || new = .holding || new = .ready || new = .onAir || new = .dead
    timer := 0
    readyAge := 0
    poorHybrid := (lineAt s l).poorHybrid && new != .idle
    voice := (lineAt t l).voice }
  voice : ((lineAt s l).state ≠ .checking → (lineAt t l).voice = (lineAt s l).voice)
    ∧ ((lineAt s l).state = .checking → Holder.line l ∉ s.tg.waitList ∨ (lineAt s l).voice = .waiting →
      (lineAt t l).voice = .none)
  others : ∀ j, j ≠ l → lineAt t j = { lineAt s j with voice := (lineAt t j).voice }
  tones : (lineAt s l).state ≠ .checking → t.tg = s.tg ∧ ∀ j, j ≠ l → lineAt t j = lineAt s j
  onAir : t.ku.onAir = if (lineAt s l).state = .onAir then (if new = .onAir then s.ku.onAir else s.ku.onAir - 1)
    else if new = .onAir then s.ku.onAir + 1 else s.ku.onAir
  told : Posted (s.cp.post ⟨k, s.clock.blockCount,
    [word (l.val + 1), word (lineAt s l).state.ctorIdx, word new.ctorIdx] ++ extra⟩) t.cp
  alone : (lineAt s l).state ≠ .ready → new ≠ .ready → t.ku.airQueue = s.ku.airQueue ∧ t.cp = s.cp.post
    ⟨k, s.clock.blockCount, [word (l.val + 1), word (lineAt s l).state.ctorIdx, word new.ctorIdx] ++ extra⟩
  leaves : (lineAt s l).state = .ready → new ≠ .ready →
    t.ku.airQueue = s.ku.airQueue.filter fun e => !(e.node == s.settings.nodeId && e.line == l)
  joins : (lineAt s l).state ≠ .ready → new = .ready → s.settings.roles.caller = true →
    airFind s.settings.nodeId l s = none →
      t.ku.airQueue = airInsert s.clock.blockCount ⟨s.settings.nodeId, l, s.clock.blockCount⟩ s.ku.airQueue
  owed : ∀ i, Tab.at t.me.endOwed i = true ↔ Tab.at s.me.endOwed i = true
    ∨ (i.val = l.val + 5 ∧ Tab.at s.me.produced i = true ∧ slotFlags i t = none)

/-! ## The contact filter -/

/-- What one sample does to a contact filter (R107, R178, R189): a hold-off counts down and leaves the run at 0; else a sample
that differs from the accepted level lengthens the run, and an equal one clears it; a run of 3 accepts the level, with the
hold-off at 64. -/
structure ContactFilter : Prop where
  holdsOff : ∀ (f : Filter) (b : Bool), 0 < f.holdOff → f.count b = { f with holdOff := f.holdOff - 1, run := 0 }
  differs : ∀ (f : Filter) (b : Bool), f.holdOff = 0 → b ≠ f.level → f.count b = { f with run := f.run + 1 }
  equals : ∀ (f : Filter) (b : Bool), f.holdOff = 0 → b = f.level → f.count b = { f with run := 0 }
  accepts : ∀ (f : Filter) (b : Bool), 3 ≤ (f.count b).run → f.sample b = ⟨!f.level, 0, 64⟩
  waits : ∀ (f : Filter) (b : Bool), (f.count b).run < 3 → f.sample b = f.count b

/-! ## A caller line at a block start -/

/-- A line's record once its filters have taken a block start's samples (R107, R178). -/
def CallLine.sampled (x : CallLine) (ring loop : Bool) : CallLine :=
  { x with ring := x.ring.sample ring, loop := x.loop.sample loop }

/-- The loop-absent count of a seized line at a block start (R116). -/
def CallLine.loopCounted (x : CallLine) : CallLine :=
  { x with loopAbsent := if x.loop.level then 0 else min 200 (x.loopAbsent + 1) }

/-- The check count of a line that holds its voice, and the check peak in the last half, rounded down, of a check of `len`
blocks (R110). -/
def CallLine.checked (x : CallLine) (len : Nat) (ups : List Int) : CallLine :=
  { x with
    checkCount := min 512 (x.checkCount + 1)
    checkPeak := if len - len / 2 < min 512 (x.checkCount + 1) then
        max x.checkPeak ((ups.map Int.natAbs).foldl max 0)
      else x.checkPeak }

/-- What a block start does to caller line `l` of a CALLER node, which `held` its voice before it (R107, R108, R110, R112,
R114, R116): the filters take the samples, a ring acceptance makes an IDLE line ring, the state's own count is taken, and the
count that has reached its limit ends the state as its row does. -/
structure LineTicked (l : Fin 3) (held ring loop : Bool) (ups : List Int) (s t : State) : Prop where
  idle : (lineAt s l).state = .idle → let y := (lineAt s l).sampled ring loop
    ((lineAt s l).ring.level = false → y.ring.level = true → LineMoved l .ringing .callRinging [word 2] (setLine l y s) t)
    ∧ ((lineAt s l).ring.level = true ∨ y.ring.level = false → t = setLine l y s)
  timed : ∀ i st, (i, st) ∈ [(Instr.callAbandoned l, CallState.ringing), (.lineDeadTimeout l, .dead),
      (.clearingComplete l, .clearing)] → (lineAt s l).state = st → let y := (lineAt s l).sampled ring loop
    exec i (setLine l { y with
      timer := if st = .ringing ∧ y.ring.level = true then 0 else min 8000 (y.timer + 1) } s) = .next t
  gone : (lineAt s l).state ∈ [CallState.checking, .screening, .holding, .ready, .onAir] →
    let z := ((lineAt s l).sampled ring loop).loopCounted
    200 ≤ z.loopAbsent → exec (.callerGone l) (setLine l z s) = .next t
  counts : let z := ((lineAt s l).sampled ring loop).loopCounted
    z.loopAbsent < 200 →
    ((lineAt s l).state ∈ [CallState.screening, .holding, .onAir] → t = setLine l z s)
    ∧ ((lineAt s l).state = .ready → t = setLine l { z with readyAge := min 65535 (z.readyAge + 1) } s)
    ∧ ((lineAt s l).state = .checking →
      (held = false ∨ (∀ v, z.voice ≠ .held v) → t = setLine l z s)
      ∧ (∀ v, held = true → z.voice = .held v →
        exec (.lineChecked l) (setLine l (z.checked s.settings.checkLength ups) s) = .next t))

/-! ## Alert records -/

/-- The record is in the table, and no other shares its alert id (R132). -/
def Sole (r : Alert) (s : State) : Prop := r ∈ s.au.table ∧ ∀ x ∈ s.au.table, x.id = r.id → x = r

/-- The control transmit queue has a place, or the node is not JOINED and hands no ALERT frame (R10, R142). -/
def FrameRoom (s : State) : Prop := s.lu.state = .joined → s.tx.control.length < 8

/-- The state in which record `r` stands as `r'`, its ALERT frame handed in JOINED (R142). -/
def alertChanged (r r' : Alert) (s : State) : State :=
  if s.lu.state = .joined then
    queueControl (.alert (alertBody r' none)) { s with au := { s.au with table := s.au.table.map fun a =>
      if a.id = r.id then { r' with sinceFrame := 0 } else a } }
  else { s with au := { s.au with table := s.au.table.map fun a => if a.id = r.id then r' else a } }

/-- The control transmit queue has two places, or the node is not JOINED and hands no ALERT frame (R10, R142). -/
def FramesRoom (s : State) : Prop := s.lu.state = .joined → s.tx.control.length < 7

/-- The cut of the airing of the record with an alert id (R150): before its first block the player is IDLE at once, voice 0
and the clip are given back, a capture clip that no record names is released; later it fades over 8 blocks; a fade goes on,
and an airing of another record is left. -/
structure AiringCut (id : Nat) (s t : State) : Prop where
  frame : t = { s with
    au := { s.au with player := t.au.player }
    cs := t.cs
    me := { s.me with alertEnvelope := t.me.alertEnvelope }
    tg := { s.tg with voices := t.tg.voices } }
  left : s.au.player.alert ≠ some id ∨ s.au.player.state = .idle
    ∨ (s.au.player.state = .fading ∧ s.au.player.handed = true) → t = s
  fades : s.au.player.alert = some id → s.au.player.handed = true →
    s.au.player.state ∈ [AlertPlay.tone, .silent, .message] → t = { s with
      au := { s.au with player := { s.au.player with cutFrom := s.au.player.state, state := .fading } }
      me := { s.me with alertEnvelope := s.me.alertEnvelope.giveEnvelope 0 8 } }
  stops : s.au.player.alert = some id → s.au.player.handed = false → s.au.player.state ≠ .idle →
    t.au.player = { AlertPlayer.reset with underruns := s.au.player.underruns } ∧ t.me = s.me
    ∧ (Tab.at t.tg.voices 0).holder ≠ some .alertUnit ∧ ∀ v, v ≠ 0 → Tab.at t.tg.voices v = Tab.at s.tg.voices v
  clip : s.au.player.alert = some id → s.au.player.handed = false → s.au.player.state ≠ .idle →
    (s.au.player.clip = none → t.cs.directory = s.cs.directory ∧ t.cs.fill = s.cs.fill)
    ∧ ∀ c, s.au.player.clip = some c →
      (c.val < 252 ∨ (∃ r ∈ s.au.table, r.clip = some c) → t.cs.directory = s.cs.directory ∧ t.cs.fill = s.cs.fill)
      ∧ (252 ≤ c.val → (∀ r ∈ s.au.table, r.clip ≠ some c) → clipAt t c = { Clip.empty with
        map := (clipAt s c).map, capacity := (clipAt s c).capacity, length := (clipAt s c).capacity })

/-- The end of an own-origin record (R153): it leaves the table; its key joins the recent keys for COMPLETE, EXPIRED and
CANCELLED; an ENDED frame is handed in JOINED; an airing is cut (R150); its clip is let go; ALERT_ENDED is posted, and
ALERT_UNCONFIRMED after COMPLETE and EXPIRED without a confirmation. What follows from a full control queue is left. A
capture clip that the player still holds stays until the player gives it back. -/
structure AlertEnded (r : Alert) (reason : EndReason) (s t : State) : Prop where
  frame : t = { s with
    cp := t.cp
    tx := t.tx
    ku := { s.ku with requests := t.ku.requests }
    au := { s.au with table := t.au.table, recent := t.au.recent, player := t.au.player }
    cs := t.cs
    me := { s.me with alertEnvelope := t.me.alertEnvelope }
    tg := { s.tg with voices := t.tg.voices } }
  gone : ∀ x ∈ t.au.table, x.id ≠ r.id
  recent : t.au.recent = if reason = .complete ∨ reason = .expired ∨ reason = .cancelled then
    (s.au.recent ++ [r.key]).drop (s.au.recent.length + 1 - 8) else s.au.recent
  handed : FrameRoom s → t.au.table = s.au.table.filter (fun x => x.id != r.id) ∧ t.ku = s.ku
    ∧ t.tx = if s.lu.state = .joined then (queueControl (.alert (alertBody r (some reason))) s).tx else s.tx
  told : FrameRoom s → let p := s.cp.post ⟨.alertEnded, s.clock.blockCount, [word r.id, r.key, word (reason.ctorIdx + 1)]⟩
    t.cp = if (reason = .complete ∨ reason = .expired) ∧ r.confirmed = false then
      p.post ⟨.alertUnconfirmed, s.clock.blockCount, [word r.id]⟩ else p
  uncut : r.state ≠ .airing → t.au.player = s.au.player ∧ t.me = s.me ∧ t.tg = s.tg
  cut : r.state = .airing → s.au.player.alert = some r.id → s.au.player.handed = true →
    s.au.player.state ∈ [AlertPlay.tone, .silent, .message] →
      t.au.player = { s.au.player with cutFrom := s.au.player.state, state := .fading }
      ∧ t.me.alertEnvelope = s.me.alertEnvelope.giveEnvelope 0 8 ∧ t.tg = s.tg
  stopped : r.state = .airing → s.au.player.alert = some r.id → s.au.player.handed = false → s.au.player.state ≠ .idle →
    t.au.player = { AlertPlayer.reset with underruns := s.au.player.underruns } ∧ t.me = s.me
    ∧ (Tab.at t.tg.voices 0).holder ≠ some .alertUnit ∧ (∀ v, v ≠ 0 → Tab.at t.tg.voices v = Tab.at s.tg.voices v)
    ∧ ∀ c, r.clip = some c → 252 ≤ c.val → clipAt t c = { Clip.empty with
      map := (clipAt s c).map, capacity := (clipAt s c).capacity, length := (clipAt s c).capacity }
  left : r.state = .airing → s.au.player.alert ≠ some r.id ∨ s.au.player.state = .idle
    ∨ (s.au.player.state = .fading ∧ s.au.player.handed = true) →
    t.au.player = s.au.player ∧ t.me = s.me ∧ t.tg = s.tg
  held : ∀ c, r.state = .airing → s.au.player.handed = true → r.clip = some c → 252 ≤ c.val →
    s.au.player.clip = some c → t.cs = s.cs
  noClip : r.state ≠ .airing → r.clip = none → t.cs = s.cs
  namedClip : ∀ c, r.state ≠ .airing → r.clip = some c → c.val < 252 →
    ((∃ x ∈ s.au.table, x.id ≠ r.id ∧ x.clip = some c) → t.cs = s.cs)
    ∧ ((∀ x ∈ s.au.table, x.id ≠ r.id → x.clip ≠ some c) → t.cs = { s.cs with
      directory := s.cs.directory.put c { clipAt s c with assigned := false } })
  capture : ∀ c, r.state ≠ .airing → r.clip = some c → 252 ≤ c.val → s.au.player.clip ≠ some c →
    clipAt t c = { Clip.empty with
      map := (clipAt s c).map, capacity := (clipAt s c).capacity, length := (clipAt s c).capacity }
    ∧ (∀ d, d ≠ c → clipAt t d = clipAt s d) ∧ t.cs.owner = s.cs.owner ∧ t.cs.groups = s.cs.groups

/-- Of the records that are not AIRING, `x` is the lowest-ranked (R133). -/
def Lowest (x : Alert) (s : State) : Prop :=
  Sole x s ∧ x.state ≠ .airing ∧ ∀ y ∈ s.au.table, y.state ≠ .airing → y = x ∨ y.above x = true

/-- Record `x` gives its place in a full table to the new record `r` (R133): an own-origin one ends DISPLACED, a heard one is
removed; ALERT_DISPLACED with both alert ids, and ALERT_NEW. -/
def GivesPlace (x r : Alert) (s t : State) : Prop :=
  ∃ u, (x.id / 256 = s.settings.nodeId.val → AlertEnded x .displaced s u)
    ∧ (x.id / 256 ≠ s.settings.nodeId.val →
      u = { s with au := { s.au with table := s.au.table.filter fun y => y.id != x.id } })
    ∧ t = { u with
      cp := (u.cp.post ⟨.alertDisplaced, s.clock.blockCount, [word x.id, word r.id]⟩).post ⟨.alertNew, s.clock.blockCount
        , [word r.id, r.key, word r.cls.ctorIdx, word r.origin.ctorIdx, wordFlag (r.id / 256 == s.settings.nodeId.val)]⟩
      au := { u.au with table := u.au.table ++ [r] } }

/-! ## Control frames -/

/-- A control frame that is removed unsent (R10), with its reason's code, AGED 0, DISPLACED 1, FULL 2: CONTROL_DROPPED tells
its kind, its tag where it has one, and the reason; a REQUEST leaves the request list NOT_SENT, with REQUEST_DONE after it
(R122, R123); the record of an ALERT frame that is not ENDED is owed a fresh one (R142). Nothing else changes. -/
structure FrameDropped (f : ControlFrame) (code : Nat) (s t : State) : Prop where
  announce : ∀ b, f.body = .announce b →
    t = { s with cp := s.cp.post ⟨.controlDropped, s.clock.blockCount, [1, wordNone, word code]⟩ }
  alert : ∀ b, f.body = .alert b → t = { s with
    cp := s.cp.post ⟨.controlDropped, s.clock.blockCount, [2, wordNone, word code]⟩
    au := { s.au with
      table := if b.ended then s.au.table
        else s.au.table.map fun r => if r.id = b.id then { r with frameOwed := true } else r } }
  noRequest : ∀ b, f.body = .request b → (∀ q ∈ s.ku.requests, q.tag ≠ b.tag) →
    t = { s with cp := s.cp.post ⟨.controlDropped, s.clock.blockCount, [3, word b.tag.toNat, word code]⟩ }
  request : ∀ b q, f.body = .request b → s.ku.requests.find? (fun x => x.tag == b.tag) = some q → t = { s with
    cp := (s.cp.post ⟨.controlDropped, s.clock.blockCount, [3, word b.tag.toNat, word code]⟩).post
      ⟨.requestDone, s.clock.blockCount,
        [word q.tag.toNat, word q.verb.ctorIdx, word q.target, word q.item, 4, wordNone]⟩
    ku := { s.ku with requests := s.ku.requests.filter fun x => x.tag != b.tag } }
  answer : ∀ b, f.body = .answer b →
    t = { s with cp := s.cp.post ⟨.controlDropped, s.clock.blockCount, [4, word b.tag.toNat, word code]⟩ }

/-! ## The load window -/

/-- What reader `r` has asked for is no longer wanted (R82, R83): the frames that its fetches bring are discarded. -/
def fetchesUnwanted (r : Reader) (c : ClipStore) : ClipStore :=
  let unwanted (f : Fetch) : Fetch := { f with live := f.live && f.reader != r }
  { c with
    waiting := c.waiting.map unwanted
    port := match c.port with
      | .fetch f b => .fetch (unwanted f) b
      | other => other
    asked := 0 }

/-- The list order has changed (R83, R86): a LOADED entry that stands past the first two places, and not at the front for a
reload (R100), loses its player, which becomes IDLE, and is WAITING with its due flag kept. -/
structure WindowTrimmed (s t : State) : Prop where
  frame : t = { s with
    cs := { s.cs with waiting := t.cs.waiting, port := t.cs.port, asked := t.cs.asked }
    pu := { s.pu with cues := t.pu.cues, players := t.pu.players } }
  tags : t.pu.cues.map CueEntry.tag = s.pu.cues.map CueEntry.tag
  kept : (∀ e ∈ s.pu.cues.drop 2, e.state = .loaded → atFront s e = true) → t = s
  one : ∀ before e after, s.pu.cues.drop 2 = before ++ e :: after → e.state = .loaded → atFront s e = false →
    (∀ x ∈ before ++ after, x.state = .loaded → atFront s x = true) →
    (playerOf s e.tag = none → t = s)
    ∧ ∀ p, playerOf s e.tag = some p → t = { s with
      cs := fetchesUnwanted (playerReader p) s.cs
      pu := { s.pu with
        cues := s.pu.cues.map fun x => if x.tag = e.tag then { x with state := .waiting } else x
        players := s.pu.players.put p { Player.idle with underruns := (playerAt s p).underruns, notWritten := (playerAt s p).notWritten } } }

/-! ## Starts, ends and releases of cue entries -/

/-- A LOADED player at the start of its entry (R92): PLAYING from where it stands, or, after a release that had to reload
(R100), from its hold position for RESUME and from frame 0 for RESTART. -/
def Player.started (x : Player) : Player :=
  let position := match x.reload with
    | none => x.position
    | some .resume => x.holdPosition
    | some _ => 0
  { x with
    state := .playing, position := position, holdPosition := if x.reload = some .resume then x.holdPosition else 0
    segueGiven := x.segueGiven && x.reload == some .resume, part := if position = 0 then 0 else x.part
    ended := false, reload := none, releaseDue := false, airKept := false }

/-- A LOADED player at the start of its entry under a hold cause (R92, R99): HELD, WAITING, with hold position 0 and its
buffer empty, to refill from frame 0 unless its hold behaviour is SKIP. -/
def Player.heldAtStart (x : Player) : Player :=
  { x.started with
    state := .held, phase := .waiting, holdPosition := 0, buffer := []
    fetchPosition := match x.entry.map HeldEntry.hold with
      | some .resume => 0
      | some .restart => 0
      | _ => x.fetchPosition }

/-- The envelope of an entry that starts (R92), resumes or restarts (R100). -/
def Ramp.started (r : Ramp) (reload : Option HoldBehaviour) (fadeIn : Nat) : Ramp :=
  match reload with
  | none => if 0 < fadeIn then r.giveEnvelope 4096 fadeIn else r
  | some .resume => ⟨0, 4096, 0, 8, 0⟩
  | some _ => if fadeIn = 0 then Ramp.rest 4096 else ⟨0, 4096, 0, fadeIn, 0⟩

/-- The state in which entry `e` has started on its LOADED player `p` (R80, R92): after the entries at the front, PLAYING, or
HELD under a hold cause, no longer due, with LATE_START where it was due before and ENTRY_STARTED. -/
def entryStarted (p : Fin 2) (e : CueEntry) (s : State) : State :=
  let x := playerAt s p
  let held := holdPresent s
  let rest := s.pu.cues.filter fun y => y.tag != e.tag
  let order := if atFront s e then s.pu.cues else rest.filter (atFront s) ++ e :: rest.filter fun y => !atFront s y
  let late := if 0 < e.dueSince then
      s.cp.post ⟨.lateStart, s.clock.blockCount, [word e.tag.toNat, word e.dueSince]⟩
    else s.cp
  { s with
    cp := late.post ⟨.entryStarted, s.clock.blockCount, [word p, word e.tag.toNat, wordFlag held]⟩
    cs := if held then fetchesUnwanted (playerReader p) s.cs else s.cs
    pu := { s.pu with
      cues := order.map fun y => if y.tag = e.tag then
        { y with due := false, dueSince := 0, state := if held then .held else .playing } else y
      players := s.pu.players.put p (if held then x.heldAtStart else x.started) }
    me := { s.me with
      playerEnvelope := s.me.playerEnvelope.put p ((Tab.at s.me.playerEnvelope p).started x.reload e.fadeIn) } }

/-- The state in which the entry of tag `t` has come due (R90), where it is WAITING or LOADED and not due yet. -/
def entryDue (t : Half) (s : State) : State :=
  { s with pu := { s.pu with cues := s.pu.cues.map fun e =>
      if e.tag = t ∧ (e.state = .waiting ∨ e.state = .loaded) ∧ e.due = false then
        { e with due := true, dueSince := 0 } else e } }

/-- The entry of tag `t` comes due (R90), and starts at once where its player is LOADED (R92). -/
structure ComesDue (t : Half) (s u : State) : Prop where
  alone : playerOf s t = none → u = entryDue t s
  loading : ∀ p, playerOf s t = some p → (playerAt s p).state ≠ .loaded → u = entryDue t s
  starts : ∀ p e, playerOf s t = some p → (playerAt s p).state = .loaded → cueOf s t = some e → e.due = false →
    e.state = .waiting ∨ e.state = .loaded → u = entryStarted p { e with due := true, dueSince := 0 } (entryDue t s)

/-- Player `p` stands with the buffer and the stream of `x` (R88, R92): the low flag clears where the buffer is ready; a
LOADING player whose buffer is ready becomes LOADED, and starts at once where its entry is due. -/
structure BufferSettles (p : Fin 2) (x : Player) (s t : State) : Prop where
  keeps : x.state ≠ .loading ∨ x.ready = false → t = { s with pu := { s.pu with
    players := s.pu.players.put p { x with low := x.low && !x.ready } } }
  loads : x.state = .loading → x.ready = true → x.detached = true ∨ (∀ e, cueOf s (heldTag x) = some e → e.due = false) →
    t = { s with pu := { s.pu with players := s.pu.players.put p { x with low := false, state := .loaded } } }
  starts : ∀ h e, x.state = .loading → x.ready = true → x.detached = false → x.entry = some h → cueOf s h.tag = some e →
    e.due = true → t = entryStarted p e { s with pu := { s.pu with
      players := s.pu.players.put p { x with low := false, state := .loaded } } }

/-- The state in which entry `e` of player `p` has ended with cause `c` (R96): the player is IDLE and lets its fetches go,
the end action applies, and ENTRY_ENDED tells the play position and the cause. -/
def entryEnded (p : Fin 2) (e : CueEntry) (c : EntryEnd) (s : State) : State :=
  let rest := s.pu.cues.filter fun y => y.tag != e.tag
  { s with
    cp := s.cp.post ⟨.entryEnded, s.clock.blockCount,
      [word p, word e.tag.toNat, word (playerAt s p).position, word c.ctorIdx]⟩
    cs := fetchesUnwanted (playerReader p) s.cs
    pu := { s.pu with
      cues := match e.endAction with
        | .remove => rest
        | .requeue => rest ++ [{ e with state := .waiting, due := false, dueSince := 0 }]
      players := s.pu.players.put p { Player.idle with
        underruns := (playerAt s p).underruns, notWritten := (playerAt s p).notWritten } } }

/-- The release of HELD, WAITING player `p` with entry `h` (R100): RESUME and RESTART play on where the buffer is ready, and
reload with the entry due where it is not; SKIP ends the entry, and the FOLLOW entry next after it comes due. -/
structure PlayerReleased (p : Fin 2) (h : HeldEntry) (s t : State) : Prop where
  plays : h.hold ≠ .skip → (playerAt s p).ready = true → t = { s with
    pu := { s.pu with
      cues := s.pu.cues.map fun e => if e.tag = h.tag then { e with state := .playing } else e
      players := s.pu.players.put p { playerAt s p with
        state := .playing, ended := false, reload := none, releaseDue := false, airKept := false
        position := if h.hold = .resume then (playerAt s p).holdPosition else 0
        segueGiven := (playerAt s p).segueGiven && h.hold == .resume
        part := if h.hold = .resume ∧ (playerAt s p).holdPosition ≠ 0 then (playerAt s p).part else 0 } }
    me := { s.me with
      playerEnvelope := s.me.playerEnvelope.put p
        ((Tab.at s.me.playerEnvelope p).started (some h.hold) h.fadeIn) } }
  reloads : h.hold ≠ .skip → (playerAt s p).ready = false → t = { s with pu := { s.pu with
    cues := s.pu.cues.map fun e => if e.tag = h.tag then { e with state := .loaded, due := true, dueSince := 0 } else e
    players := s.pu.players.put p { playerAt s p with
      state := .loading, reload := some h.hold, releaseDue := false } } }
  skips : ∀ e, h.hold = .skip → cueOf s h.tag = some e →
    (follower h.tag s = none → t = entryEnded p e .skip s)
    ∧ ∀ f, follower h.tag s = some f → ComesDue f (entryEnded p e .skip s) t

/-! ## Site alerts -/

/-- The cut of an airing at the site (R150, R181): before its first block the player is IDLE at once, with SITE_ALERT of
kind CUT, voice 0 given back and the filler returning; later it fades over 8 blocks; a fade goes on. -/
structure SiteCut (s t : State) : Prop where
  frame : t = { s with
    cp := t.cp
    cs := { s.cs with port := t.cs.port, waiting := t.cs.waiting, asked := t.cs.asked }
    site := { s.site with
      player := t.site.player, filler := { s.site.filler with envelope := t.site.filler.envelope } }
    tg := { s.tg with voices := t.tg.voices } }
  left : s.site.player.state = .idle ∨ s.site.player.state = .fading → t = s
  fades : s.site.player.state ∈ [AlertPlay.tone, .silent, .message] → s.site.player.handed = true → t = { s with
    site := { s.site with player := { s.site.player with
      cutFrom := s.site.player.state, state := .fading, envelope := s.site.player.envelope.giveEnvelope 0 8 } } }
  stops : s.site.player.state ∈ [AlertPlay.tone, .silent, .message] → s.site.player.handed = false →
    t.site.player = { SitePlayer.reset with envelope := s.site.player.envelope }
    ∧ t.site.filler.envelope = s.site.filler.envelope.giveEnvelope 4096 8
    ∧ (∀ key, s.site.player.key = some key →
      t.cp = s.cp.post ⟨.siteAlert, s.clock.blockCount, [key, word s.site.player.cls.ctorIdx, word 7]⟩)
    ∧ (Tab.at t.tg.voices 0).holder ≠ some .alertUnit ∧ ∀ v, v ≠ 0 → Tab.at t.tg.voices v = Tab.at s.tg.voices v

/-- A receiver message as it comes at the input (R209): start byte, type, length, body, and the sum byte that makes the
sum of type, length, body and sum 0 modulo 256. -/
def receiverFrame (type : Byte) (body : List Byte) : List Byte :=
  [0x7E#8, type, BitVec.ofNat 8 body.length] ++ body
    ++ [0 - body.foldl (· + ·) (type + BitVec.ofNat 8 body.length)]

end Sys2Proof.Machine
end

