-- ==== Sys2Proof/WellFormed.lean ====
section
/-! DEFINITION. When a command or event is one that the outside world can send: its samples, lists and
messages have the sizes and ranges the ports give them. The meanings are total and do not ask it. -/

namespace Sys2Proof

/-- A sample in the 24-bit range. -/
def sampleOk (x : Int) : Bool := decide (-8388608 ≤ x) && decide (x ≤ 8388607)

/-- A pair of samples in range. -/
def pairOk (p : Pair) : Bool := sampleOk p.1 && sampleOk p.2

/-- A block of 48 pairs in range. -/
def blockOk (b : Block) : Bool := b.length == 48 && b.all pairOk

/-- A block period's inputs: eight TDM slots, three phone slots of 16 16-bit samples, four status
levels, three ring and three loop levels. -/
def BlockInput.ok (i : BlockInput) : Bool :=
  i.tdm.length == 8 && i.tdm.all blockOk
    && i.phone.length == 3
    && i.phone.all (fun p => p.length == 16 && p.all fun q => decide (-32768 ≤ q) && decide (q ≤ 32767))
    && i.status.length == 4 && i.ring.length == 3 && i.loop.length == 3

/-- An AUDIO frame carries 48 pairs of samples. -/
def RxAudio.ok (f : RxAudio) : Bool := blockOk f.samples

/-- A control frame's body has the length its header gives (a receiver reads the body to that length). -/
def RxControl.ok (f : RxControl) : Bool := f.body.length == f.len.toNat

/-- A frame of either layout. -/
def RxFrame.ok : RxFrame → Bool
  | .audio f => f.ok
  | .control f => f.ok

/-- A host command's parameters fit a message (0 to 1,024 bytes). -/
def hostOk (i : Instr) : Bool := decide ((commandParams i).length ≤ 1024)

/-- Well-formed commands and events. -/
def wellFormed (i : Instr) : Bool :=
  match i with
  | .markBegin _ input => input.ok
  | .localExpiry input => input.ok
  | .sendMark input => input.ok
  | .siteBlockStart input => input.ok
  | .frameOffer offset => decide (offset < 48960)
  | .audioFrameReceived f => f.ok
  | .announceReceived f => f.ok && f.kind == 1
  | .alertFrameReceived f => f.ok && f.kind == 2
  | .requestReceived f => f.ok && f.kind == 3
  | .setRemoteOutputReceived f => f.ok && f.kind == 3
  | .answerReceived f => f.ok && f.kind == 4
  | .invalidFrameReceived f => f.ok
  | .forwardFrameReceived _ levels => levels.length == 8
  | .feedValidRun _ levels => levels.length == 8
  | i => (commandType i).isNone || hostOk i

end Sys2Proof
end

