-- ==== Sys2Proof/Certificates/Slice0/Obligations.lean ====
section
/-! DEFINITION. The statements for the provers. -/

open Sys2Proof Sys2Proof.Machine

/-! ## The machine as a whole -/

/-- One step takes the command at the front of the queue and runs `exec` on it with the rest of the queue; with
nothing waiting the part idles (the model's choice, log entry 1). -/
def Obligations.StepTakesFrontCommand : Prop :=
  ∀ (s : State) (i : Instr) (q : List Instr),
    (s.pending = i :: q → step s = exec i (s.withQueue q)) ∧ (s.pending = [] → step s = .next s)

/-- Every command and event, in every state, is taken to a next state, and leaves the queue as it was: no row of the
table faults or is refused. It is the model's choice: that POWER_ON and RESET leave the queue is log entry 47, and that
every row is taken in every state rests on log entries 4, 5, 6 and 52. -/
def Obligations.EveryCommandIsTaken : Prop :=
  ∀ (i : Instr) (s : State), ∃ t, exec i s = .next t ∧ t.pending = s.pending

/-- Every step keeps the port's legal states: the notice queue of 32 and the dropped count of 255 (R195), RDY and the
two slots as the port state has them (R192), the INT lines as the queue and the routing give them (R197). Every step keeps
a part held in reset UNCONFIGURED, its port IDLE, and a RUNNING part clear of a flash read (R199, R203, R205; that a part
held in reset takes no message is the model's, log entry 53). Every step keeps the canonical form of the DRAM contents
(R63). -/
def Obligations.EveryStepKeepsPortAndDram : Prop :=
  ∀ s t : State, step s = .next t →
    (PortOk s.cp → PortOk t.cp) ∧ (BootOk s.cp → BootOk t.cp) ∧ (Memory.wf s.dram = true → Memory.wf t.dram = true)

/-- The image in force stays in force (R199): from a RUNNING part out of reset and with no flash read under way, nothing
but power-on and the RESET pin takes the part out of RUNNING, begins a flash read, or changes a value that the units
took. That a RUNNING part is out of reset and reads no flash is an invariant of every step (`BootOk`). -/
def Obligations.ImageStaysInForce : Prop :=
  ∀ (i : Instr) (s t : State), i ≠ .powerOn → i ≠ .resetAsserted → s.cp.device = .running → s.cp.resetHeld = false →
    s.cp.boot ≠ .reading → exec i s = .next t →
      t.cp.device = .running ∧ t.cp.resetHeld = false ∧ t.cp.boot ≠ .reading ∧ t.settings = s.settings ∧ t.cp.routing = s.cp.routing

/-- The state after reset meets the invariants that every step keeps. That its queue is empty is the model's (log entry 51),
and so is that a step with nothing waiting changes nothing (log entry 1). -/
def Obligations.ResetMeetsInvariants : Prop :=
  PortOk State.reset.cp ∧ BootOk State.reset.cp ∧ Memory.wf State.reset.dram = true ∧ State.reset.pending = []
    ∧ step State.reset = .next State.reset

/-- Every host command whose parameters fit a message is read back from the message that spells it, with its type,
tag and parameters (R193, R210): no bit of a parameter is lost on the port. -/
def Obligations.HostMessageRoundTrip : Prop :=
  ∀ (i : Instr) (ty : Nat) (tag : Half) (bytes : List Byte), wellFormed i = true → commandType i = some ty →
    encodeCommand tag i = some bytes →
      decodeMessage bytes = some (BitVec.ofNat 16 ty, tag, commandParams i, i)

/-! ## Power, reset and the control port -/

/-- Power-on and the assertion of RESET (R205) leave the values that the rules state, whatever the part was doing; the
part is then held in reset, and its release sets the boot status from BOOT (R203). That the queue stays is the model's
(log entry 47), and so is the format M16 of an empty descriptor (log entry 58). -/
def Obligations.PowerOnAndResetLoadResetValues : Prop :=
  (∀ s : State, ∃ t, exec .powerOn s = .next t ∧ exec .resetAsserted s = .next t
    ∧ t.cp.device = .unconfigured ∧ t.cp.resetHeld = true ∧ t.cp.port = .idle ∧ t.cp.slot = none ∧ t.cp.response = none
    ∧ t.cp.rdy = false ∧ t.cp.busyFlag = false ∧ t.cp.notices = [] ∧ t.cp.dropped = 0
    ∧ (∀ c, Tab.at t.cp.routing c = some 0) ∧ (∀ j, Tab.at t.cp.ints j = false)
    ∧ t.lu.state = .offline ∧ t.clock.blockCount = 0 ∧ t.clock.running = false ∧ t.lu.goodMarks = 0
    ∧ t.lu.noMarks = 0 ∧ t.tx.frameSeq = 0 ∧ t.tx.control = [] ∧ (∀ i, Tab.at t.tx.audio i = none)
    ∧ (∀ c, Tab.at t.counters c = 0) ∧ (∀ k, (Tab.at t.peers k).state = .absent)
    ∧ t.cu.table = [] ∧ t.cu.inForce = none ∧ t.cu.weights = ⟨16, 16, 16, 16⟩
    ∧ (∀ d, (Tab.at t.me.desk d).gain.current = 4096) ∧ (∀ b, (Tab.at t.me.trims b).current = 4096)
    ∧ (∀ i, Tab.at t.me.outputs i = silence) ∧ t.me.silent = false
    ∧ (∀ e, Tab.at t.cs.owner e = none) ∧ (∀ c, clipAt t c = Clip.empty) ∧ t.cs.fill = []
    ∧ t.cs.port = .free ∧ t.cs.lastKind = .fetch ∧ t.dram = []
    ∧ t.pu.cues = [] ∧ (∀ p, (playerAt t p).state = .idle) ∧ t.pu.seat = .standby ∧ t.pu.holdLatch = false
    ∧ (∀ l, (lineAt t l).state = .idle) ∧ t.ku.airQueue = [] ∧ t.ku.requests = [] ∧ t.ku.tagCounter = 1
    ∧ t.au.table = [] ∧ t.au.recent = [] ∧ t.au.originSeq = 0 ∧ t.au.framer = .hunt ∧ t.au.player.state = .idle
    ∧ t.link.state = .down ∧ t.link.filler.state = .off ∧ t.site.state = .noFeed ∧ t.site.alerts = []
    ∧ (∀ v, (Tab.at t.tg.voices v).holder = none) ∧ t.tg.lineUp = .off
    ∧ t.pending = s.pending)
  ∧ ∀ (boot : Bool) (s : State), s.cp.resetHeld = true →
      exec (.resetReleased boot) s = .next { s with cp := { s.cp with
        resetHeld := false, boot := if boot then .reading else .none } }

/-- Before configuration every host command but CONFIGURE, READ STATUS and READ NOTICE is answered NOT_CONFIGURED, and
nothing but the port changes (R193). -/
def Obligations.NotConfiguredBeforeImage : Prop :=
  ∀ (i : Instr) (m : CommandMessage) (s : State), Acting s i m → commandType i ≠ none →
    s.cp.device = .unconfigured → (∀ img, i ≠ .configure img) → i ≠ .readStatus → i ≠ .readNotice →
      exec i s = .next (answer m .notConfigured [] s)

/-- A completed write (R192, R193): in IDLE a well-formed message enters the command slot, and any other is answered
BAD_PARAM with the tag echoed if the header held one; in ACTING it sets the PORT_BUSY flag; in READY it sets PORT_BUSY
in the response held. Nothing else changes. A part held in reset takes no message (the model's choice, log entry 53).
A completed read (R192): in IDLE the host reads type NONE, NO_SUCH; in ACTING type NONE, BUSY; in READY the held
response, whose slot is then empty, with RDY low and the port IDLE. The bytes read are the header of 8 and the data, as
R210 lays them out. -/
def Obligations.PortTakesAndYieldsMessages : Prop :=
  ((∀ (bytes : List Byte) (s : State), s.cp.resetHeld = true → exec (.commandWriteComplete bytes) s = .next s)
   ∧ (∀ (ty tag : Half) (ps : List Byte) (i : Instr) (bytes : List Byte) (s : State), s.cp.resetHeld = false →
     s.cp.port = .idle → decodeMessage bytes = some (ty, tag, ps, i) →
       exec (.commandWriteComplete bytes) s
         = .next { s with cp := { s.cp with slot := some ⟨ty, tag, ps⟩, port := .acting } })
   ∧ (∀ (bytes : List Byte) (s : State), s.cp.resetHeld = false → s.cp.port = .idle → decodeMessage bytes = none →
     ∃ ty tag : Half, (2 ≤ bytes.length → ty = halfAt bytes 0) ∧ (4 ≤ bytes.length → tag = halfAt bytes 2)
       ∧ exec (.commandWriteComplete bytes) s = .next (answer ⟨ty, tag, []⟩ .badParam [] s))
   ∧ (∀ (bytes : List Byte) (s : State), s.cp.resetHeld = false → s.cp.port = .acting →
     exec (.commandWriteComplete bytes) s = .next { s with cp := { s.cp with busyFlag := true } })
   ∧ (∀ (bytes : List Byte) (r : Response) (s : State), s.cp.resetHeld = false → s.cp.port = .ready →
     s.cp.response = some r → exec (.commandWriteComplete bytes) s
       = .next { s with cp := { s.cp with response := some { r with portBusy := true } } }))
  ∧ (let laidOut (r : Response) : List Byte :=
       be16 r.type ++ be16 r.tag ++ [BitVec.ofNat 8 r.code.ctorIdx, if r.portBusy then 1 else 0]
         ++ be16 (BitVec.ofNat 16 (4 * r.data.length)) ++ r.data.flatMap be32
     (∀ s : State, s.cp.port = .idle → ∃ r : Response, r.type = 0 ∧ r.code = .noSuch ∧ r.data = []
       ∧ exec .responseReadComplete s
         = .next { s with cp := { s.cp with lastRead := some r, shifted := laidOut r } })
     ∧ (∀ s : State, s.cp.port = .acting → ∃ r : Response, r.type = 0 ∧ r.code = .busy ∧ r.data = []
       ∧ exec .responseReadComplete s
         = .next { s with cp := { s.cp with lastRead := some r, shifted := laidOut r } })
     ∧ (∀ (r : Response) (s : State), s.cp.port = .ready → s.cp.response = some r →
       exec .responseReadComplete s = .next { s with cp := { s.cp with
         lastRead := some r, shifted := laidOut r, response := none, rdy := false, port := .idle } }))

/-- READ NOTICE (R196) takes the oldest notice from the queue and returns it whole with the number left behind; the
INT lines follow (R197). The items of a notice that tells at most three are its parameter words in order (R195; for
fewer than three it is the model's choice, log entry 11). On an empty queue it returns NO_SUCH with the count 0. It is
taken in every device state.
READ STATUS (R198), in every device state: what it returns, and the dropped-notice count then set to 0. -/
def Obligations.ReadNoticeAndReadStatus : Prop :=
  ((∀ (m : CommandMessage) (s : State), Acting s .readNotice m → s.cp.notices = [] →
     exec .readNotice s = .next (answer m .noSuch [word 0] s))
   ∧ (∀ (m : CommandMessage) (s : State) (n : Notice) (rest : List Notice), Acting s .readNotice m →
     s.cp.notices = n :: rest → ∃ a b c : Word, (n.items.length ≤ 3 → n.items = [a, b, c].take n.items.length)
       ∧ exec .readNotice s = .next (answer m .ok
         [word (noticeNumber n.kind), word (NoticeClass.index (noticeClass n.kind)), n.block, a, b, c, word rest.length]
         { s with cp := { s.cp with notices := rest, ints := intLines s.cp.routing rest } })))
  ∧ (∀ (m : CommandMessage) (s : State), Acting s .readStatus m →
       exec .readStatus s = .next (answer m .ok
         ([word s.cp.device.ctorIdx, word s.cp.boot.ctorIdx, wordOpt (s.cp.bootCause.map BootCause.ctorIdx),
           word s.cp.bootField, word s.settings.nodeId, word (Roles.code s.settings.roles), word s.lu.state.ctorIdx,
           s.clock.blockCount, word s.cp.notices.length] ++ s.cp.ints.toList.map wordFlag ++ [word s.cp.dropped])
         { s with cp := { s.cp with dropped := 0 } }))

/-- CONFIGURE (R199, R202, R203): BUSY during a flash read, WRONG_STATE once RUNNING, BAD_PARAM with the field index for
an image that fails (R201); a valid image is taken whole, each capture clip that it defines with its map and the ownership of its
extents (R74). The end of a flash read takes a valid image the same way
(R203), with the boot status ACCEPTED; an image whose CRC or a field fails leaves the part UNCONFIGURED, REFUSED with
the cause, and CONFIG_REFUSED posted. A flash content longer than the image is read to its length (log entry 46), and a
SITE node's own Peer Table entry is written too (log entry 42): both are the model's. -/
def Obligations.ConfigureTakesImage : Prop :=
  (∀ (img : List Byte) (m : CommandMessage) (s : State), Acting s (.configure img) m →
    (s.cp.device = .running → exec (.configure img) s = .next (answer m .wrongState [] s))
    ∧ (s.cp.device = .unconfigured → s.cp.boot = .reading → exec (.configure img) s = .next (answer m .busy [] s))
    ∧ (∀ k, s.cp.device = .unconfigured → s.cp.boot ≠ .reading → examineImage img = .error k →
      exec (.configure img) s = .next (answer m .badParam [word k] s))
    ∧ (∀ st, s.cp.device = .unconfigured → s.cp.boot ≠ .reading → examineImage img = .ok st →
      ∃ t, Accepted .host st s t ∧ t.cp.boot = s.cp.boot ∧ exec (.configure img) s = .next (answer m .ok
        [word st.nodeId, if st.roles.site then 0 else word t.lu.stamp.toNat] t)))
  ∧ ∀ (flash : Option (List Byte)) (img : List Byte) (s : State), s.cp.boot = .reading →
      img = (flash.getD []).take imageLength →
      (examineImage img = .ok (settingsOf (fieldWord img)) → ∃ t,
        Accepted .flash (settingsOf (fieldWord img)) { s with cp := { s.cp with boot := .accepted } } t
          ∧ t.cp.boot = .accepted ∧ exec (.flashReadComplete flash) s = .next t)
      ∧ ((img.length ≠ imageLength ∨ headerOk img = false) → exec (.flashReadComplete flash) s = .next
        (post .configRefused [word 0]
          { s with cp := { s.cp with boot := .refused, bootCause := some .noImage, bootField := 0 } }))
      ∧ (img.length = imageLength → headerOk img = true → imageCrcOk img = false →
        exec (.flashReadComplete flash) s = .next (post .configRefused [word 1, word 0]
          { s with cp := { s.cp with boot := .refused, bootCause := some .check, bootField := 0 } }))
      ∧ (∀ k, img.length = imageLength → headerOk img = true → imageCrcOk img = true →
        fieldFault (fieldWord img) = some k →
        exec (.flashReadComplete flash) s = .next (post .configRefused [word 2, word k]
          { s with cp := { s.cp with boot := .refused, bootCause := some .field, bootField := k } }))

/-! ## The studio line -/

/-- REJOIN (R18, R204): NOT_ROLE at a SITE node; elsewhere OK with the new stamp, and every unit acts in the one event:
what the LU, the CU, the seat, the KU and the AU do, and that the block count, the error counters, the clip store, the
link and the tones are left. That a frame being sent is given up, so that none is being sent after it, is the model's
choice (log entry 65). -/
def Obligations.RejoinEntersListening : Prop :=
  (∀ (m : CommandMessage) (s : State), Running s .rejoin m → s.settings.roles.site = true →
    exec .rejoin s = .next (answer m .notRole [] s))
  ∧ ∀ (m : CommandMessage) (s : State), Running s .rejoin m → s.settings.roles.site = false →
    ∃ t, exec .rejoin s = .next (answer m .ok [word t.lu.stamp.toNat] t)
      ∧ t = { s with cp := t.cp, lu := t.lu, clock := t.clock, tx := t.tx, peers := t.peers, cu := t.cu, me := t.me
                     pu := t.pu, ku := t.ku, au := t.au }
      ∧ Posted s.cp t.cp
      ∧ t.lu = { s.lu with state := .listening, goodMarks := 0, noMarks := 0, announceCount := 0, mismatchRun := 0
                           stamp := t.lu.stamp, draws := s.lu.draws + 1 }
      ∧ t.lu.stamp ≠ s.lu.stamp
      ∧ t.clock = { s.clock with sinceMark := none }
      ∧ t.tx = { s.tx with audio := Vector.replicate 8 none, control := [], sending := none }
      ∧ (∀ k, k ≠ s.settings.nodeId → Tab.at t.peers k = Peer.absent)
      ∧ Tab.at t.peers s.settings.nodeId = { Tab.at s.peers s.settings.nodeId with stamp := t.lu.stamp }
      ∧ t.cu = { s.cu with table := s.cu.table.filter fun e => e.own, fullReported := false }
      ∧ (s.settings.roles.playout = true → t.pu.seat = .standby ∧ t.pu.holdLatch = true)
      ∧ t.ku = { s.ku with airQueue := [], requests := [], requeueOwn := true }
      ∧ t.au = { s.au with table := s.au.table.filter fun r => r.own s }

/-- Block starts (R3, R4, R14, R15): each recognised mark begin, each local expiry in LISTENING and MUTED, the node's own
mark in JOINED, and the free-running timer at a SITE node restart the timer and increase the block count by 1, wrapping;
a mark begin within 64 bit times of a local expiry restarts the timer and gives no second block start. That the mark's
elapsed time is taken as given is the model's (log entry 2). -/
def Obligations.BlockStartsAdvanceBlockCount : Prop :=
  (∀ (elapsed : Nat) (input : BlockInput) (s : State), receives s = true →
    (s.clock.expiryOpen = false ∨ 64 < s.clock.timer + elapsed) →
    ∃ t, exec (.markBegin elapsed input) s = .next t ∧ Posted s.cp t.cp ∧ t.settings = s.settings
      ∧ t.pending = s.pending ∧ t.clock = { s.clock with
        timer := 0, blockCount := s.clock.blockCount + 1, sinceMark := some 0, expiryOpen := false })
  ∧ (∀ (elapsed : Nat) (input : BlockInput) (s : State), receives s = true → s.clock.expiryOpen = true →
    s.clock.timer + elapsed ≤ 64 →
    ∃ t, exec (.markBegin elapsed input) s = .next t ∧ Posted s.cp t.cp ∧ t.settings = s.settings
      ∧ t.pending = s.pending ∧ t.clock = { s.clock with timer := 0, sinceMark := some 0, expiryOpen := false })
  ∧ (∀ (input : BlockInput) (s : State), s.lu.state = .listening ∨ s.lu.state = .muted →
    ∃ t, exec (.localExpiry input) s = .next t ∧ Posted s.cp t.cp ∧ t.settings = s.settings
      ∧ t.pending = s.pending ∧ t.clock = { s.clock with
        timer := 0, blockCount := s.clock.blockCount + 1, sinceMark := s.clock.sinceMark.map (· + 49152)
        expiryOpen := true })
  ∧ (∀ (input : BlockInput) (s : State), s.lu.state = .joined →
    ∃ t, exec (.sendMark input) s = .next t ∧ Posted s.cp t.cp ∧ t.settings = s.settings
      ∧ t.pending = s.pending ∧ t.clock = { s.clock with
        timer := 0, blockCount := s.clock.blockCount + 1, sinceMark := some 0, expiryOpen := false })
  ∧ ∀ (input : BlockInput) (s : State), atSite s = true →
    ∃ t, exec (.siteBlockStart input) s = .next t ∧ Posted s.cp t.cp ∧ t.settings = s.settings
      ∧ t.pending = s.pending ∧ t.clock = { s.clock with timer := 0, blockCount := s.clock.blockCount + 1 }

/-- What a block start runs (R3, R30, R41, R91, R131, R157, R171, R183): each recognised mark begin, each local expiry in
LISTENING and MUTED and the node's own mark in JOINED run every unit's work for the block once, in the order written out
here, and the free-running timer runs the site's. The Alert Unit counts its records, ends those whose time has run out,
takes a block of each open capture and ends the intervals that have passed (R137, R138, R145, R149, R152); the link moves
its filler and forms its forward frame (R157, R166). The order of the units is the model's (log entries 5, 30 and 68), and
so are that of the lines and requests (log entry 83), of a line's filters and counts (log entry 109), of the lines and their
return to the Air Queue (log entry 93) and of the Alert Unit's work (log entries 86 to 88), its captures in table order (log
entry 103), and its counts on the records whose frames a join by marks has handed (log entry 119). -/
def Obligations.BlockStartRunsEveryUnit : Prop :=
  let alerts (input : BlockInput) (s : State) : State :=
    let counted : State := { s with au := { s.au with
      table := s.au.table.map fun r => r.tick (r.own s), player := { s.au.player with notWritten := false } } }
    let expired := forEach (ownIds counted) expireAlert counted
    let heard := forEach ((expired.au.table.filter fun r => !r.own expired).map Alert.id) silentRemoval expired
    let taken := forEach ((heard.au.table.filter fun r => r.own heard && r.state == .capturing).map Alert.id)
      (captureTick input) heard
    forEach (ownIds taken) endInterval (framerTick taken)
  let link (prog : Block) (s : State) : State :=
    if s.settings.roles.link then
      let asked : State := { s with link := { s.link with filler := { s.link.filler with notWritten := false } } }
      backTick (fillerTurnsOff (fillerFadeInDone (sendForward prog (fillerTick asked))))
    else s
  let start (input : BlockInput) (s : State) : State :=
    let was := joined s
    let opened : State := { s with
      clock := { s.clock with timer := 0, blockCount := s.clock.blockCount + 1 }, cs := { s.cs with asked := 0 } }
    let lineUnit := lineStart (if was then takeOwed opened else opened)
    let decided := withHold .alertTier (presenceDecision s.clock.blockCount) lineUnit
    let phones := upConvertAll input (inputTick input decided)
    let toned := formVoices (callerTick input phones.2 phones.1)
    let aired := produceAlert (alerts input toned)
    let framed := withHold .alertAiring startTick (frameTick (if was then owedIds s else []) aired.1)
    let playerA := producePlayer 0 (playoutStart framed)
    let playerB := producePlayer 1 playerA.1
    let handed := sourceStage input phones.2 playerA.2 playerB.2 aired.2 playerB.1
    let faded := completeHoldFade 1 (completeHoldFade 0 (completeAlertFade handed))
    let linked := link (programBlock faded) (silenceMonitor (busStage input faded))
    updateLamps (announceTick was linked)
  (∀ (elapsed : Nat) (input : BlockInput) (s : State), receives s = true →
    (s.clock.expiryOpen = false ∨ 64 < s.clock.timer + elapsed) →
    ∃ u, u = { countMark (s.clock.sinceMark.map (· + (s.clock.timer + elapsed))) (cutOff input.sinceCrc s) with clock := { s.clock with
        timer := 0, sinceMark := some 0, expiryOpen := false } }
      ∧ exec (.markBegin elapsed input) s = .next (start input u))
  ∧ (∀ (input : BlockInput) (s : State), s.lu.state = .listening ∨ s.lu.state = .muted →
    exec (.localExpiry input) s = .next (start input { s with clock := { s.clock with
      timer := 0, sinceMark := s.clock.sinceMark.map (· + 49152), expiryOpen := true } }))
  ∧ (∀ (input : BlockInput) (s : State), s.lu.state = .joined →
    exec (.sendMark input) s = .next (start input { cutOff input.sinceCrc { s with tx := { s.tx with markSent := true } } with
      clock := { s.clock with timer := 0, sinceMark := some 0, expiryOpen := false } }))
  ∧ ∀ (input : BlockInput) (s : State), atSite s = true →
    let opened : State := { s with
      clock := { s.clock with timer := 0, blockCount := s.clock.blockCount + 1 }, cs := { s.cs with asked := 0 }
      site := { s.site with
        filler := { s.site.filler with notWritten := false }, player := { s.site.player with notWritten := false } } }
    let heard := offAirTick input opened
    let sampled := if s.site.state = .noFeed ∨ s.site.state = .filling then sampleStatus (statusLevels input) heard
      else heard
    let alert := produceSiteAlert (formVoices (gapTick (siteAlertTick (siteFramerTick sampled))))
    let feed := drawFeed (s.site.state == .feeding) alert.1
    exec (.siteBlockStart input) s = .next (startSiteAlert (siteOutput feed.2 alert.2 feed.1))

/-- Joining (R15, R16): 64 good marks, or 4 block periods with no mark, take a LISTENING node to JOINED with LINE_JOINED
and its cause, the counts from 0, and an announce queued at once, its body also in the SELF entry. One ALERT frame for each
own-origin record is handed then (R142, R155), after the announce (the model's, log entry 114) and in table order (log entry 88).
A local expiry that no mark begin follows within 64 local bit times increases the no-mark count by 1 (R15); the fourth
joins the line with cause ALONE. In MUTED nothing is counted (R17). The cause words are the model's (log entry 64). -/
def Obligations.LineIsJoinedByMarksOrAlone : Prop :=
  (∀ s : State, let own := s.au.table.filter fun r => r.id / 256 = s.settings.nodeId.val
     s.lu.state = .listening → own.length + s.tx.control.length < 8 → (∀ r ∈ own, Sole r s) →
     (own.map Alert.id).Nodup →
     let b := announceBody s
     let joinedWith (cause : Nat) : State :=
       { s with
         cp := s.cp.post ⟨.lineJoined, s.clock.blockCount, [word cause]⟩
         lu := { s.lu with state := .joined, mismatchRun := 0, announceCount := 0 }
         tx := { s.tx with
           control := insertControl ⟨s.tx.frameSeq, .announce b, 0⟩ s.tx.control, frameSeq := s.tx.frameSeq + 1 }
         peers := s.peers.put s.settings.nodeId { Tab.at s.peers s.settings.nodeId with body := some b } }
     let told (s : State) : State := own.foldl (fun u r => alertChanged r r u) s
     (64 ≤ s.lu.goodMarks → exec .lineJoinedMarks s = .next (told (joinedWith 0)))
     ∧ (4 ≤ s.lu.noMarks → exec .lineJoinedAlone s = .next (told (joinedWith 1))))
  ∧ (∀ s : State, s.clock.expiryOpen = true →
       let s' : State := { s with clock := { s.clock with timer := 64, expiryOpen := false } }
       (s.lu.state = .listening → s.lu.noMarks < 3 →
         exec .noMarkAfterExpiry s = .next { s' with lu := { s.lu with noMarks := s.lu.noMarks + 1 } })
       ∧ (s.lu.state = .listening → s.lu.noMarks = 3 → ∃ t, exec .noMarkAfterExpiry s = .next t
         ∧ t.lu = { s.lu with state := .joined, noMarks := 4, mismatchRun := 0, announceCount := 0 }
         ∧ t = { s' with cp := t.cp, lu := t.lu, tx := t.tx, peers := t.peers, ku := t.ku, au := t.au }
         ∧ exec .lineJoinedAlone { s' with lu := { s.lu with noMarks := 4 } } = .next t)
       ∧ (s.lu.state = .muted → exec .noMarkAfterExpiry s = .next s'))

/-- Offering (R5, R6, R7): a JOINED node on an idle line starts, of the queued frames that fit at the window offset, the
one with the lowest arbitration field, and sends nothing when none fits. A frame fits when its full length ends by offset
48,960. Every AUDIO frame that fits is among those offered, and of the control queue the first frame, in queue order,
that fits, each with its field; nothing else is. The frame with the lowest field goes on the line as R6 and R206 form it. -/
def Obligations.FrameOfferSendsLowestField : Prop :=
  ∀ (offset : Nat) (s : State), s.lu.state = .joined → s.lu.receiving = false → s.tx.sending = none →
    let offers := audioOffers offset s ++ controlOffer offset s
    let audioField (i : Fin 8) (f : AudioFrame) : Nat := f.cls * 512 + s.settings.nodeId.val * 64 + i.val * 8
    let controlField (f : ControlFrame) : Nat :=
      controlClass f.body * 512 + s.settings.nodeId.val * 64 + f.seq.toNat % 8 * 8 + controlKind f.body
    let firstControl := s.tx.control.find? fun f => decide (offset + controlTimes f.body ≤ 48960)
    (offers = [] → exec (.frameOffer offset) s = .next s)
    ∧ (offers ≠ [] → ∃ o ∈ offers, (∀ x ∈ offers, o.1 ≤ x.1)
      ∧ exec (.frameOffer offset) s
        = .next { s with tx := { s.tx with sending := sendingOf o.2 s, markSent := false } })
    ∧ (∀ i f, Tab.at s.tx.audio i = some f → offset + 2400 ≤ 48960 → (audioField i f, SendSource.slot i) ∈ offers)
    ∧ (∀ f, firstControl = some f → (controlField f, SendSource.control f) ∈ offers)
    ∧ (∀ n src, (n, src) ∈ offers →
      (∃ i f, src = .slot i ∧ n = audioField i f ∧ Tab.at s.tx.audio i = some f ∧ offset + 2400 ≤ 48960)
      ∨ ∃ f, src = .control f ∧ n = controlField f ∧ firstControl = some f)
    ∧ (∀ i f, Tab.at s.tx.audio i = some f → offset + 2400 ≤ 48960 →
      (∀ j g, j ≠ i → Tab.at s.tx.audio j = some g → audioField i f < audioField j g) →
      (∀ g, firstControl = some g → audioField i f < controlField g) →
      exec (.frameOffer offset) s = .next { s with tx := { s.tx with
        sending := some ⟨.slot i, false, audioBits s.settings.nodeId i f⟩, markSent := false } })
    ∧ (∀ f, firstControl = some f →
      (∀ j g, offset + 2400 ≤ 48960 → Tab.at s.tx.audio j = some g → controlField f < audioField j g) →
      exec (.frameOffer offset) s = .next { s with tx := { s.tx with
        sending := some ⟨.control f, controlKind f.body == 1, controlBits s.settings.nodeId (atSending f)⟩
        markSent := false } })

/-- ARBITRATION_LOST (R7, R11): the node stops driving, its queues stay as they were, and it receives the winner's frame.
START_BIT_RECEIVED (R11): a node that takes part in the line and is not sending begins receiving.
FRAME_SEND_COMPLETE (R8, R20, R123): an AUDIO frame leaves its slot's entry, a control frame its queue and no other
frame with it; a completed announce sets the announce mismatch run to 0, and a REQUEST enters phase SENT with wait count
0. That a frame displaced while it was sent is sent on is the model's (log entry 55).
FRAME_ABANDONED (R8): at a mark begin TRUNCATED is counted, an AUDIO frame leaves its entry and a control frame stays
queued, also where the mark begins in the arbitration field (log entry 102); against another driver TX_MISMATCH is counted and
the frame stays queued. An announce attempt ended in TX_MISMATCH
adds to the mismatch run, and the run's third mutes the node (R20).
READBACK_MUTE (R17, R20): the announce mismatch run at 3 posts DUPLICATE_ID with cause READBACK and mutes the node;
the AUDIO queue is emptied without a count, and the control queue keeps its frames. The cause word is the model's (log
entry 64), and so is that a frame being sent is given up (log entry 65). -/
def Obligations.FramesLeaveTheSender : Prop :=
  ((∀ (snd : Sending) (s : State), s.tx.sending = some snd →
     exec .arbitrationLost s
       = .next { s with tx := { s.tx with sending := none }, lu := { s.lu with receiving := true } })
   ∧ ∀ s : State, s.lu.state ≠ .offline → s.tx.sending = none →
     exec .startBitReceived s = .next { s with lu := { s.lu with receiving := true } })
  ∧ ((∀ (snd : Sending) (i : Fin 8) (s : State), s.tx.sending = some snd → snd.source = .slot i →
       exec .frameSendComplete s = .next { s with tx := { s.tx with
         sending := none, sent := snd.bits, audio := s.tx.audio.put i none } })
     ∧ ∀ (snd : Sending) (f : ControlFrame) (s : State), s.tx.sending = some snd → snd.source = .control f →
       let t : State := { s with tx := { s.tx with
         sending := none, sent := snd.bits
         control := s.tx.control.eraseP fun g => f.seq == g.seq && f.body == g.body } }
       (controlKind f.body = 1 → exec .frameSendComplete s = .next { t with lu := { s.lu with mismatchRun := 0 } })
       ∧ (∀ r, f.body = .request r → exec .frameSendComplete s = .next { t with ku := { s.ku with
         requests := s.ku.requests.map fun x => if x.tag = r.tag then { x with phase := .sent, wait := 0 } else x } })
       ∧ (controlKind f.body = 2 ∨ controlKind f.body = 4 → exec .frameSendComplete s = .next t))
  ∧ (∀ (snd : Sending) (s : State), s.tx.sending = some snd →
       let idle : State := { s with tx := { s.tx with sending := none } }
       (∀ i, snd.source = .slot i → exec (.frameAbandoned true) s
         = .next { count .truncated idle with tx := { s.tx with sending := none, audio := s.tx.audio.put i none } })
       ∧ (∀ f, snd.source = .control f → exec (.frameAbandoned true) s = .next (count .truncated idle))
       ∧ (s.lu.mismatchRun ≤ 2 → (snd.announce = true → s.lu.mismatchRun < 2) →
         exec (.frameAbandoned false) s = .next { count .txMismatch idle with
         lu := { s.lu with mismatchRun := if snd.announce then s.lu.mismatchRun + 1 else s.lu.mismatchRun } })
       ∧ (s.lu.state = .joined → s.lu.mismatchRun = 2 → snd.announce = true →
         ∃ t, exec (.frameAbandoned false) s = .next t ∧ t.lu.state = .muted
           ∧ t.counters = (count .txMismatch s).counters ∧ t.tx.control = s.tx.control))
  ∧ (∀ s : State, s.lu.state = .joined → 3 ≤ s.lu.mismatchRun →
       ∃ t, exec .readbackMute s = .next t
         ∧ t = { s with cp := t.cp, lu := { s.lu with state := .muted, goodMarks := 0, noMarks := 0 }
                        tx := { s.tx with audio := Vector.replicate 8 none, sending := none }, pu := t.pu, me := t.me }
         ∧ (s.settings.roles.playout = false →
           t.cp = s.cp.post ⟨.duplicateId, s.clock.blockCount, [word 1]⟩ ∧ t.pu = s.pu ∧ t.me = s.me)
         ∧ (s.settings.roles.playout = true → t.pu.seat = .standby))

/-- CONTROL_FRAME_AGED (R10): the queued frames whose age has reached 8 are removed, the first in queue order first, with
reason AGED; the rest stay in order. `FrameDropped` says what a removal tells and does by the frame's kind: CONTROL_DROPPED, a
REQUEST ended NOT_SENT (R123), a fresh frame owed to the record of an ALERT frame (R142), and nothing else. At a block start every queued
frame's age increases by 1 before.
The hand-over of a frame (R10, R6): it takes its place after every frame of its own class or a lower one, and the next number
of the frame sequence; to a full queue a frame of lower class than the last displaces it, reason DISPLACED, and another is not
queued, reason FULL. An announce that is due is handed so. The outcome's code in REQUEST_DONE is the model's (log entry 12), and
so is that the frames of one block start are dropped in queue order (log entry 83). -/
def Obligations.AgedControlFramesAreDropped : Prop :=
  (∀ s : State, (∀ f ∈ s.tx.control, f.age < 8) → exec .controlFrameAged s = .next s)
  ∧ (∀ (before after : List ControlFrame) (f : ControlFrame) (s : State), s.tx.control = before ++ f :: after →
    (∀ g ∈ before, g.age < 8) → 8 ≤ f.age → ∃ u,
      FrameDropped f 0 { s with tx := { s.tx with control := before ++ after } } u
      ∧ exec .controlFrameAged s = exec .controlFrameAged u)
  ∧ (∀ s : State, ∃ t, exec .controlFrameAged s = .next t ∧ Posted s.cp t.cp ∧ t = { s with
    cp := t.cp
    tx := { s.tx with control := s.tx.control.filter fun f => f.age < 8 }
    ku := { s.ku with requests := t.ku.requests }
    au := { s.au with table := t.au.table } })
  ∧ (∀ (f : ControlFrame) (s : State), (s.tx.control.filter fun g => 8 ≤ g.age) = [f] →
    ∃ t, exec .controlFrameAged s = .next t
      ∧ FrameDropped f 0 { s with tx := { s.tx with control := s.tx.control.filter fun g => g.age < 8 } } t)
  ∧ (∀ s : State, exec .controlFrameAged
      { s with tx := { s.tx with control := s.tx.control.map fun f => { f with age := f.age + 1 } } }
        = .next (ageControl s))
  ∧ (∀ (b : ControlBody) (s : State),
    (s.tx.control.length < 8 → handControl b s = queueControl b s)
    ∧ (∀ (l : List ControlFrame) (last : ControlFrame), s.tx.control = l ++ [last] → 8 ≤ s.tx.control.length →
      (controlClass b < controlClass last.body →
        FrameDropped last 1 (queueControl b { s with tx := { s.tx with control := l } }) (handControl b s))
      ∧ (controlClass last.body ≤ controlClass b → FrameDropped ⟨s.tx.frameSeq, b, 0⟩ 2 s (handControl b s)))
    ∧ ∃ before after, s.tx.control = before ++ after
      ∧ queueControl b s = { s with tx := { s.tx with
        control := before ++ ⟨s.tx.frameSeq, b, 0⟩ :: after, frameSeq := s.tx.frameSeq + 1 } }
      ∧ (∀ g ∈ before, controlClass g.body ≤ controlClass b)
      ∧ ∀ g, after.head? = some g → controlClass b < controlClass g.body)
  ∧ ((∀ b, controlClass (.alert b) = 0) ∧ (∀ b, controlClass (.request b) = 2) ∧ (∀ b, controlClass (.answer b) = 2)
    ∧ ∀ b, controlClass (.announce b) = 3)
  ∧ ∀ s : State, s.lu.state = .joined → 16 ≤ s.lu.announceCount → 8 ≤ s.tx.control.length →
    exec .announceDue s = .next { s with
      cp := s.cp.post ⟨.controlDropped, s.clock.blockCount, [1, wordNone, 2]⟩
      lu := { s.lu with announceCount := 0 }
      peers := s.peers.put s.settings.nodeId
        { Tab.at s.peers s.settings.nodeId with body := some (announceBody s) } }

/-- INVALID_FRAME_RECEIVED (R11): a frame with a wrong CRC, a kind of 5 to 7 or a length that is not the kind's own is
discarded and CRC is counted; a frame that fails none of these is no such frame.
AUDIO_FRAME_RECEIVED (R12, R28, R29): the first frame of the block for a known channel, of a new sequence number,
becomes its arrival; a repeated one is ignored; an unknown channel takes an entry where there is room, and otherwise is
refused with TABLE_FULL, the first time since the flag was cleared with CHANNELS_FULL, whose channel word is the model's
(log entry 56); a frame bearing the node's own id is discarded. That a passing frame brought by
INVALID_FRAME_RECEIVED changes nothing is the model's (log entry 6).
A mark begun while the node is receiving (R1, R11), from a start bit to the sixteenth bit time of the gap after the last
CRC bit, counts TRUNCATED, and one begun later counts nothing; the node is then receiving no more. That a frame handed on
at its last CRC bit stays handed on is the model's (log entry 54). -/
def Obligations.ReceivedFrameIsCountedOrTaken : Prop :=
  ((∀ (f : RxFrame) (s : State), s.lu.state ≠ .offline → s.lu.receiving = true → RxFrame.passes f = false →
     exec (.invalidFrameReceived f) s = .next { count .crc s with lu := { s.lu with receiving := false, gap := true } })
   ∧ (∀ f : RxControl, RxControl.passes f = true ↔ crc32 (rxControlBits f) = f.crc
       ∧ (f.kind, f.len) ∈ [((1 : BitVec 3), (40 : BitVec 7)), (2, 32), (3, 8), (4, 6)])
   ∧ ∀ (f : RxFrame) (s : State), RxFrame.passes f = true → exec (.invalidFrameReceived f) s = .next s)
  ∧ (∀ (f : RxAudio) (s : State), s.lu.state ≠ .offline → s.lu.receiving = true → RxAudio.passes f = true →
       let s' : State := { s with lu := { s.lu with receiving := false, gap := true } }
       let a := arrivalOf f s.clock.blockCount
       (f.node = s.settings.nodeId → exec (.audioFrameReceived f) s = .next s')
       ∧ (∀ e, f.node ≠ s.settings.nodeId → findEntry f.node f.slot s.cu.table = some e →
         ((e.arrival = none ∧ f.seq ≠ e.seq) ∨ (∃ p, e.arrival = some p ∧ p.block ≠ s.clock.blockCount)) →
         exec (.audioFrameReceived f) s = .next { s' with cu := { s.cu with
           table := s.cu.table.map fun x => if x.for f.node f.slot then { x with arrival := some a } else x } })
       ∧ (∀ e, f.node ≠ s.settings.nodeId → findEntry f.node f.slot s.cu.table = some e →
         ((e.arrival = none ∧ f.seq = e.seq) ∨ (∃ p, e.arrival = some p ∧ p.block = s.clock.blockCount)) →
         exec (.audioFrameReceived f) s = .next s')
       ∧ (f.node ≠ s.settings.nodeId → findEntry f.node f.slot s.cu.table = none →
         s.cu.table.length + unfilledReserved s < 24 →
         exec (.audioFrameReceived f) s = .next { s' with cu := { s.cu with
           table := insertEntry (newEntry f.node f.slot false a) s.cu.table } })
       ∧ (f.node ≠ s.settings.nodeId → findEntry f.node f.slot s.cu.table = none →
         24 ≤ s.cu.table.length + unfilledReserved s → s.cu.fullReported = true →
         exec (.audioFrameReceived f) s = .next (count .tableFull s'))
       ∧ (f.node ≠ s.settings.nodeId → findEntry f.node f.slot s.cu.table = none →
         24 ≤ s.cu.table.length + unfilledReserved s → s.cu.fullReported = false →
         exec (.audioFrameReceived f) s = .next { count .tableFull s' with
           cp := s.cp.post
             ⟨.channelsFull, s.clock.blockCount, [word (f.node.val * 8 + f.slot.val), word s.cu.table.length]⟩
           cu := { s.cu with fullReported := true } }))
  ∧ ∀ (k : Nat) (s : State), s.tx.sending = none →
       let u : State := { s with lu := { s.lu with receiving := false, gap := false } }
       ((s.lu.receiving = true ∨ (s.lu.gap = true ∧ k ≤ 16)) → cutOff k s = count .truncated u)
       ∧ (s.lu.receiving = false → (s.lu.gap = false ∨ 16 < k) → cutOff k s = u)

/-- ANNOUNCE_RECEIVED (R20, R23): another node's announce replaces that node's Peer Table entry whole, PRESENT, with 0
blocks since, with its PEER_STATE notices. At a CALLER node each line summary acts on the Air Queue (R119): a READY line joins
it with the stamp that its age gives, keeps its place, or takes a fresh one, and any other line leaves it, each with AIR_QUEUE.
A LINK peer's echo of an own record confirms it (R154), with ALERT_CONFIRMED the first time.
An own id heard in LISTENING, or in JOINED with another stamp, posts DUPLICATE_ID with cause HEARD and mutes the node;
with the own stamp, or in MUTED, it is discarded. The change codes of PEER_STATE are the model's (log entry 20), and so is
the cause word of DUPLICATE_ID (log entry 64). That the id an announce bears is the node part of its arbitration field is
the model's (log entry 80).
ANNOUNCE_DUE (R21): at 16 the announce count is set to 0 and an announce is queued, its body built from the owning
units' values and written into the SELF entry; the count and the values are otherwise left.
PEER_LOST and PEER_ABSENT (R24): a PRESENT entry at 64 becomes LOST, keeping its body; a LOST entry at 1,088 becomes
ABSENT, its stamp, roles and body cleared; each posts PEER_STATE first. The callers of a LOST peer leave the Air Queue
(R120), and its alerts end (R145), in orders that are the model's (log entries 84 and 87). At a block start the count of a PRESENT or LOST entry increases by 1 before, and
every other entry is left. That an ABSENT entry's count is 0 is the model's (log entry 69). -/
def Obligations.AnnouncesAreTakenAndSent : Prop :=
  (∀ (f : RxControl) (s : State), s.lu.state ≠ .offline → s.lu.receiving = true → RxControl.passes f = true →
     f.kind = 1 →
     let b := parseAnnounce f.body
     let s' : State := { s with lu := { s.lu with receiving := false, gap := true } }
     let peers := s.peers.put f.node ⟨.present, b.stamp, b.roles, 0, some b⟩
     let old := Tab.at s.peers f.node
     let note (n : Nat) (cp : ControlPort) : ControlPort :=
       cp.post ⟨.peerState, s.clock.blockCount, [word f.node, word n]⟩
     let seen : ControlPort := if old.state = .absent then note 1 s.cp else
       let back := if old.state = .lost then note 1 s.cp else s.cp
       if old.stamp = b.stamp then back else note 3 back
     let line (l : Fin 3) : LineSummary := Tab.at b.lines l
     let stamp (l : Fin 3) : Word := s.clock.blockCount - word (line l).age
     let kept (l : Fin 3) (e : AirEntry) : Prop :=
       (s.clock.blockCount - e.stamp).toNat ≤ (line l).age + 24 ∨ (line l).age = 65535
     let quiet (l : Fin 3) : Prop := ((line l).state = .ready ∧ ∃ e, airFind f.node l s = some e ∧ kept l e)
       ∨ ((line l).state ≠ .ready ∧ airFind f.node l s = none)
     let queue : List AirEntry := s.ku.airQueue
     let without (l : Fin 3) : List AirEntry := queue.filter fun e => !(e.node == f.node && e.line == l)
     let placed (l : Fin 3) (q : List AirEntry) : List AirEntry :=
       airInsert s.clock.blockCount ⟨f.node, l, stamp l⟩ q
     let told (l : Fin 3) (n : Nat) (q : List AirEntry) (cp : ControlPort) : ControlPort :=
       cp.post ⟨.airQueue, s.clock.blockCount, [word f.node, word (l.val + 1), word n, word q.length]⟩
     let unseen : Prop := b.roles.link = false ∨ b.echo = none
     (f.node ≠ s.settings.nodeId → ∃ t, exec (.announceReceived f) s = .next t ∧ Posted seen t.cp
       ∧ t = { s' with cp := t.cp, peers := peers, ku := { s.ku with airQueue := t.ku.airQueue }, au := t.au }
       ∧ (unseen → t.au = s.au) ∧ (s.settings.roles.caller = false → t.ku = s.ku)
       ∧ (s.settings.roles.caller = false → unseen → t.cp = seen)
       ∧ (∀ id, b.roles.link = true → b.echo = some id →
         ((∀ r ∈ s.au.table, r.id = id → r.id / 256 ≠ s.settings.nodeId.val ∨ r.confirmed = true) →
           t.au = s.au ∧ (s.settings.roles.caller = false → t.cp = seen))
         ∧ ∀ r, Sole r s → r.id = id → r.id / 256 = s.settings.nodeId.val → r.confirmed = false →
           t.au = { s.au with table := s.au.table.map fun x => if x.id = id then { r with confirmed := true } else x }
           ∧ (∃ cp, Posted seen cp ∧ t.cp = cp.post ⟨.alertConfirmed, s.clock.blockCount, [word id]⟩)
           ∧ (s.settings.roles.caller = false →
             t.cp = seen.post ⟨.alertConfirmed, s.clock.blockCount, [word id]⟩))
       ∧ (s.settings.roles.caller = true →
         (∀ e, e.node ≠ f.node → (e ∈ t.ku.airQueue ↔ e ∈ queue))
         ∧ (∀ l, ((line l).state ≠ .ready → airFind f.node l t = none)
           ∧ ((line l).state = .ready → airFind f.node l s = none → airFind f.node l t = some ⟨f.node, l, stamp l⟩)
           ∧ ∀ e, (line l).state = .ready → airFind f.node l s = some e →
             (kept l e → airFind f.node l t = some e)
             ∧ (¬ kept l e → airFind f.node l t = some ⟨f.node, l, stamp l⟩))
         ∧ (unseen → (∀ l, quiet l) → t.ku = s.ku ∧ t.cp = seen)
         ∧ ∀ l, unseen → (∀ j, j ≠ l → quiet j) →
           ((line l).state = .ready → airFind f.node l s = none →
             t.ku.airQueue = placed l queue ∧ t.cp = told l 0 (placed l queue) seen)
           ∧ ∀ e, airFind f.node l s = some e →
             ((line l).state ≠ .ready → t.ku.airQueue = without l ∧ t.cp = told l 1 (without l) seen)
             ∧ ((line l).state = .ready → ¬ kept l e → t.ku.airQueue = placed l (without l)
               ∧ t.cp = told l 0 (placed l (without l)) (told l 1 (without l) seen))))
     ∧ (f.node = s.settings.nodeId → s.lu.state = .muted ∨ (s.lu.state = .joined ∧ b.stamp = s.lu.stamp) →
       exec (.announceReceived f) s = .next s')
     ∧ (f.node = s.settings.nodeId → s.lu.state = .listening ∨ (s.lu.state = .joined ∧ b.stamp ≠ s.lu.stamp) →
       ∃ t, exec (.announceReceived f) s = .next t ∧ t.lu = { s'.lu with state := .muted, goodMarks := 0, noMarks := 0 }
         ∧ t.tx.audio = Vector.replicate 8 none ∧ t.tx.control = s.tx.control ∧ t.peers = s.peers ∧ Posted s.cp t.cp
         ∧ Posted (s.cp.post ⟨.duplicateId, s.clock.blockCount, [word 0]⟩) t.cp
         ∧ (s.settings.roles.playout = false →
           t.cp = s.cp.post ⟨.duplicateId, s.clock.blockCount, [word 0]⟩ ∧ t.pu = s.pu)))
  ∧ (∀ s : State, s.lu.state = .joined → 16 ≤ s.lu.announceCount → s.tx.control.length < 8 →
       exec .announceDue s = .next { s with
         lu := { s.lu with announceCount := 0 }
         tx := { s.tx with
           control := insertControl ⟨s.tx.frameSeq, .announce (announceBody s), 0⟩ s.tx.control
           frameSeq := s.tx.frameSeq + 1 }
         peers := s.peers.put s.settings.nodeId
           { Tab.at s.peers s.settings.nodeId with body := some (announceBody s) } }
       ∧ (announceBody s).stamp = s.lu.stamp ∧ (announceBody s).roles = s.settings.roles
       ∧ (s.settings.roles.playout = false → (announceBody s).seat = .standby)
       ∧ (s.settings.roles.link = false →
         (announceBody s).silence = false ∧ (announceBody s).link = .down ∧ (announceBody s).echo = none)
       ∧ (s.settings.roles.caller = false → ∀ l, Tab.at (announceBody s).lines l = ⟨.idle, 0⟩))
  ∧ (∀ (k : Fin 8) (s : State), (Tab.at s.peers k).state = .present → 64 ≤ (Tab.at s.peers k).since →
    ∃ t, exec (.peerLost k) s = .next t ∧ Posted (s.cp.post ⟨.peerState, s.clock.blockCount, [word k, word 2]⟩) t.cp
      ∧ t = { s with cp := t.cp, peers := s.peers.put k { Tab.at s.peers k with state := .lost }, ku := t.ku
                     au := t.au }
      ∧ (∀ e ∈ t.ku.airQueue, e.node ≠ k) ∧ (∀ r ∈ t.au.table, r.own s = false → r.id / 256 ≠ k.val)
      ∧ (∀ e ∈ s.ku.airQueue, e.node ≠ k → e ∈ t.ku.airQueue))
  ∧ (∀ (k : Fin 8) (s : State), (Tab.at s.peers k).state = .lost → 1088 ≤ (Tab.at s.peers k).since →
    ∃ t, exec (.peerAbsent k) s = .next t ∧ Posted (s.cp.post ⟨.peerState, s.clock.blockCount, [word k, word 0]⟩) t.cp
      ∧ t = { s with cp := t.cp, peers := s.peers.put k Peer.absent, au := t.au }
      ∧ ∀ r ∈ t.au.table, r.own s = false → r.id / 256 ≠ k.val)
  ∧ ∀ (k : Fin 8) (s : State),
    let p := Tab.at s.peers k
    ((p.state = .present ∨ p.state = .lost) → ∃ t,
      exec (.peerLost k) { s with peers := s.peers.put k { p with since := min 65535 (p.since + 1) } } = .next t
        ∧ exec (.peerAbsent k) t = .next (peerTickAt k s))
    ∧ (p.state ≠ .present → p.state ≠ .lost → peerTickAt k s = s)

/-! ## Commands that read -/

/-- READ COUNTERS returns the five values and sets all five to 0 (R13); a counter counts only while its bit of the
counter-enable mask is set, stopping at 65,535, and leaves the other four.
The commands that only read (R40, R79, R105, R130, R191), at a node on the line with the role each asks for: each
returns the state its rule names, and nothing but the port changes. The words of a cue source, a voice holder and READ
SEAT without the role are the model's (log entries 14, 19 and 26), and so are those of a channel id, of the active tier
set (log entry 56) and of a FREE extent (log entry 61). So are the words of hook and levels (log entry 75). -/
def Obligations.ReadCommandsReturnTheirState : Prop :=
  ((∀ (m : CommandMessage) (s : State), Running s .readCounters m →
     exec .readCounters s = .next (answer m .ok ((List.finRange 5).map fun c => word (Tab.at s.counters c))
       { s with counters := Vector.replicate 5 0 }))
   ∧ ∀ (c : Counter) (s : State), count c s = { s with counters := (count c s).counters }
       ∧ Tab.at (count c s).counters c.index
         = (if Tab.at s.settings.counterEnable c.index then min 65535 (Tab.at s.counters c.index + 1)
           else Tab.at s.counters c.index)
       ∧ ∀ d, d ≠ c.index → Tab.at (count c s).counters d = Tab.at s.counters d)
  ∧ (∀ (m : CommandMessage) (s : State), s.settings.roles.site = false →
       (Running s .readChannels m → exec .readChannels s = .next (answer m .ok
         (word s.cu.table.length :: s.cu.table.flatMap fun e =>
           [word (e.node.val * 8 + e.slot.val), word e.tier.ctorIdx, wordFlag e.air, wordFlag e.cue, wordFlag e.mono, wordFlag e.own
            , wordFlag e.endPending, word e.tag.toNat, word e.presence.ctorIdx, word e.missing, word e.seq.toNat]) s))
       ∧ (Running s .readTiers m → exec .readTiers s = .next (answer m .ok
         ([wordFlag s.cu.active.alert, wordFlag s.cu.active.live, wordFlag s.cu.active.playout, wordFlag s.cu.active.filler
           , wordOpt (s.cu.inForce.map Tier.ctorIdx), word s.cu.targets.alert, word s.cu.targets.live
           , word s.cu.targets.playout, word s.cu.targets.filler, word s.cu.weights.alert, word s.cu.weights.live
           , word s.cu.weights.playout, word s.cu.weights.filler, word s.settings.duck.alertOverLive
           , word s.settings.duck.alertOverPlayout, word s.settings.duck.alertOverFiller
           , word s.settings.duck.liveOverPlayout, word s.settings.duck.liveOverFiller
           , word s.settings.duck.playoutOverFiller]) s))
       ∧ (∀ (w : Word) (c : Fin 256), w.toNat = c.val → Running s (.readClip w) m → exec (.readClip w) s = .next (answer m .ok
         ([word (clipAt s c).state.ctorIdx, word (clipAt s c).format.ctorIdx, word (clipAt s c).length
           , word (clipAt s c).map.length, word (clipAt s c).map.length] ++ (clipAt s c).map.map (fun e => word e)
           ++ [word (clipAt s c).queued, word (clipAt s c).written, wordFlag (clipAt s c).sealPending
               , word (clipAt s c).segue, word (clipAt s c).trim, wordFlag (decide (252 ≤ c.val))
               , wordFlag (clipAt s c).assigned, word (clipAt s c).capacity, word (fillEntriesOf c s)]) s))
       ∧ (∀ (w : Word) (g : Fin 16), w.toNat = g.val → Running s (.readGroup w) m → exec (.readGroup w) s = .next (answer m .ok
         (word (Tab.at s.cs.groups g).clips.length :: (Tab.at s.cs.groups g).clips.map (fun c => word c)
           ++ [word (Tab.at s.cs.groups g).mode.ctorIdx, word (Tab.at s.cs.groups g).start
               , word (Tab.at s.cs.groups g).pointer]) s))
       ∧ (∀ (w n : Word), w.toNat < 512 → Running s (.readExtents w n) m → ∃ owners,
         owners = (s.cs.owner.toList.drop w.toNat).take (max 1 (min 64 n.toNat))
         ∧ exec (.readExtents w n) s = .next (answer m .ok
           (word owners.length :: owners.map (fun o => wordOpt (o.map Fin.val))
             ++ [word (s.cs.owner.toList.filter Option.isNone).length, word (fillFree s)]) s))
       ∧ (s.settings.roles.playout = true → Running s .readCue m → exec .readCue s = .next (answer m .ok
         (word s.pu.cues.length :: s.pu.cues.flatMap fun e => [word e.tag.toNat] ++ sourceWords e.source
           ++ [word e.startMode.ctorIdx, e.startTime, word e.gain, word e.fadeIn, word e.fadeOut, word e.tier.ctorIdx
               , word e.hold.ctorIdx, word e.endAction.ctorIdx, word e.state.ctorIdx, wordFlag e.due, word e.dueSince
               , wordOpt ((playerOf s e.tag).map Fin.val)]) s))
       ∧ (Running s .readSeat m → exec .readSeat s = .next (answer m .ok
         (if s.settings.roles.playout then
           [word s.pu.seat.ctorIdx, word s.pu.bidCount, word s.pu.yieldTimer, word s.pu.airRun, wordFlag s.pu.holdLatch
            , word s.pu.releaseCount, wordFlag (s.cu.inForce == some .alert)
            , wordFlag (s.au.table.any fun r => r.state == .airing), wordFlag s.pu.holdLatch]
         else List.replicate 9 0) s))
       ∧ (s.settings.roles.caller = true → Running s .readLines m → exec .readLines s = .next (answer m .ok
         ((List.finRange 3).flatMap (fun l =>
           [word (lineAt s l).state.ctorIdx, wordName (lineAt s l).hook, wordName (lineAt s l).ring.level
            , wordName (lineAt s l).loop.level, word (lineAt s l).timer, word (lineAt s l).loopAbsent
            , voiceWord (lineAt s l).voice, word (lineAt s l).checkCount, word (lineAt s l).checkPeak
            , wordFlag (lineAt s l).poorHybrid, word (lineAt s l).readyAge])
           ++ [word s.ku.onAir, word s.settings.maxOnAir]) s))
       ∧ (s.settings.roles.caller = true → Running s .readAirQueue m → exec .readAirQueue s = .next (answer m .ok
         (word s.ku.airQueue.length :: s.ku.airQueue.flatMap fun e =>
           [word e.node, word (e.line.val + 1), word (s.clock.blockCount - e.stamp).toNat]) s))
       ∧ (Running s .readRequests m → exec .readRequests s = .next (answer m .ok
         (word s.ku.requests.length :: s.ku.requests.flatMap fun r =>
           [word r.tag.toNat, word r.verb.ctorIdx, word r.target, word r.item, word r.argument, word r.phase.ctorIdx
            , word r.wait]) s))
       ∧ (Running s .readPanel m → exec .readPanel s = .next (answer m .ok
         (poolWords s ++ [word s.tg.lineUp.ctorIdx, word s.tg.route.ctorIdx]
           ++ (s.settings.lamps.toList.zip s.tg.lamps.toList).flatMap (fun x =>
             [word x.1.condition.ctorIdx, modeWord x.1.mode, wordFlag x.2.lit, word x.2.blink])
           ++ (s.settings.inputs.toList.zip s.tg.inputs.toList).flatMap (fun x =>
             [word (actionCode x.1), wordName x.2.level, word x.2.run, word x.2.holdOff])
           ++ s.tg.coughs.toList.map word) s)))

/-! ## The Contribution Unit -/

/-- The presence decision of one entry (R31, R33, R34), and what it contributes (R32): a pending block of the closing
count is taken; without one an entry whose END is pending leaves, and any other is CONCEALED once, at half level, and
then STALE, silent.
Tiers and targets (R35, R36): the tier in force is the highest tier with a PRESENT or CONCEALED entry whose AIR is
set; a tier's target is 16 with no active tier above it, and otherwise the smallest duck value for it among them.
CHANNEL_GONE (R34, R29): an entry whose missing count has reached 64 leaves the table with its notice, which tells the
channel id, the tier and the AIR flag; every other entry stays, and the full-reported flag clears. The channel id's one
word is the model's (log entry 56).
The decision of a block start (R31, R35) decides every entry for the block that closes and then recomputes the tiers; a
change of the tier in force posts TIER_CHANGE with the previous and the new one.
Weights (R37): at each recomputation, of which a block start makes one, every tier's weight moves one step toward its
target, up by 1 if below, down by 1 if above, not at all if equal; it stays within 0 to 16 and never moves by more than 1;
a full duck from 16 to 0 takes 16 steps, the recovery 16 more; the tier's one weight is the one at which PROGRAM takes its
entries; at reset all are 16. -/
def Obligations.PresenceAndTiersDecided : Prop :=
  (∀ (now : Word) (e : Entry),
     (∀ a, e.arrival = some a → a.block = now → ∃ d, decideEntry now e = some d ∧ d.presence = .present
       ∧ d.missing = 0 ∧ d.samples = a.samples ∧ d.seq = a.seq ∧ d.tier = a.tier ∧ d.air = a.air ∧ d.cue = a.cue
       ∧ d.mono = a.mono ∧ d.tag = a.tag ∧ d.endPending = a.last ∧ d.arrival = none ∧ d.node = e.node
       ∧ d.slot = e.slot ∧ d.own = e.own ∧ contribution d = a.samples)
     ∧ ((∀ a, e.arrival = some a → a.block ≠ now) → (e.endPending = true → decideEntry now e = none)
       ∧ (e.endPending = false → ∃ d, decideEntry now e
           = some { e with arrival := none, missing := e.missing + 1, presence := d } ∧
         (e.missing = 0 → d = .concealed ∧ contribution { e with presence := d }
           = e.samples.map fun p => (p.1 / 2, p.2 / 2))
         ∧ (0 < e.missing → d = .stale ∧ contribution { e with presence := d } = silence))))
  ∧ (∀ s : State, let t := recomputeTiers s
       (∀ k, t.cu.active.get k = true ↔ ∃ e ∈ s.cu.table, e.tier = k ∧ e.air = true ∧ e.presence ≠ .stale)
       ∧ (t.cu.inForce = none ↔ ∀ k, t.cu.active.get k = false)
       ∧ (∀ k, t.cu.inForce = some k →
         t.cu.active.get k = true ∧ ∀ u : Tier, u.ctorIdx < k.ctorIdx → t.cu.active.get u = false)
       ∧ t.cu.targets.alert = 16
       ∧ t.cu.targets.live = (if t.cu.active.alert then min 16 s.settings.duck.alertOverLive else 16)
       ∧ t.cu.targets.playout = min (if t.cu.active.alert then min 16 s.settings.duck.alertOverPlayout else 16)
           (if t.cu.active.live then min 16 s.settings.duck.liveOverPlayout else 16)
       ∧ t.cu.targets.filler = min (if t.cu.active.alert then min 16 s.settings.duck.alertOverFiller else 16)
           (min (if t.cu.active.live then min 16 s.settings.duck.liveOverFiller else 16)
             (if t.cu.active.playout then min 16 s.settings.duck.playoutOverFiller else 16)))
  ∧ (∀ (node slot : Fin 8) (e : Entry) (s : State), findEntry node slot s.cu.table = some e → 64 ≤ e.missing →
       exec (.channelGone node slot) s = .next { s with
         cp := s.cp.post ⟨.channelGone, s.clock.blockCount, [word (node.val * 8 + slot.val), word e.tier.ctorIdx, wordFlag e.air]⟩
         cu := { s.cu with
           table := s.cu.table.filter fun x => !(x.node == node && x.slot == slot), fullReported := false } })
  ∧ (∀ (closing : Word) (s : State), (∀ e ∈ s.cu.table, e.missing < 63) →
       let decided := s.cu.table.filterMap (decideEntry closing)
       presenceDecision closing s = recomputeTiers { s with cu := { s.cu with
         table := decided
         fullReported := s.cu.fullReported && decide (decided.length = s.cu.table.length) } })
  ∧ (∀ s : State, let t := recomputeTiers s
       (t.cu.inForce = s.cu.inForce → t.cp = s.cp)
       ∧ (t.cu.inForce ≠ s.cu.inForce → t.cp = s.cp.post ⟨.tierChange, s.clock.blockCount,
         [wordOpt (s.cu.inForce.map Tier.ctorIdx), wordOpt (t.cu.inForce.map Tier.ctorIdx)]⟩))
  ∧ (∀ (s : State) (k : Tier), let t := recomputeTiers s
    let w := s.cu.weights.get k
    let v := t.cu.weights.get k
    (w < t.cu.targets.get k → v = w + 1) ∧ (t.cu.targets.get k < w → v + 1 = w) ∧ (w = t.cu.targets.get k → v = w)
    ∧ t.cu.targets.get k ≤ 16 ∧ (w ≤ 16 → v ≤ 16) ∧ v ≤ w + 1 ∧ w ≤ v + 1
    ∧ t = { s with cp := t.cp, cu := { s.cu with
        active := t.cu.active, inForce := t.cu.inForce, targets := t.cu.targets, weights := t.cu.weights } })
  ∧ (stepWeight 0)^[16] 16 = 0 ∧ (stepWeight 16)^[16] 0 = 16 ∧ (stepWeight 0)^[15] 16 ≠ 0 ∧ (stepWeight 16)^[15] 0 ≠ 16
  ∧ (∀ s : State, programAcc s = (s.cu.table.filter fun e => e.air).foldl
      (fun acc e => addWeighted acc (contribution e) (s.cu.weights.get e.tier)) zeroAcc)
  ∧ ∀ k, State.reset.cu.weights.get k = 16

/-! ## The Mix Engine -/

/-- Ramped gains (R42): at rest the current value at every sample; ramping, C0 + floor((T − C0) × (48b + k + 1) / (48n))
at sample k of block b; after a block b increases by 1 and the current value is the G of sample 47; at the last sample the
gain is exactly T and comes to rest there; every G lies between C0 and T, and the sequence is monotonic. At reset every
ramped gain is at rest, at 4,096 or, for envelopes, 0. -/
def Obligations.RampedGainIsLinearToTarget : Prop :=
  (∀ (r : Ramp) (k : Nat), r.length ≤ r.position → r.gain k = (r.current : Int) ∧ r.advance = r)
  ∧ (∀ (r : Ramp) (k : Nat), r.position < r.length → k < 48 →
    r.gain k = (r.start : Int)
      + (((r.target : Int) - r.start) * ((48 * r.position + k + 1 : Nat) : Int)) / ((48 * r.length : Nat) : Int)
    ∧ min (r.start : Int) r.target ≤ r.gain k ∧ r.gain k ≤ max (r.start : Int) r.target
    ∧ (k + 1 < 48 → r.start ≤ r.target → r.gain k ≤ r.gain (k + 1))
    ∧ (k + 1 < 48 → r.target ≤ r.start → r.gain (k + 1) ≤ r.gain k)
    ∧ (r.advance.current : Int) = r.gain 47 ∧ r.advance.position = r.position + 1
    ∧ r.advance.target = r.target ∧ r.advance.start = r.start ∧ r.advance.length = r.length)
  ∧ (∀ r : Ramp, r.position + 1 = r.length → r.gain 47 = (r.target : Int) ∧ r.advance.current = r.target
      ∧ r.advance.atRest = true)
  ∧ (∀ r : Ramp, r.position + 1 < r.length →
      (r.start ≤ r.target → r.gain 47 ≤ r.advance.gain 0) ∧ (r.target ≤ r.start → r.advance.gain 0 ≤ r.gain 47))
  ∧ (∀ d, (Tab.at State.reset.me.desk d).gain = Ramp.rest 4096)
  ∧ (∀ l, (Tab.at State.reset.me.caller l).gain = Ramp.rest 4096)
  ∧ (∀ p, Tab.at State.reset.me.playerGain p = Ramp.rest 4096 ∧ Tab.at State.reset.me.playerEnvelope p = Ramp.rest 0)
  ∧ State.reset.me.alertEnvelope = Ramp.rest 0 ∧ (∀ b, Tab.at State.reset.me.trims b = Ramp.rest 4096)
  ∧ ∀ v, (Ramp.rest v).atRest = true ∧ (Ramp.rest v).current = v

/-- A new target (R43): with a length of 1 to 255 the ramp restarts from the present current value; length 0 is a jump;
a target outside the gain's range is clamped to it first.
The source stage (R45): its rounding and its limits; a source saturates only under a gain above 4,096. The output stage
(R51): each accumulator value times the gain of its sample, rounded and saturated, and one count for each sample that
saturates. The hold feed at every weight (R53). The telephone converters (R56, R57), with the 16-bit limit. -/
def Obligations.GainTargetsAndSampleLimits : Prop :=
  (∀ (r : Ramp) (v n : Nat),
     (0 < n → r.giveGain v n = ⟨r.current, min 8192 v, r.current, n, 0⟩
       ∧ r.giveEnvelope v n = ⟨r.current, min 4096 v, r.current, n, 0⟩)
     ∧ (r.giveGain v 0).current = min 8192 v ∧ (r.giveGain v 0).target = min 8192 v ∧ (r.giveGain v 0).atRest = true
     ∧ (r.giveEnvelope v 0).current = min 4096 v ∧ (r.giveEnvelope v 0).target = min 4096 v
     ∧ (r.giveEnvelope v 0).atRest = true
     ∧ (0 < n → ∀ k, k < 48 → r.current = min 8192 v → (r.giveGain v n).gain k = (r.current : Int)))
  ∧ ((∀ x g : Int, -8388608 ≤ applyGain x g ∧ applyGain x g ≤ 8388607
       ∧ (-8388608 ≤ (x * g + 2048) / 4096 → (x * g + 2048) / 4096 ≤ 8388607 → applyGain x g = (x * g + 2048) / 4096)
       ∧ (-8388608 ≤ x → x ≤ 8388607 → 0 ≤ g → g ≤ 4096 → applyGain x g = (x * g + 2048) / 4096))
     ∧ (∀ (trim : Ramp) (acc : Block), acc.length = 48 →
         let raw (k : Nat) : Int × Int := ((Prod.fst (acc.getD k (0, 0)) * trim.gain k + 32768) / 65536,
           (Prod.snd (acc.getD k (0, 0)) * trim.gain k + 32768) / 65536)
         let limit (x : Int) : Int := max (-8388608) (min 8388607 x)
         (outputStage trim acc).block = (List.range 48).map (fun k => (limit (raw k).1, limit (raw k).2))
         ∧ (outputStage trim acc).clips = (((List.range 48).flatMap fun k => [(raw k).1, (raw k).2]).filter
             fun x => decide (x < -8388608 ∨ 8388607 < x)).length)
     ∧ (∀ a : Int, trimmed a 4096 = (a + 8) / 16 ∧ trimmed (16 * a) 4096 = a ∧ trimmed a 0 = 0)
     ∧ (∀ (h : Nat) (acc : Block), h ≤ 16 →
         holdOf h acc = acc.map fun p => ((p.1 * (h : Int) + 8) / 16, (p.2 * (h : Int) + 8) / 16))
     ∧ (∀ acc : Block, holdOf 16 acc = acc ∧ holdOf 0 acc = acc.map fun _ => (0, 0))
     ∧ (∀ p q : Int, -32768 ≤ q → q ≤ 32767 → (upStep p q).2 = 256 * q ∧ ∃ a b, (upStep p q).1 = [a, b, 256 * q]
         ∧ a = p + (256 * q - p) / 3 ∧ b = p + ((256 * q - p) * 2) / 3
         ∧ min p (256 * q) ≤ a ∧ a ≤ max p (256 * q) ∧ min p (256 * q) ≤ b ∧ b ≤ max p (256 * q))
     ∧ (∀ a b c : Int × Int, sat16 (downSample a b c) = max (-32768) (min 32767
         ((((a.1 + a.2) + (b.1 + b.2) + (c.1 + c.2) + 3) / 6 + 128) / 256))
         ∧ -32768 ≤ sat16 (downSample a b c) ∧ sat16 (downSample a b c) ≤ 32767)
     ∧ ∀ x : Int, downSample (256 * x, 256 * x) (256 * x, 256 * x) (256 * x, 256 * x) = x)

/-- SET GAIN (R46): a desk input's level at a DESK node, with target ramp length 1 unless the cough hold is set; a caller
line's at a CALLER node; slots 2, 3, 4 and above 7 are refused BAD_PARAM and a slot without its role NOT_ROLE.
SET CHANNEL (R49, R48): a desk input's flags, or a caller line's CUE flag, at a node with the role; the response
carries the flags as they stand; a slot that had produced and stops producing owes its END block. AIR set for a caller
slot is refused BAD_PARAM, and so are a slot without these flags and a flag word above 1. The order of the refusals is the
model's (log entry 41), and so is that a SITE node answers NOT_ROLE before it looks at a word (log entry 115). -/
def Obligations.MixCommandsSetSources : Prop :=
  (∀ (slot gain : Word) (m : CommandMessage) (s : State), Running s (.setGain slot gain) m →
     s.settings.roles.site = false →
     (∀ d : Fin 2, slot.toNat = d.val → s.settings.roles.desk = true →
       exec (.setGain slot gain) s = .next (answer m .ok [] { s with me := { s.me with
         desk := s.me.desk.put d { Tab.at s.me.desk d with
           level := min 8192 gain.toNat
           gain := if (Tab.at s.me.desk d).cough then (Tab.at s.me.desk d).gain
             else (Tab.at s.me.desk d).gain.giveGain (min 8192 gain.toNat) 1 } } }))
     ∧ (∀ l : Fin 3, slot.toNat = l.val + 5 → s.settings.roles.caller = true →
       exec (.setGain slot gain) s = .next (answer m .ok [] { s with me := { s.me with
         caller := s.me.caller.put l { Tab.at s.me.caller l with
           level := min 8192 gain.toNat
           gain := (Tab.at s.me.caller l).gain.giveGain (min 8192 gain.toNat) 1 } } }))
     ∧ (slot.toNat = 2 ∨ slot.toNat = 3 ∨ slot.toNat = 4 ∨ 7 < slot.toNat →
       exec (.setGain slot gain) s = .next (answer m .badParam [] s))
     ∧ ((slot.toNat < 2 ∧ s.settings.roles.desk = false)
         ∨ (5 ≤ slot.toNat ∧ slot.toNat ≤ 7 ∧ s.settings.roles.caller = false) →
       exec (.setGain slot gain) s = .next (answer m .notRole [] s)))
  ∧ (∀ (slot air cue : Word) (a c : Bool) (m : CommandMessage) (s : State), Running s (.setChannel slot air cue) m →
       s.settings.roles.site = false → air = wordFlag a → cue = wordFlag c → ∀ k : Fin 8, slot.toNat = k.val →
       (∀ d : Fin 2, k.val = d.val → s.settings.roles.desk = true → ∃ t,
         exec (.setChannel slot air cue) s = .next (answer m .ok [wordFlag a, wordFlag c] t)
         ∧ t = { s with me := { s.me with
             endOwed := t.me.endOwed
             desk := s.me.desk.put d { Tab.at s.me.desk d with air := a, cue := c } } }
         ∧ (s.tg.lineUp ≠ .on → Tab.at t.me.endOwed k
             = (Tab.at s.me.endOwed k || (Tab.at s.me.produced k && !a && !c)))
         ∧ ∀ j, j ≠ k → Tab.at t.me.endOwed j = Tab.at s.me.endOwed j)
       ∧ (∀ l : Fin 3, k.val = l.val + 5 → s.settings.roles.caller = true → a = false → ∃ t,
         exec (.setChannel slot air cue) s
           = .next (answer m .ok [wordFlag ((lineAt s l).state == .onAir), wordFlag c] t)
         ∧ t = { s with me := { s.me with
             endOwed := t.me.endOwed, caller := s.me.caller.put l { Tab.at s.me.caller l with cue := c } } }
         ∧ Tab.at t.me.endOwed k = (Tab.at s.me.endOwed k
             || (Tab.at s.me.produced k && !c && (lineAt s l).state != .onAir))
         ∧ ∀ j, j ≠ k → Tab.at t.me.endOwed j = Tab.at s.me.endOwed j)
       ∧ (5 ≤ k.val → s.settings.roles.caller = true → a = true →
         exec (.setChannel slot air cue) s = .next (answer m .badParam [] s))
       ∧ (k.val = 2 ∨ k.val = 3 ∨ k.val = 4 → exec (.setChannel slot air cue) s = .next (answer m .badParam [] s))
       ∧ ((k.val < 2 ∧ s.settings.roles.desk = false) ∨ (5 ≤ k.val ∧ s.settings.roles.caller = false) →
         exec (.setChannel slot air cue) s = .next (answer m .notRole [] s)))
  ∧ (∀ (slot air cue : Word) (m : CommandMessage) (s : State), Running s (.setChannel slot air cue) m →
       (s.settings.roles.site = false → 7 < slot.toNat ∨ 1 < air.toNat ∨ 1 < cue.toNat →
         exec (.setChannel slot air cue) s = .next (answer m .badParam [] s))
       ∧ (s.settings.roles.site = true → exec (.setChannel slot air cue) s = .next (answer m .notRole [] s)))
  ∧ ∀ (slot gain : Word) (m : CommandMessage) (s : State), Running s (.setGain slot gain) m →
    s.settings.roles.site = true → exec (.setGain slot gain) s = .next (answer m .notRole [] s)

/-- SET TRIM (R52) gives the named bus trim its target with ramp length 1; a MIX_MINUS bus asks for the CALLER role, and a SITE
node answers NOT_ROLE to every bus (the order is the model's, log entry 115).
READ METERS (R58) returns each bus's last peak, held peak and clip count and the silence monitor, then sets every held
peak and clip count to 0, and is NOT_ROLE at a SITE node (R60).
The silence monitor at a block start (R59), by PROGRAM's last peak. Below the floor: while not SILENT the quiet run rises to
the silence limit and no further, the sound run is 0, and at the limit SILENT is set with PROGRAM_SILENT; while SILENT the quiet
run stays and the sound run is 0. At or above it: the quiet run is 0, and while SILENT the sound run rises by 1 and at 48
clears SILENT, with the sound run 0 and PROGRAM_RESTORED; while not SILENT it stays. Each change of SILENT is the row
PROGRAM_SILENT or PROGRAM_RESTORED on the state with the runs so moved. Each notice tells the peak alone beside its
block count (log entry 40). A quiet run that a loud block has set to 0 while SILENT stays 0 by log entry 43. -/
def Obligations.TrimsMetersAndSilence : Prop :=
  ((∀ (bus trim : Word) (b : Fin 6) (m : CommandMessage) (s : State), Running s (.setTrim bus trim) m →
     s.settings.roles.site = false → bus.toNat = b.val →
     (b.val < 3 ∨ s.settings.roles.caller = true → exec (.setTrim bus trim) s = .next (answer m .ok []
       { s with me := { s.me with trims := s.me.trims.put b ((Tab.at s.me.trims b).giveGain trim.toNat 1) } }))
     ∧ (3 ≤ b.val → s.settings.roles.caller = false → exec (.setTrim bus trim) s = .next (answer m .notRole [] s)))
   ∧ (∀ (bus trim : Word) (m : CommandMessage) (s : State), Running s (.setTrim bus trim) m →
     (s.settings.roles.site = false → 6 ≤ bus.toNat → exec (.setTrim bus trim) s = .next (answer m .badParam [] s))
     ∧ (s.settings.roles.site = true → exec (.setTrim bus trim) s = .next (answer m .notRole [] s)))
   ∧ (∀ (m : CommandMessage) (s : State), Running s .readMeters m → s.settings.roles.site = true →
     exec .readMeters s = .next (answer m .notRole [] s))
   ∧ ∀ (m : CommandMessage) (s : State), Running s .readMeters m → s.settings.roles.site = false →
     ∃ t, exec .readMeters s = .next (answer m .ok
         ((List.finRange 6).flatMap (fun b =>
           [word (Tab.at s.me.meters b).last, word (Tab.at s.me.meters b).held, word (Tab.at s.me.meters b).clips])
         ++ [wordFlag s.me.silent, word s.me.quietRun, word s.me.soundRun]) t)
       ∧ t = { s with me := { s.me with meters := t.me.meters } }
       ∧ ∀ b, Tab.at t.me.meters b = ⟨(Tab.at s.me.meters b).last, 0, 0⟩)
  ∧ (∀ s : State,
    (s.me.silent = false → s.settings.silenceLimit ≤ s.me.quietRun → exec .programSilent s = .next { s with
      cp := s.cp.post ⟨.programSilent, s.clock.blockCount, [word (Tab.at s.me.meters 0).last]⟩
      me := { s.me with silent := true } })
    ∧ (s.me.silent = true ∨ s.me.quietRun < s.settings.silenceLimit → exec .programSilent s = .next s)
    ∧ (s.me.silent = true → 48 ≤ s.me.soundRun → exec .programRestored s = .next { s with
      cp := s.cp.post ⟨.programRestored, s.clock.blockCount, [word (Tab.at s.me.meters 0).last]⟩
      me := { s.me with silent := false, soundRun := 0 } })
    ∧ (s.me.silent = false ∨ s.me.soundRun < 48 → exec .programRestored s = .next s))
  ∧ ∀ s : State,
    let peak := (Tab.at s.me.meters 0).last
    (peak < s.settings.silenceFloor → s.me.silent = false →
      (s.me.quietRun + 1 < s.settings.silenceLimit →
        silenceMonitor s = { s with me := { s.me with quietRun := s.me.quietRun + 1, soundRun := 0 } })
      ∧ (s.settings.silenceLimit ≤ s.me.quietRun + 1 → silenceMonitor s = { s with
        cp := s.cp.post ⟨.programSilent, s.clock.blockCount, [word peak]⟩
        me := { s.me with silent := true, quietRun := s.settings.silenceLimit, soundRun := 0 } })
      ∧ exec .programSilent { s with me := { s.me with
        quietRun := min s.settings.silenceLimit (s.me.quietRun + 1), soundRun := 0 } } = .next (silenceMonitor s))
    ∧ (peak < s.settings.silenceFloor → s.me.silent = true →
      silenceMonitor s = { s with me := { s.me with soundRun := 0 } })
    ∧ (s.settings.silenceFloor ≤ peak → s.me.silent = false →
      silenceMonitor s = { s with me := { s.me with quietRun := 0 } })
    ∧ (s.settings.silenceFloor ≤ peak → s.me.silent = true →
      (s.me.soundRun + 1 < 48 →
        silenceMonitor s = { s with me := { s.me with quietRun := 0, soundRun := s.me.soundRun + 1 } })
      ∧ (48 ≤ s.me.soundRun + 1 → silenceMonitor s = { s with
        cp := s.cp.post ⟨.programRestored, s.clock.blockCount, [word peak]⟩
        me := { s.me with silent := false, quietRun := 0, soundRun := 0 } })
      ∧ exec .programRestored { s with me := { s.me with
        quietRun := 0, soundRun := min 48 (s.me.soundRun + 1) } } = .next (silenceMonitor s))

/-- The source stage at a block start (R9, R30, R41, R45, R47, R48). What the AUDIO queue still holds is emptied, with
OVERRUN counted once for each frame. A block handed takes its slot's entry of the AUDIO queue in JOINED alone, with the
class of R6, and is the slot's own arrival for the block just opened; its sequence number is the one held before, which
then increases by 1. The stage hands for slots 2, 3 and 4 the blocks that the players and the alert player give it, and
for each other slot its own block, if it has one; it keeps whether each slot produced, clears the END block owed of the
slots that are no player's, and advances every source gain, program gain and envelope, and nothing else changes. A desk
input or caller line produces while its flags ask for it, under its source gain; LINE-UP takes slot 0 with the voice's
samples under no gain; a slot that owes its END block hands one with END set; any other hands none. -/
def Obligations.SourceStageHandsBlocks : Prop :=
  let queued (slot : Fin 8) (b : SourceBlock) (s : State) : AudioFrame :=
    let cls := if b.lineUp = true ∧ slot = 0 then 7 else
      match b.tier with
      | .alert => 1
      | .live => 4
      | .playout => 5
      | .filler => 6
    ⟨cls, b.tier, b.air, b.cue, b.mono, b.last, Tab.at s.me.seq slot, b.tag, b.samples⟩
  let arrived (slot : Fin 8) (b : SourceBlock) (s : State) : Arrival :=
    ⟨s.clock.blockCount, channelTier slot b.tier, b.air, b.cue, b.mono, b.last, b.tag, Tab.at s.me.seq slot,
      monoSides b.mono b.samples⟩
  (∀ s : State, Tab.at s.counters Counter.overrun.index ≤ 65535 →
    let n := (s.tx.audio.toList.filter Option.isSome).length
    emptyAudio s = { s with tx := { s.tx with audio := Vector.replicate 8 none }, counters := (emptyAudio s).counters }
    ∧ Tab.at (emptyAudio s).counters Counter.overrun.index
      = (if Tab.at s.settings.counterEnable Counter.overrun.index then
          min 65535 (Tab.at s.counters Counter.overrun.index + n) else Tab.at s.counters Counter.overrun.index)
    ∧ ∀ c, c ≠ Counter.overrun → Tab.at (emptyAudio s).counters c.index = Tab.at s.counters c.index)
  ∧ (∀ (slot : Fin 8) (b : SourceBlock) (s : State),
    let t := handBlock slot b s
    t = { s with me := { s.me with seq := s.me.seq.put slot (Tab.at s.me.seq slot + 1) }, tx := t.tx, cu := t.cu }
    ∧ (s.lu.state = .joined → t.tx = { s.tx with audio := s.tx.audio.put slot (some (queued slot b s)) })
    ∧ (s.lu.state ≠ .joined → t.tx = s.tx)
    ∧ ∃ e, findEntry s.settings.nodeId slot t.cu.table = some e ∧ e.arrival = some (arrived slot b s))
  ∧ (∀ (input : BlockInput) (ups : Tab (List Int) 3) (a b alert : Option SourceBlock) (s : State),
    let t := sourceStage input ups a b alert s
    let player (slot : Fin 8) : Prop := slot.val ∈ [2, 3, 4]
    let given (slot : Fin 8) : Option SourceBlock :=
      if slot = 2 then a else if slot = 3 then b else if slot = 4 then alert else slotBlock slot input ups s
    t = { s with
      me := { s.me with
        seq := t.me.seq, endOwed := t.me.endOwed, produced := t.me.produced, desk := t.me.desk
        caller := t.me.caller, playerGain := t.me.playerGain, playerEnvelope := t.me.playerEnvelope
        alertEnvelope := s.me.alertEnvelope.advance }
      tx := { s.tx with audio := t.tx.audio }
      cu := { s.cu with table := t.cu.table } }
    ∧ (∀ d, Tab.at t.me.desk d = { Tab.at s.me.desk d with gain := (Tab.at s.me.desk d).gain.advance })
    ∧ (∀ l, Tab.at t.me.caller l = { Tab.at s.me.caller l with gain := (Tab.at s.me.caller l).gain.advance })
    ∧ (∀ p, Tab.at t.me.playerGain p = (Tab.at s.me.playerGain p).advance
      ∧ Tab.at t.me.playerEnvelope p = (Tab.at s.me.playerEnvelope p).advance)
    ∧ (∀ node slot, node ≠ s.settings.nodeId → findEntry node slot t.cu.table = findEntry node slot s.cu.table)
    ∧ ∀ slot : Fin 8,
      (player slot → Tab.at t.me.endOwed slot = Tab.at s.me.endOwed slot
        ∧ Tab.at t.me.produced slot = (given slot).isSome)
      ∧ (¬ player slot → Tab.at t.me.endOwed slot = false ∧ Tab.at t.me.produced slot = (slotFlags slot s).isSome)
      ∧ (given slot = none → Tab.at t.me.seq slot = Tab.at s.me.seq slot
        ∧ Tab.at t.tx.audio slot = Tab.at s.tx.audio slot
        ∧ findEntry s.settings.nodeId slot t.cu.table = findEntry s.settings.nodeId slot s.cu.table)
      ∧ ∀ g, given slot = some g → Tab.at t.me.seq slot = Tab.at s.me.seq slot + 1
        ∧ Tab.at t.tx.audio slot = (if s.lu.state = .joined then some (queued slot g s) else Tab.at s.tx.audio slot)
        ∧ ∃ e, findEntry s.settings.nodeId slot t.cu.table = some e ∧ e.arrival = some (arrived slot g s))
  ∧ (∀ (slot : Fin 8) (d : Fin 2) (input : BlockInput) (ups : Tab (List Int) 3) (s : State), slot.val = d.val →
    s.tg.lineUp ≠ .on →
    let x := Tab.at s.me.desk d
    let samples := applyRamp x.gain (tdmBlock input slot)
    (s.settings.roles.desk = true → (x.air = true ∨ x.cue = true) →
      slotBlock slot input ups s = some ⟨x.air, x.cue, false, false, .live, 0, false, samples⟩)
    ∧ (s.settings.roles.desk = false ∨ (x.air = false ∧ x.cue = false) →
      slotBlock slot input ups s = if Tab.at s.me.endOwed slot then
        some ⟨x.air, x.cue, false, true, .live, 0, false, samples⟩ else none))
  ∧ (∀ (slot : Fin 8) (l : Fin 3) (input : BlockInput) (ups : Tab (List Int) 3) (s : State), slot.val = l.val + 5 →
    let x := Tab.at s.me.caller l
    let onAir := (lineAt s l).state == .onAir
    let samples := applyRamp x.gain (block48 ((Tab.at ups l).map fun v => (v, v)))
    (s.settings.roles.caller = true → (onAir = true ∨ x.cue = true) →
      slotBlock slot input ups s = some ⟨onAir, x.cue, true, false, .live, 0, false, samples⟩)
    ∧ (s.settings.roles.caller = true → onAir = false → x.cue = false → slotBlock slot input ups s =
      if Tab.at s.me.endOwed slot then some ⟨false, false, true, true, .live, 0, false, samples⟩ else none))
  ∧ ∀ (v : Fin 4) (input : BlockInput) (ups : Tab (List Int) 3) (s : State), s.tg.lineUp = .on →
    lineUpVoice s = some v → slotBlock 0 input ups s
      = some ⟨s.tg.route == .air, s.tg.route == .cue, true, false, .live, 0, true, voiceBlock v s⟩

/-- A player's block at a block start (R45, R87, R88, R89, R101): the next 48 frames of its buffer under P and then E, with
the entry's tier and tag, AIR while the seat is HOLDING and CUE otherwise; the play position advances by 48, within the
stream. Short of frames before the stream's end, the frames held are played and the rest is zero (log entry 57), the
UNDERRUN count increases by 1, the fetch position moves up to the play position, and the first of an entry posts
PLAYER_UNDERRUN with the play position before the block (log entry 104). The block is marked END, and the player has ended,
where it holds the stream's last frame, or where in ENDING or in a hold fade the envelope's ramp completes with it (R94, R95,
R99); the stream's length is the segue points of its clips but the last, none above its clip's length, and the last clip's
length, once all are copied (R85). The low flag is set where a PLAYING player's buffer has fallen below 1,536 frames, and clear where the
stream is fully fetched. A player that does not produce is left as it is. -/
def Obligations.PlayersProduceTheirBlocks : Prop :=
  (∀ (p : Fin 2) (s : State), ((playerAt s p).produces = true ↔ (playerAt s p).ended = false
      ∧ ((playerAt s p).state = .playing ∨ (playerAt s p).state = .ending
        ∨ ((playerAt s p).state = .held ∧ (playerAt s p).phase = .fading)))
    ∧ ((playerAt s p).produces = false → producePlayer p s = (s, none)))
  ∧ (∀ l : List StreamClip, streamLength l = if l.all StreamClip.copied then
      some ((l.dropLast.map fun c => min c.segue c.length).sum + ((l.getLast?.map StreamClip.length).getD 0)) else none)
  ∧ ∀ (p : Fin 2) (e : HeldEntry) (s : State), (playerAt s p).produces = true → (playerAt s p).entry = some e →
    let x := playerAt s p
    let frames := x.buffer.take 48
    let r := producePlayer p s
    let y := playerAt r.1 p
    let air := s.pu.seat == .holding || x.airKept
    frames.all (fun f => decide (f.part ≤ x.part)) = true →
    ∃ b, r.2 = some b ∧ b.air = air ∧ b.cue = !air ∧ b.tier = e.tier ∧ b.tag = e.tag ∧ b.lineUp = false
      ∧ b.samples = applyRamp (Tab.at s.me.playerEnvelope p)
          (applyRamp (Tab.at s.me.playerGain p) (block48 (frames.map BufFrame.pair)))
      ∧ (frames ≠ [] → b.mono = frames.all BufFrame.mono)
      ∧ (b.last = true ↔ (∃ n, streamLength x.stream = some n ∧ n ≤ x.position + 48)
        ∨ ((x.state = .ending ∨ x.state = .held)
          ∧ (Tab.at s.me.playerEnvelope p).length ≤ (Tab.at s.me.playerEnvelope p).position + 1))
      ∧ r.1 = { s with cp := r.1.cp, pu := { s.pu with players := s.pu.players.put p y } } ∧ Posted s.cp r.1.cp
      ∧ y.buffer = x.buffer.drop 48 ∧ y.ended = b.last ∧ y.state = x.state ∧ y.stream = x.stream
      ∧ (streamLength x.stream = none → y.position = x.position + 48)
      ∧ (∀ n, streamLength x.stream = some n → y.position = min n (x.position + 48))
      ∧ ((48 ≤ x.buffer.length ∨ x.fullyFetched = true) →
        y.fetchPosition = x.fetchPosition ∧ y.underruns = x.underruns)
      ∧ (x.buffer.length < 48 → x.fullyFetched = false →
        y.fetchPosition = max x.fetchPosition y.position ∧ y.underruns = min 65535 (x.underruns + 1)
        ∧ (x.underrunTold = false → Posted (s.cp.post ⟨.playerUnderrun, s.clock.blockCount,
            [word p, word e.tag.toNat, word x.position]⟩) r.1.cp))
      ∧ (y.low = true ↔ y.fullyFetched = false ∧ ((x.low = true ∧ y.buffer.length < 3072)
        ∨ (x.state = .playing ∧ y.buffer.length < 1536)))

/-- The bus stage at a block start (R50 to R55, R57, R58): PROGRAM, CUE and HOLD are formed from the decided entries, and each
output slot carries the bus that the image gives it, or zero; the meters take the blocks; the trims advance, and the
ports play what was formed a block before. At a CALLER node each line's MIX_MINUS is formed by the line's state, from
the programme less the line's own channel, the screener slot, the line's tone voice or zero, and its phone output is that
feed converted down (R54, R57); elsewhere these buses are not formed and carry zero.
The forward frame (R157, R167): count, PROGRAM crossfaded with the filler at the filler gain, the remote output levels,
the airing record, and the FILLER and LINE-UP flags, on the stream behind its marker (R208); the count then increases by
1. -/
def Obligations.BlockIsMixedAndSentForward : Prop :=
  (∀ (input : BlockInput) (s : State),
    let t := busStage input s
    let out (b : Fin 6) (acc : Block) : BusOut := outputStage (Tab.at s.me.trims b) acc
    let program := (s.cu.table.filter fun e => e.air).foldl
      (fun acc e => addWeighted acc (contribution e) (s.cu.weights.get e.tier)) zeroAcc
    let cue := (s.cu.table.filter fun e => e.cue).foldl (fun acc e => addWeighted acc (contribution e) 16) zeroAcc
    let hold := holdOf (min 16 s.settings.holdWeight) program
    let metered (b : Fin 6) (o : BusOut) (more : Nat) : Prop :=
      let m := Tab.at s.me.meters b
      Tab.at t.me.meters b
        = ⟨blockPeak o.block, max m.held (blockPeak o.block), min 65535 (m.clips + (o.clips + more))⟩
    let less (l : Fin 3) : Block := match findEntry s.settings.nodeId ⟨l.val + 5, by omega⟩ s.cu.table with
      | some e => if e.air && e.own then addWeighted program (contribution e) (-(s.cu.weights.live : Int)) else program
      | none => program
    let feed (l : Fin 3) : Block := match (lineAt s l).state, (lineAt s l).voice with
      | .onAir, _ => less l
      | .screening, _ => addWeighted zeroAcc (tdmBlock input s.settings.screenerSlot) 16
      | .holding, _ => holdOf (min 16 s.settings.holdWeight) (less l)
      | .ready, _ => holdOf (min 16 s.settings.holdWeight) (less l)
      | .checking, .held v => addWeighted zeroAcc (voiceBlock v s) 16
      | _, _ => zeroAcc
    let own (l : Fin 3) : Bus := match l with
      | 0 => .mixMinus1
      | 1 => .mixMinus2
      | 2 => .mixMinus3
    t = { s with me := { s.me with
      trims := Tab.each s.me.trims Ramp.advance, meters := t.me.meters, playing := s.me.outputs
      phonePlaying := s.me.phoneOutputs, outputs := t.me.outputs, phoneOutputs := t.me.phoneOutputs } }
    ∧ (∀ k, Tab.at s.settings.outMap k = none → Tab.at t.me.outputs k = silence)
    ∧ (∀ k, Tab.at s.settings.outMap k = some .program → Tab.at t.me.outputs k = (out 0 program).block)
    ∧ (∀ k, Tab.at s.settings.outMap k = some .cue → Tab.at t.me.outputs k = (out 1 cue).block)
    ∧ (∀ k, Tab.at s.settings.outMap k = some .hold → Tab.at t.me.outputs k = (out 2 hold).block)
    ∧ metered 0 (out 0 program) 0 ∧ metered 1 (out 1 cue) 0 ∧ metered 2 (out 2 hold) 0
    ∧ programBlock s = (out 0 program).block
    ∧ (s.settings.roles.caller = true → ∀ l : Fin 3,
      let b : Fin 6 := ⟨l.val + 3, by omega⟩
      let o := out b (feed l)
      let phone : List Int := (List.range 16).map fun j =>
        downSample (o.block.getD (3 * j) (0, 0)) (o.block.getD (3 * j + 1) (0, 0)) (o.block.getD (3 * j + 2) (0, 0))
      Tab.at t.me.phoneOutputs l = phone.map sat16
      ∧ metered b o (phone.filter fun x => decide (x < -32768 ∨ 32767 < x)).length
      ∧ ∀ k, Tab.at s.settings.outMap k = some (own l) → Tab.at t.me.outputs k = o.block)
    ∧ (s.settings.roles.caller = false → ∀ l, Tab.at t.me.phoneOutputs l = List.replicate 16 0
      ∧ (∀ k, Tab.at s.settings.outMap k = some (own l) → Tab.at t.me.outputs k = silence)
      ∧ Tab.at t.me.meters ⟨l.val + 3, by omega⟩
        = { Tab.at s.me.meters ⟨l.val + 3, by omega⟩ with last := 0 }))
  ∧ ∀ (prog : Block) (s : State),
    let fill := produceFiller .link s
    let cross (g a b : Int) : Int := (a * (4096 - g) + b * g + 2048) / 4096
    let mixed := (s.link.filler.gain.gains.zip (prog.zip fill.2)).map fun x =>
      (cross x.1 x.2.1.1 x.2.2.1, cross x.1 x.2.1.2 x.2.2.2)
    let a := airingRecord s
    let t := sendForward prog s
    t = { fill.1 with link := { fill.1.link with
      forwardCount := s.link.forwardCount + 1
      sent := 0xA5#8 :: 0x5A#8 :: forwardBytes
        { count := s.link.forwardCount
          samples := mixed
          levels := s.link.outputs
          alert := a.map Alert.id
          cls := a.map Alert.cls
          filler := s.link.filler.state != .off
          lineUp := s.tg.lineUp == .on }
      filler := { fill.1.link.filler with gain := fill.1.link.filler.gain.advance } } }

/-! ## The clip store -/

/-- DEFINE CLIP (R66): the descriptor and the ownership of its extents in one step; a clip in use or PROTECTED and an
owned extent, named with its owner, are refused and nothing changes.
CLIP DATA (R69, R70): at the queued mark, within the length and with room, the run's address entry and its bytes, 64
to every entry but the last, join the tail of the fill queue, an address entry at the head being taken at once, and the queued mark
advances; the run's addresses are the map's, across an extent boundary too (R64, R69); another offset is refused BAD_OFFSET with the mark, and a short queue FULL with its free entries. -/
def Obligations.ClipIsDefinedAndFilled : Prop :=
  (∀ (clip format length : Word) (extents : List Word) (c : Fin 256) (m : CommandMessage) (s : State),
     Running s (.defineClip clip format length extents) m → clip.toNat = c.val →
     (∀ (f : ClipFormat) (map : List (Fin 512)), c.val < 252 → (clipAt s c).state = .empty →
       format.toNat = f.ctorIdx → length.toNat ≠ 0 → extents.map BitVec.toNat = map.map Fin.val → map ≠ [] →
       map.length ≤ 255 → map.Nodup → length.toNat * bytesPerFrame f ≤ map.length * 1048576 →
       ((∀ e ∈ map, Tab.at s.cs.owner e = none) → ∃ t,
         exec (.defineClip clip format length extents) s = .next (answer m .ok [] t)
         ∧ t = { s with cs := { s.cs with
             owner := t.cs.owner
             directory := s.cs.directory.put c { Clip.empty with
               state := .filling, format := f, length := length.toNat, map := map, segue := length.toNat } } }
         ∧ ∀ e, Tab.at t.cs.owner e = if e ∈ map then some c else Tab.at s.cs.owner e)
       ∧ (∀ e o, map.find? (fun e => (Tab.at s.cs.owner e).isSome) = some e → Tab.at s.cs.owner e = some o →
         exec (.defineClip clip format length extents) s = .next (answer m .extentOwned [word e, word o] s)))
     ∧ (252 ≤ c.val ∨ (clipAt s c).state ≠ .empty →
       exec (.defineClip clip format length extents) s = .next (answer m .inUse [] s)))
  ∧ (∀ (clip offset : Word) (bs : List Byte) (c : Fin 256) (m : CommandMessage) (s : State),
       Running s (.clipData clip offset bs) m → clip.toNat = c.val → c.val < 252 → bs ≠ [] → bs.length ≤ 256 →
       (clipAt s c).state = .filling → (clipAt s c).sealPending = false →
       (offset.toNat ≠ (clipAt s c).queued → exec (.clipData clip offset bs) s
         = .next (answer m .badOffset [word (clipAt s c).queued] s))
       ∧ (offset.toNat = (clipAt s c).queued →
         offset.toNat + bs.length ≤ (clipAt s c).length * bytesPerFrame (clipAt s c).format →
         (64 < s.cs.fill.length + 1 + (bs.length + 63) / 64 → exec (.clipData clip offset bs) s
           = .next (answer m .full [word (64 - s.cs.fill.length)] s))
         ∧ (s.cs.fill.length + 1 + (bs.length + 63) / 64 ≤ 64 →
           (clipAt s c).length * bytesPerFrame (clipAt s c).format ≤ (clipAt s c).map.length * 1048576 →
           ∃ t run entries, exec (.clipData clip offset bs) s = .next (answer m .ok [word (offset.toNat + bs.length)] t)
             ∧ t = { s with cs := { s.cs with
                 fill := t.cs.fill, drain := t.cs.drain
                 directory := s.cs.directory.put c { clipAt s c with queued := offset.toNat + bs.length } } }
             ∧ run.clip = c ∧ run.offset = offset.toNat ∧ run.count = bs.length
             ∧ (∀ k, k < bs.length → translate (clipAt s c).map (offset.toNat + k) = some (run.addressOf k))
             ∧ entries.length = (bs.length + 63) / 64 ∧ (∀ e ∈ entries, e.clip = c ∧ e.bytes.length ≤ 64)
             ∧ (∀ e ∈ entries.dropLast, e.bytes.length = 64)
             ∧ entries.flatMap FillEntry.bytes = bs
             ∧ (s.cs.fill = [] → t.cs.fill = entries ∧ t.cs.drain = some ⟨run, 0⟩)
             ∧ (writeWaits s = true → t.cs.fill = s.cs.fill ++ .address run :: entries ∧ t.cs.drain = s.cs.drain))))

/-- SEAL CLIP (R71) and DELETE CLIP (R68): a wholly queued clip becomes READY at once when it is wholly written, with
CLIP_READY, and has its seal pending otherwise; a clip without a reference is freed with the extents of its map, and a
referenced one is refused IN_USE with the reference named. The layout of the reference's words is the model's (log entry
60), and so is the format of an EMPTY descriptor (log entry 58).
SET GROUP and CLEAR GROUP (R77): a group is replaced whole, its pointer at the start value; a group that a cue entry names
is not cleared, and one that is cleared stands in SINGLE (the model's, log entry 59). A resolution (R78) answers the clips
of its mode and turns the pointer. -/
def Obligations.ClipsAndGroupsAreChanged : Prop :=
  ((∀ (clip : Word) (c : Fin 256) (m : CommandMessage) (s : State), Running s (.sealClip clip) m →
     clip.toNat = c.val → c.val < 252 → (clipAt s c).state = .filling →
     (clipAt s c).length * bytesPerFrame (clipAt s c).format ≤ (clipAt s c).queued →
     ((clipAt s c).sealPending = false →
       (clipAt s c).written = (clipAt s c).length * bytesPerFrame (clipAt s c).format →
       exec (.sealClip clip) s = .next (answer m .ok [word 2] { s with
         cp := s.cp.post ⟨.clipReady, s.clock.blockCount, [word c]⟩
         cs := { s.cs with directory := s.cs.directory.put c { clipAt s c with state := .ready } } }))
     ∧ ((clipAt s c).sealPending = false →
       (clipAt s c).written ≠ (clipAt s c).length * bytesPerFrame (clipAt s c).format →
       exec (.sealClip clip) s = .next (answer m .ok [word 1] { s with
         cs := { s.cs with directory := s.cs.directory.put c { clipAt s c with sealPending := true } } }))
     ∧ ((clipAt s c).sealPending = true → exec (.sealClip clip) s = .next (answer m .ok [word 1] s)))
   ∧ ∀ (clip : Word) (c : Fin 256) (m : CommandMessage) (s : State), Running s (.deleteClip clip) m →
     clip.toNat = c.val → c.val < 252 → (clipAt s c).state ≠ .empty →
     (∀ r, clipReference c s = some r → exec (.deleteClip clip) s = .next (answer m .inUse [word r.1, word r.2] s))
     ∧ (clipReference c s = none → (∀ e ∈ s.pu.cues, e.source ≠ .clip c)
       ∧ (∀ g, c ∉ (Tab.at s.cs.groups g).clips) ∧ fillEntriesOf c s = 0 ∧ (clipAt s c).assigned = false
       ∧ s.settings.fillerClip ≠ some c ∧ s.settings.siteAlertClip ≠ some c
       ∧ ∃ t, exec (.deleteClip clip) s = .next (answer m .ok [] t)
         ∧ t = { s with cs := { s.cs with
             owner := t.cs.owner, directory := s.cs.directory.put c Clip.empty } }
         ∧ ∀ e, Tab.at t.cs.owner e = if e ∈ (clipAt s c).map then none else Tab.at s.cs.owner e))
  ∧ ((∀ (group mode start : Word) (clips : List Word) (g : Fin 16) (md : GroupMode) (l : List (Fin 256))
         (m : CommandMessage) (s : State), Running s (.setGroup group mode clips start) m → group.toNat = g.val →
       mode.toNat = md.ctorIdx → clips.map BitVec.toNat = l.map Fin.val → l ≠ [] → l.length ≤ 8 →
       (∀ c ∈ l, c.val < 252 ∧ (clipAt s c).state ≠ .empty) → ∃ v,
         v = (if start.toNat = 0 then l.length else min l.length start.toNat)
         ∧ exec (.setGroup group mode clips start) s = .next (answer m .ok []
           { s with cs := { s.cs with groups := s.cs.groups.put g ⟨l, md, v, v⟩ } }))
     ∧ (∀ (group : Word) (g : Fin 16) (m : CommandMessage) (s : State), Running s (.clearGroup group) m →
       group.toNat = g.val →
       ((∀ e ∈ s.pu.cues, e.source ≠ .group g) → exec (.clearGroup group) s = .next (answer m .ok []
         { s with cs := { s.cs with groups := s.cs.groups.put g ⟨[], .single, 0, 0⟩ } }))
       ∧ (∀ e ∈ s.pu.cues, e.source = .group g → exec (.clearGroup group) s = .next (answer m .inUse [] s)))
     ∧ ∀ (g : Fin 16) (s : State), let r := Tab.at s.cs.groups g
       let t := resolveGroup g s
       (r.clips = [] → t.2 = [] ∧ Tab.at t.1.cs.groups g = r)
       ∧ (r.clips ≠ [] → r.mode = .single → 1 ≤ r.pointer → r.pointer ≤ r.clips.length →
         t.2.map some = [r.clips[r.pointer - 1]?]
         ∧ Tab.at t.1.cs.groups g = { r with pointer := if r.pointer = 1 then r.start else r.pointer - 1 })
       ∧ (r.clips ≠ [] → r.mode = .sweep → t.2 = (r.clips.take r.pointer).reverse
         ∧ Tab.at t.1.cs.groups g = { r with pointer := r.start }))

/-- SET CLIP (R67): a clip number above 255 is BAD_PARAM, a PROTECTED clip IN_USE and an EMPTY clip WRONG_STATE; in FILLING
and in READY the trim and the segue point are clamped, taken and returned, and nothing else changes, what a player has
copied least of all. -/
def Obligations.SetClipTakesTrimAndSegue : Prop :=
  ∀ (clip trim segue : Word) (m : CommandMessage) (s : State), Running s (.setClip clip trim segue) m →
    (255 < clip.toNat → exec (.setClip clip trim segue) s = .next (answer m .badParam [] s))
    ∧ ∀ c : Fin 256, clip.toNat = c.val →
      (252 ≤ c.val → exec (.setClip clip trim segue) s = .next (answer m .inUse [] s))
      ∧ (c.val < 252 → (clipAt s c).state = .empty →
        exec (.setClip clip trim segue) s = .next (answer m .wrongState [] s))
      ∧ (c.val < 252 → (clipAt s c).state = .filling ∨ (clipAt s c).state = .ready →
        exec (.setClip clip trim segue) s = .next (answer m .ok
          [word (min 8192 trim.toNat), word (min (clipAt s c).length segue.toNat)]
          { s with cs := { s.cs with directory := s.cs.directory.put c { clipAt s c with
            trim := min 8192 trim.toNat, segue := min (clipAt s c).length segue.toNat } } }))

/-- Fill writes (R70, R71, R72): with the port free and a data entry at the head, a write is granted unless a fetch
waits and was not granted last; its completion stores the entry's bytes at the addresses that follow on from the drain
position and nowhere else, frees the port, and advances the clip's written mark, making a sealed clip that is wholly
written READY.
Fetches (R72, R73, R88, R148, R165, R181): a reader with no request outstanding and room for a block joins those waiting,
at its fetch position, behind the requests of earlier events and among those of its own event in the order of the
readers; the filler player asks at a LINK node alone, and the site's two at a SITE node alone. The fetch at the head is
granted, alternating with writes, and completes as the clip's descriptor then stands: without frames at once, NOT_WRITTEN
keeping its reader from asking before the next block start, PAST_END ending the part of the clip in a player's stream, the
alert players' clip, and a loop of a filler player; in flight, its completion frees the port and gives the frames to the reader
that asked; a LOADING player whose buffer is then ready becomes LOADED, and starts where its entry is due. A request whose
clips have no frame left finds the stream fully fetched. Which requests are of one event is read from the rows (log entry 62);
that a fetch no longer wanted brings no frames, and its NOT_WRITTEN still counts, is the model's (log entry 81), and so are
where a started entry stands in the list (log entry 15) and the hold position that its start leaves (log entry 105).
Addresses and samples (R64): a byte offset falls in the extent that the map holds at its index, at its offset within
the extent; frames of 2 and 4 bytes stay within one, those of 3 and 6 may straddle two; samples lie least significant
byte first, left before right, 16-bit ones brought to 24 bits. -/
def Obligations.DramServesWritesAndFetches : Prop :=
  ((∀ s : State, s.cs.port = .free → writeWaits s = true → (s.cs.waiting = [] ∨ s.cs.lastKind = .fetch) →
     exec .dramWriteGrant s = .next { s with cs := { s.cs with port := .write true, lastKind := .write } })
   ∧ ∀ (c : Fin 256) (bs : List Byte) (rest : List FillEntry) (d : Drain) (marks : Bool) (s : State),
     Memory.wf s.dram = true → s.cs.port = .write marks → s.cs.fill = .data c bs :: rest → s.cs.drain = some d →
     (∀ j k, j < bs.length → k < bs.length → d.run.addressOf (d.done + j) = d.run.addressOf (d.done + k) → j = k) →
     ∃ t, exec .dramWriteComplete s = .next t
       ∧ t = { s with cp := t.cp, dram := t.dram, cs := { s.cs with
           port := .free, fill := t.cs.fill, drain := t.cs.drain, directory := t.cs.directory } }
       ∧ (∀ k (h : k < bs.length), memRead t.dram (d.run.addressOf (d.done + k)) = bs[k])
       ∧ (∀ a, (∀ k, k < bs.length → a ≠ d.run.addressOf (d.done + k)) → memRead t.dram a = memRead s.dram a)
       ∧ ((∀ r, rest.head? ≠ some (.address r)) →
         t.cs.fill = rest ∧ t.cs.drain = some { d with done := d.done + bs.length })
       ∧ (∀ r e l, rest = .address r :: .data e l :: rest.drop 2 →
         t.cs.fill = rest.drop 1 ∧ t.cs.drain = some ⟨r, 0⟩)
       ∧ (∀ x, x ≠ c → clipAt t x = clipAt s x)
       ∧ (clipAt t c).written = (clipAt s c).written + (if marks then bs.length else 0)
       ∧ ((marks = true ∧ (clipAt s c).sealPending = true
           ∧ (clipAt s c).written + bs.length = (clipAt s c).length * bytesPerFrame (clipAt s c).format) →
         (clipAt t c).state = .ready ∧ t.cp = s.cp.post ⟨.clipReady, s.clock.blockCount, [word c]⟩)
       ∧ (¬(marks = true ∧ (clipAt s c).sealPending = true
           ∧ (clipAt s c).written + bs.length = (clipAt s c).length * bytesPerFrame (clipAt s c).format) →
         (clipAt t c).state = (clipAt s c).state ∧ t.cp = s.cp))
  ∧ (let joins (f : Fetch) (s : State) : State :=
       let older := s.cs.waiting.take (s.cs.waiting.length - s.cs.asked)
       let others := s.cs.waiting.drop (s.cs.waiting.length - s.cs.asked)
       let first (g : Fetch) : Bool := decide (g.reader.ctorIdx < f.reader.ctorIdx)
       { s with cs := { s.cs with
         waiting := older ++ (others.takeWhile first ++ f :: others.dropWhile first), asked := s.cs.asked + 1 } }
     (∀ (p : Fin 2) (s : State), (playerAt s p).asks = true → hasFetch (playerReader p) s = false →
       let x := playerAt s p
       let sought := seekStream s x.stream x.fetchPosition
       let with' (y : Player) : State := { s with pu := { s.pu with players := s.pu.players.put p y } }
       let s' : State := with' { x with stream := sought.1 }
       (sought.2 = none → { x with stream := sought.1 }.fullyFetched = true
         ∧ ∃ u, exec (.fetchRequest (playerReader p)) s = .next u ∧ BufferSettles p { x with stream := sought.1 } s u)
       ∧ ∀ c f, sought.2 = some (c, f) → exec (.fetchRequest (playerReader p)) s
         = .next (joins ⟨playerReader p, c, f, x.fetchPosition, true⟩ s'))
     ∧ (∀ (c : Fin 256) (s : State), let x := s.au.player
       x.clip = some c → x.state ≠ .idle → x.buffer.length ≤ 3024 → x.notWritten = false → x.fetchedAll = false →
       x.fetchPosition < (clipAt s c).length → hasFetch .alert s = false →
       exec (.fetchRequest .alert) s = .next (joins ⟨.alert, c, x.fetchPosition, x.fetchPosition, true⟩ s))
     ∧ (∀ (c : Fin 256) (s : State), let x := s.site.player
       s.cp.device = .running → s.settings.roles.site = true → x.clip = some c → x.state ≠ .idle →
       x.buffer.length ≤ 3024 → x.notWritten = false → x.fetchedAll = false →
       x.fetchPosition < (clipAt s c).length → hasFetch .siteAlert s = false →
       exec (.fetchRequest .siteAlert) s = .next (joins ⟨.siteAlert, c, x.fetchPosition, x.fetchPosition, true⟩ s))
     ∧ (∀ (c : Fin 256) (s : State), s.cp.device = .running → s.settings.fillerClip = some c →
       (clipAt s c).state = .ready →
       let primed (x : Filler) : Filler := { x with
         trim := if x.trimCopied then x.trim else (clipAt s c).trim, trimCopied := true }
       (let x := s.link.filler
        s.settings.roles.site = false → s.settings.roles.link = true → x.buffer.length ≤ 3024 → x.notWritten = false →
        hasFetch .filler s = false →
        exec (.fetchRequest .filler) s = .next (joins ⟨.filler, c, x.fetchPosition, x.fetchPosition, true⟩
          { s with link := { s.link with filler := primed x } }))
       ∧ (let x := s.site.filler
        s.settings.roles.site = true → x.buffer.length ≤ 3024 → x.notWritten = false → hasFetch .siteFiller s = false →
        exec (.fetchRequest .siteFiller) s = .next (joins ⟨.siteFiller, c, x.fetchPosition, x.fetchPosition, true⟩
          { s with site := { s.site with filler := primed x } })))
     ∧ (∀ s : State, (s.settings.roles.link = false ∨ s.settings.roles.site = true →
         exec (.fetchRequest .filler) s = .next s)
       ∧ (s.settings.roles.site = false →
         exec (.fetchRequest .siteAlert) s = .next s ∧ exec (.fetchRequest .siteFiller) s = .next s))
     ∧ (∀ (f : Fetch) (rest : List Fetch) (b : Block) (s : State), s.cs.port = .free → s.cs.waiting = f :: rest →
       (writeWaits s = false ∨ s.cs.lastKind = .write) →
       (fetchOutcome s f = .ok b → exec .fetchGrant s = .next { s with cs := { s.cs with
         port := .fetch f b, waiting := rest, lastKind := .fetch, asked := 0 } })
       ∧ ((fetchOutcome s f = .pastEnd ∨ fetchOutcome s f = .notWritten) →
         let t : State := { s with cs := { s.cs with waiting := rest, lastKind := .fetch, asked := 0 } }
         let missing := fetchOutcome s f = .notWritten
         (f.live = false → ¬ missing → exec .fetchGrant s = .next t)
         ∧ (f.reader = .alert → (missing → exec .fetchGrant s = .next { t with au := { s.au with
             player := { s.au.player with notWritten := true } } })
           ∧ (f.live = true → ¬ missing → exec .fetchGrant s = .next { t with au := { s.au with
             player := { s.au.player with fetchedAll := true } } }))
         ∧ (f.reader = .siteAlert → (missing → exec .fetchGrant s = .next { t with site := { s.site with
             player := { s.site.player with notWritten := true } } })
           ∧ (f.live = true → ¬ missing → exec .fetchGrant s = .next { t with site := { s.site with
             player := { s.site.player with fetchedAll := true } } }))
         ∧ (f.reader = .filler → (missing → exec .fetchGrant s = .next { t with link := { s.link with
             filler := { s.link.filler with notWritten := true } } })
           ∧ (f.live = true → ¬ missing → exec .fetchGrant s = .next { t with link := { s.link with
             filler := { s.link.filler with fetchPosition := 0 } } }))
         ∧ (f.reader = .siteFiller → (missing → exec .fetchGrant s = .next { t with site := { s.site with
             filler := { s.site.filler with notWritten := true } } })
           ∧ (f.live = true → ¬ missing → exec .fetchGrant s = .next { t with site := { s.site with
             filler := { s.site.filler with fetchPosition := 0 } } }))
         ∧ ∀ p, f.reader = playerReader p →
           (f.live = false → missing → exec .fetchGrant s = .next { t with pu := { s.pu with
             players := s.pu.players.put p { playerAt s p with notWritten := true } } })
           ∧ (f.live = true → ∃ u, exec .fetchGrant s = .next u ∧ BufferSettles p (if missing then
             { playerAt s p with notWritten := true }
             else { playerAt s p with stream := cutStream (playerAt s p).stream f.place }) t u)))
     ∧ (∀ (c : StreamClip) (rest : List StreamClip) (o : Nat),
       let n := if rest = [] then c.length else min c.segue c.length
       (o < n → cutStream (c :: rest) o = { c with length := o, segue := min o c.segue } :: rest)
       ∧ (n ≤ o → cutStream (c :: rest) o = c :: cutStream rest (o - n)))
     ∧ (∀ (f : Fetch) (s : State), let d := clipAt s f.clip
       let stop := min (f.frame + 48) d.length
       (d.state = .empty ∨ d.length ≤ f.frame → fetchOutcome s f = .pastEnd)
       ∧ (d.state ≠ .empty → f.frame < d.length → d.written < stop * bytesPerFrame d.format →
         fetchOutcome s f = .notWritten)
       ∧ (d.state ≠ .empty → f.frame < d.length → stop * bytesPerFrame d.format ≤ d.written →
         ∃ b, fetchOutcome s f = .ok b ∧ b.length = stop - f.frame
           ∧ ∀ k (h : k < b.length), b[k] = readFrame s d (f.frame + k)))
     ∧ ∀ (f : Fetch) (b : Block) (s : State), s.cs.port = .fetch f b →
       let t : State := { s with cs := { s.cs with port := .free, asked := 0 } }
       (f.live = false → exec .fetchComplete s = .next t)
       ∧ (f.live = true → f.reader = .alert → f.place = s.au.player.fetchPosition → exec .fetchComplete s
         = .next { t with au := { s.au with player := { s.au.player with
             buffer := s.au.player.buffer ++ b, fetchPosition := f.place + b.length } } })
       ∧ (f.live = true → f.reader = .siteAlert → f.place = s.site.player.fetchPosition → exec .fetchComplete s
         = .next { t with site := { s.site with player := { s.site.player with
             buffer := s.site.player.buffer ++ b, fetchPosition := f.place + b.length } } })
       ∧ (let filled (x : Filler) : Filler := { x with
            buffer := x.buffer ++ b, fetchPosition := if b.length < 48 then 0 else f.place + b.length
            primed := x.primed || decide (3072 ≤ x.buffer.length + b.length) }
          (f.live = true → f.reader = .filler → f.place = s.link.filler.fetchPosition → exec .fetchComplete s
            = .next { t with link := { s.link with filler := filled s.link.filler } })
          ∧ (f.live = true → f.reader = .siteFiller → f.place = s.site.filler.fetchPosition → exec .fetchComplete s
            = .next { t with site := { s.site with filler := filled s.site.filler } }))
       ∧ ∀ p, f.live = true → f.reader = playerReader p → let x := playerAt s p
         (streamPart x.stream 0 f.place = none → ∃ u, exec .fetchComplete s = .next u ∧ BufferSettles p x t u)
         ∧ ∀ k c isLast, streamPart x.stream 0 f.place = some (k, c, isLast) →
           let kept := b.take ((if isLast then c.length else min c.segue c.length) - f.frame)
           ∃ u, exec .fetchComplete s = .next u ∧ BufferSettles p { x with
             buffer := x.buffer ++ (kept.drop (x.fetchPosition - f.place)).map fun q => ⟨q, isMono c.format, k⟩
             fetchPosition := max x.fetchPosition (f.place + kept.length) } t u)
  ∧ ((∀ (map : List (Fin 512)) (o : Nat) (e : Fin 512), map[o / 1048576]? = some e →
       translate map o = some (e.val * 1048576 + o % 1048576) ∧ e.val * 1048576 + o % 1048576 < 536870912)
     ∧ (∀ (map : List (Fin 512)) (o p a : Nat), map.Nodup → translate map o = some a → translate map p = some a → o = p)
     ∧ (∀ (fmt : ClipFormat) (f k : Nat), fmt = .m16 ∨ fmt = .s16 → k < bytesPerFrame fmt →
       (f * bytesPerFrame fmt + k) / 1048576 = f * bytesPerFrame fmt / 1048576)
     ∧ (349525 * bytesPerFrame .m24 + 1) / 1048576 = 349525 * bytesPerFrame .m24 / 1048576 + 1
     ∧ (174762 * bytesPerFrame .s24 + 4) / 1048576 = 174762 * bytesPerFrame .s24 / 1048576 + 1
     ∧ translate [40, 7] 1048575 = some 42991615 ∧ translate [40, 7] 1048576 = some 7340032
     ∧ translate [40, 7] 1048577 = some 7340033
     ∧ ∀ (s : State) (d : Clip) (f : Nat) (b0 b1 b2 b3 b4 b5 : Byte),
       (∀ k b, (k, b) ∈ [(0, b0), (1, b1), (2, b2), (3, b3), (4, b4), (5, b5)] → k < bytesPerFrame d.format →
         ∃ a, translate d.map (f * bytesPerFrame d.format + k) = some a ∧ memRead s.dram a = b) →
       readFrame s d f = match d.format with
         | .m16 => ((b1 ++ b0).toInt * 256, (b1 ++ b0).toInt * 256)
         | .s16 => ((b1 ++ b0).toInt * 256, (b3 ++ b2).toInt * 256)
         | .m24 => ((b2 ++ b1 ++ b0).toInt, (b2 ++ b1 ++ b0).toInt)
         | .s24 => ((b2 ++ b1 ++ b0).toInt, (b5 ++ b4 ++ b3).toInt))

/-! ## Playout and the seat -/

/-- CUE INSERT (R80, R81): at a PLAYOUT node a new entry, WAITING, with its values clamped, takes the place asked for, the
end of the list for position 0 or a position beyond it, and the place after the entries at the front for one ahead of
them, and the response gives the place; a tag, kind, start mode, hold behaviour or end action outside its set is refused
BAD_PARAM, a tag in use or a PROTECTED clip IN_USE, a full list FULL, an empty source WRONG_STATE. The words of the source
and of the tier are the model's (log entries 14 and 16), and the place of a started entry (log entry 15).
A LOADED entry that it pushes past the first two places is WAITING again, and its player IDLE (R83, R86).
CUE REMOVE (R82): an entry that no player holds leaves the list with ENTRY_ENDED, cause REMOVED; the player of a LOADED one, or
of a HELD one after its hold fade, becomes IDLE besides, and the frames of its fetches are discarded; the player of a PLAYING
one lets the entry's list place go and fades out by the entry's fade-out, and that of one that fades goes on so without it.
An unknown tag is NO_SUCH, and a tag outside 1 to 65,535 BAD_PARAM (R194). The words of ENTRY_ENDED for an entry without a
player are the model's (log entry 66). The record of a player made IDLE is the model's too (log entry 72), and so is
what becomes of a fetch that it had asked for (log entry 81). -/
def Obligations.CueEntriesInsertedAndRemoved : Prop :=
  (∀ (position tag kind source startMode startTime gain fadeIn fadeOut tier hold endAction : Word) (e : CueEntry)
     (m : CommandMessage) (s : State), s.settings.roles.playout = true →
     let i := Instr.cueInsert position tag kind source startMode startTime gain fadeIn fadeOut tier hold endAction
     Running s i m → 1 ≤ tag.toNat → tag.toNat = e.tag.toNat →
     ((∃ c, e.source = .clip c ∧ kind = 0 ∧ source.toNat = c.val)
       ∨ (∃ g, e.source = .group g ∧ kind = 1 ∧ source.toNat = g.val)) →
     startMode.toNat = e.startMode.ctorIdx → startTime = e.startTime → e.gain = min 8192 gain.toNat →
     e.fadeIn = min 255 fadeIn.toNat → e.fadeOut = min 255 fadeOut.toNat →
     ((e.tier = .playout ∧ tier = 2) ∨ (e.tier = .filler ∧ tier = 3)) → hold.toNat = e.hold.ctorIdx →
     endAction.toNat = e.endAction.ctorIdx → e.state = .waiting → e.due = false → e.dueSince = 0 →
     (sourceProtected e.source = false → cueOf s e.tag = none → s.pu.cues.length < 32 → sourceEmpty e.source s = false →
       ∃ t p, exec i s = .next (answer m .ok [word p] t)
         ∧ WindowTrimmed { s with pu := { s.pu with cues := s.pu.cues.take (p - 1) ++ e :: s.pu.cues.drop (p - 1) } } t
         ∧ (1 ≤ position.toNat → position.toNat ≤ frontPlace s s.pu.cues → p = frontPlace s s.pu.cues + 1)
         ∧ (frontPlace s s.pu.cues < position.toNat → position.toNat ≤ s.pu.cues.length → p = position.toNat)
         ∧ (position = 0 ∨ s.pu.cues.length < position.toNat → p = s.pu.cues.length + 1)
         ∧ t.pu.cues.map CueEntry.tag
           = (s.pu.cues.map CueEntry.tag).take (p - 1) ++ e.tag :: (s.pu.cues.map CueEntry.tag).drop (p - 1))
     ∧ (sourceProtected e.source = true ∨ cueOf s e.tag ≠ none → exec i s = .next (answer m .inUse [] s))
     ∧ (sourceProtected e.source = false → cueOf s e.tag = none → 32 ≤ s.pu.cues.length →
       exec i s = .next (answer m .full [] s))
     ∧ (sourceProtected e.source = false → cueOf s e.tag = none → s.pu.cues.length < 32 →
       sourceEmpty e.source s = true → exec i s = .next (answer m .wrongState [] s)))
  ∧ (∀ (position tag kind source startMode startTime gain fadeIn fadeOut tier hold endAction : Word)
     (m : CommandMessage) (s : State), s.settings.roles.playout = true →
     let i := Instr.cueInsert position tag kind source startMode startTime gain fadeIn fadeOut tier hold endAction
     Running s i m → (tag = 0 ∨ 65535 < tag.toNat ∨ 1 < kind.toNat ∨ 2 < startMode.toNat ∨ 2 < hold.toNat
       ∨ 1 < endAction.toNat) → exec i s = .next (answer m .badParam [] s))
  ∧ (∀ (s : State) (l : List CueEntry), let n := frontPlace s l
     n ≤ l.length ∧ (∀ x ∈ l.drop n, atFront s x = false)
     ∧ (n = 0 ∨ ∃ x, l[n - 1]? = some x ∧ atFront s x = true))
  ∧ (∀ (tag : Word) (m : CommandMessage) (s : State), Running s (.cueRemove tag) m → s.settings.roles.site = false →
       tag = 0 ∨ 65535 < tag.toNat → exec (.cueRemove tag) s = .next (answer m .badParam [] s))
  ∧ (∀ (tag : Word) (t : Half) (m : CommandMessage) (s : State), Running s (.cueRemove tag) m →
       s.settings.roles.site = false → 1 ≤ tag.toNat → tag.toNat = t.toNat →
       let rest := s.pu.cues.filter fun x => x.tag != t
       let ended (p : Word) (position : Nat) : Notice :=
         ⟨.entryEnded, s.clock.blockCount, [p, word t.toNat, word position, word 3]⟩
       (cueOf s t = none → exec (.cueRemove tag) s = .next (answer m .noSuch [] s))
       ∧ (cueOf s t ≠ none → playerOf s t = none → exec (.cueRemove tag) s = .next (answer m .ok []
         { s with cp := s.cp.post (ended wordNone 0), pu := { s.pu with cues := rest } }))
       ∧ (∀ p, cueOf s t ≠ none → playerOf s t = some p →
         (playerAt s p).state = .loading ∨ (playerAt s p).state = .loaded
           ∨ ((playerAt s p).state = .held ∧ (playerAt s p).phase = .waiting) →
           exec (.cueRemove tag) s = .next (answer m .ok [] { s with
             cp := s.cp.post (ended (word p) (playerAt s p).position)
             cs := fetchesUnwanted (playerReader p) s.cs
             pu := { s.pu with
               cues := rest
               players := s.pu.players.put p { Player.idle with underruns := (playerAt s p).underruns, notWritten := (playerAt s p).notWritten } } }))
       ∧ (∀ p, cueOf s t ≠ none → playerOf s t = some p →
         (playerAt s p).state = .ending ∨ ((playerAt s p).state = .held ∧ (playerAt s p).phase = .fading) →
           exec (.cueRemove tag) s = .next (answer m .ok [] { s with pu := { s.pu with
             cues := rest
             players := s.pu.players.put p { playerAt s p with detached := true, cause := .removed } } }))
       ∧ (∀ p h, cueOf s t ≠ none → playerOf s t = some p → (playerAt s p).state = .playing →
         (playerAt s p).entry = some h → exec (.cueRemove tag) s = .next (answer m .ok []
           { s with
             pu := { s.pu with
               cues := rest
               players := s.pu.players.put p
                 { playerAt s p with state := .ending, detached := true, cause := .removed } }
             me := { s.me with
               playerEnvelope := s.me.playerEnvelope.put p ((Tab.at s.me.playerEnvelope p).giveEnvelope 0 h.fadeOut) } })))

/-- CUE MOVE (R83) and CUE GAIN (R84): an entry not at the front takes the place asked for among the others, clamped as in
CUE INSERT, a LOADED entry that this takes past the first two places being WAITING again and its player IDLE (R86), and one at
the front is refused WRONG_STATE; an unknown tag is NO_SUCH, and one outside 1 to 65,535 BAD_PARAM
(R194); a new gain is clamped and returned, and given to the player that holds the entry, with the trim of the clip that it last
played from (of a SWEEP stream the model's choice, log entry 116). -/
def Obligations.CueMoveAndCueGain : Prop :=
  (∀ (tag position : Word) (t : Half) (e : CueEntry) (m : CommandMessage) (s : State),
    Running s (.cueMove tag position) m → s.settings.roles.site = false → 1 ≤ tag.toNat → tag.toNat = t.toNat →
    cueOf s t = some e →
    (atFront s e = true → exec (.cueMove tag position) s = .next (answer m .wrongState [] s))
    ∧ (atFront s e = false → ∃ u p, exec (.cueMove tag position) s = .next (answer m .ok [word p] u)
      ∧ ∃ rest, rest = s.pu.cues.filter (fun x => x.tag != t)
        ∧ WindowTrimmed { s with pu := { s.pu with cues := rest.take (p - 1) ++ e :: rest.drop (p - 1) } } u
        ∧ (1 ≤ position.toNat → position.toNat ≤ frontPlace s rest → p = frontPlace s rest + 1)
        ∧ (frontPlace s rest < position.toNat → position.toNat ≤ rest.length → p = position.toNat)
        ∧ (position = 0 ∨ rest.length < position.toNat → p = rest.length + 1)
        ∧ u.pu.cues.map CueEntry.tag
          = (rest.map CueEntry.tag).take (p - 1) ++ t :: (rest.map CueEntry.tag).drop (p - 1)))
  ∧ (∀ (tag x : Word) (i : Instr) (m : CommandMessage) (s : State), i = .cueMove tag x ∨ i = .cueGain tag x →
    Running s i m → s.settings.roles.site = false →
    (tag = 0 ∨ 65535 < tag.toNat → exec i s = .next (answer m .badParam [] s))
    ∧ ∀ t : Half, 1 ≤ tag.toNat → tag.toNat = t.toNat → cueOf s t = none → exec i s = .next (answer m .noSuch [] s))
  ∧ ∀ (tag gain : Word) (t : Half) (e : CueEntry) (m : CommandMessage) (s : State), Running s (.cueGain tag gain) m →
    s.settings.roles.site = false → 1 ≤ tag.toNat → tag.toNat = t.toNat → cueOf s t = some e →
    let cues := s.pu.cues.map fun x => if x.tag = t then { x with gain := min 8192 gain.toNat } else x
    (playerOf s t = none → exec (.cueGain tag gain) s = .next (answer m .ok [word (min 8192 gain.toNat)]
      { s with pu := { s.pu with cues := cues } }))
    ∧ (∀ p h c, playerOf s t = some p → (playerAt s p).entry = some h →
      (playerAt s p).stream[(playerAt s p).part]? = some c →
      exec (.cueGain tag gain) s = .next (answer m .ok [word (min 8192 gain.toNat)]
        { s with
          pu := { s.pu with
            cues := cues
            players := s.pu.players.put p
              { playerAt s p with entry := some { h with gain := min 8192 gain.toNat } } }
          me := { s.me with playerGain := s.me.playerGain.put p ((Tab.at s.me.playerGain p).giveGain
            (min 8192 ((c.trim * min 8192 gain.toNat + 2048) / 4096)) 1) } }))

/-- PLAY (R90, R91, R92): the first WAITING or LOADED entry in list order not yet due comes due, and the response gives its tag;
held by a LOADED player it starts at once (`entryStarted`): behind the entries at the front, the player and the entry PLAYING,
or HELD, WAITING with hold position 0 under a hold cause, and after a release that had to reload by the behaviour of the
release; the due flag is cleared, and ENTRY_STARTED is posted. An empty list is NO_SUCH, and no such entry WRONG_STATE.
STOP (R95): the player of a PLAYING entry enters ENDING with its envelope given 0 over the entry's fade-out; one still
fading for a hold only ends otherwise, and one that waits ends at once (R96); a WAITING or LOADED entry is refused WRONG_STATE,
an unknown tag NO_SUCH, one outside 1 to 65,535 BAD_PARAM (R194), and every tag NOT_ROLE without the PLAYOUT role (the order is
the model's, log entry 115). That the due-since count starts from 0 (log entry 73), where a started entry stands in the list
(log entry 15), the hold position that a start leaves (log entry 105) and the record of an IDLE player (log entries 72 and 81)
are the model's. -/
def Obligations.PlayAndStop : Prop :=
  (∀ (m : CommandMessage) (s : State), Running s .play m → s.settings.roles.playout = true →
     let waits (e : CueEntry) : Prop := (e.state = .waiting ∨ e.state = .loaded) ∧ e.due = false
     (firstToPlay s = none ↔ ∀ e ∈ s.pu.cues, ¬ waits e)
     ∧ (∀ e, firstToPlay s = some e ↔ ∃ before after, s.pu.cues = before ++ e :: after ∧ waits e
       ∧ ∀ x ∈ before, ¬ waits x)
     ∧ (s.pu.cues = [] → exec .play s = .next (answer m .noSuch [] s))
     ∧ (s.pu.cues ≠ [] → firstToPlay s = none → exec .play s = .next (answer m .wrongState [] s))
     ∧ (∀ e, firstToPlay s = some e → ∃ u, exec .play s = .next (answer m .ok [word e.tag.toNat] u) ∧ ComesDue e.tag s u))
  ∧ (∀ (tag : Word) (m : CommandMessage) (s : State), Running s (.stop tag) m → s.settings.roles.playout = true →
       s.settings.roles.site = false → tag = 0 ∨ 65535 < tag.toNat →
       exec (.stop tag) s = .next (answer m .badParam [] s))
  ∧ (∀ (tag : Word) (t : Half) (m : CommandMessage) (s : State), Running s (.stop tag) m →
       s.settings.roles.playout = true → s.settings.roles.site = false → 1 ≤ tag.toNat → tag.toNat = t.toNat →
       (cueOf s t = none → exec (.stop tag) s = .next (answer m .noSuch [] s))
       ∧ (∀ e, cueOf s t = some e → e.state = .waiting ∨ e.state = .loaded →
         exec (.stop tag) s = .next (answer m .wrongState [] s))
       ∧ (∀ e p h, cueOf s t = some e → e.state = .playing → playerOf s t = some p →
         (playerAt s p).state = .playing → (playerAt s p).entry = some h →
         exec (.stop tag) s = .next (answer m .ok [] { s with
           pu := { s.pu with players := s.pu.players.put p { playerAt s p with state := .ending, cause := .stop } }
           me := { s.me with
             playerEnvelope := s.me.playerEnvelope.put p ((Tab.at s.me.playerEnvelope p).giveEnvelope 0 h.fadeOut) } }))
       ∧ (∀ e p, cueOf s t = some e → e.state = .held → playerOf s t = some p → (playerAt s p).state = .held →
         (playerAt s p).phase = .fading → exec (.stop tag) s = .next (answer m .ok []
           { s with pu := { s.pu with players := s.pu.players.put p { playerAt s p with cause := .stop } } }))
       ∧ (∀ e p, cueOf s t = some e → e.state = .held → playerOf s t = some p → (playerAt s p).state = .held →
         (playerAt s p).phase = .waiting → exec (.stop tag) s = .next (answer m .ok [] (entryEnded p e .stop s))))
  ∧ ∀ (tag : Word) (m : CommandMessage) (s : State), Running s (.stop tag) m → s.settings.roles.playout = false →
    exec (.stop tag) s = .next (answer m .notRole [] s)

/-- PLAYER_LOAD (R86, R87): the first IDLE player takes the first WAITING entry of the first two in the list, its clip or
what its group resolves to; the entry is LOADED, the first clip's trim, segue point, format and length are copied, the
program gain jumps to P (R44), and the envelope to 4,096, or to 0 for an entry with a fade-in; without both a player and an
entry nothing changes.
READ PLAYER (R105) returns the record, the blocks buffered, P and E, and the UNDERRUN count, which is then 0; NOT_ROLE
without the role, whatever the player word (log entry 107), and BAD_PARAM above 1. The layout of the record's words is the
model's (log entry 18), and so are the words of a clip not copied yet (log entry 91), and of the hold phase and the entry where
there is none (log entry 117).
ENTRY_DUE_AT_TIME (R90) and SEGUE_POINT_REACHED (R93): an AT_TIME entry comes due once the block count has reached its
start time (counted modulo 2^32), one REQUEUEd after it too (the model's, log entry 63); at its segue point a PLAYING entry
makes the FOLLOW entry that stands next after it due, once. An entry that comes due starts at once where its player is LOADED
(R92). That the due-since count starts from 0 (log entry 73), where a started entry stands in the list (log entry 15), the hold
position that a start leaves (log entry 105) and what an IDLE player keeps (log entries 72 and 81) are the model's. -/
def Obligations.EntriesAreLoadedAndComeDue : Prop :=
  (∀ (p : Fin 2) (e : CueEntry) (s : State), s.settings.roles.playout = true →
    (playerAt s p).state = .idle → (p = 0 ∨ (playerAt s 0).state ≠ .idle) →
    (s.pu.cues.take 2).find? (fun e => e.state == .waiting) = some e →
    let r := match e.source with
      | .clip c => (s, [c])
      | .group g => resolveGroup g s
    let stream : List StreamClip := match r.2 with
      | [] => []
      | c :: rest => ⟨c, true, (clipAt s c).trim, (clipAt s c).segue, (clipAt s c).format, (clipAt s c).length⟩
        :: rest.map fun d => ⟨d, false, 4096, 0, .m16, 0⟩
    let trim := (stream.head?.map StreamClip.trim).getD 4096
    exec .playerLoad s = .next { r.1 with
      cs := { r.1.cs with asked := 0 }
      pu := { s.pu with
        cues := s.pu.cues.map fun x => if x.tag = e.tag then { x with state := .loaded } else x
        players := s.pu.players.put p { Player.idle with
          state := .loading, underruns := (playerAt s p).underruns, notWritten := (playerAt s p).notWritten
          entry := some ⟨e.tag, e.tier, e.gain, e.fadeIn, e.fadeOut, e.hold⟩
          stream := stream } }
      me := { s.me with
        playerGain := s.me.playerGain.put p (Ramp.rest (min 8192 ((trim * e.gain + 2048) / 4096)))
        playerEnvelope := s.me.playerEnvelope.put p (Ramp.rest (if 0 < e.fadeIn then 0 else 4096)) } })
  ∧ (∀ s : State, s.settings.roles.playout = false ∨ (∀ p, (playerAt s p).state ≠ .idle)
      ∨ (∀ e ∈ s.pu.cues.take 2, e.state ≠ .waiting) → exec .playerLoad s = .next s)
  ∧ (∀ (player : Word) (m : CommandMessage) (s : State), Running s (.readPlayer player) m →
    (s.settings.roles.playout = false → exec (.readPlayer player) s = .next (answer m .notRole [] s))
    ∧ (s.settings.roles.playout = true → 2 ≤ player.toNat →
      exec (.readPlayer player) s = .next (answer m .badParam [] s))
    ∧ ∀ p : Fin 2, s.settings.roles.playout = true → player.toNat = p.val →
      let x := playerAt s p
      let held : List Word := match x.entry with
        | some e => [word e.tag.toNat, word e.tier.ctorIdx, word e.fadeIn, word e.fadeOut, word e.hold.ctorIdx]
        | none => List.replicate 5 wordNone
      exec (.readPlayer player) s = .next (answer m .ok
        ([word x.state.ctorIdx, if x.state = .held then word x.phase.ctorIdx else wordNone] ++ held
          ++ word x.stream.length :: x.stream.flatMap (fun c => word c.clip :: if c.copied then
              [word c.trim, word c.segue, word c.format.ctorIdx, word c.length] else List.replicate 4 wordNone)
          ++ [word x.position, word x.fetchPosition, word x.buffer.length, word x.holdPosition, wordFlag x.segueGiven
              , wordFlag x.low, word (x.buffer.length / 48), word (Tab.at s.me.playerGain p).current
              , word (Tab.at s.me.playerEnvelope p).current, word x.underruns])
        { s with pu := { s.pu with players := s.pu.players.put p { x with underruns := 0 } } }))
  ∧ (∀ (tag : Half) (e : CueEntry) (s : State), cueOf s tag = some e → e.startMode = .atTime →
    ((s.clock.blockCount - e.startTime).toNat < 2147483648 →
      ∃ t, exec (.entryDueAtTime tag) s = .next t ∧ ComesDue tag s t)
    ∧ (2147483648 ≤ (s.clock.blockCount - e.startTime).toNat → exec (.entryDueAtTime tag) s = .next s))
  ∧ ∀ (p : Fin 2) (c : StreamClip) (h : HeldEntry) (s : State), let x := playerAt s p
    let told : State := { s with pu := { s.pu with players := s.pu.players.put p { x with segueGiven := true } } }
    x.state = .playing → x.cause = .complete → x.detached = false → x.segueGiven = false → x.stream = [c] →
    c.copied = true → c.segue ≤ x.position → x.entry = some h →
    (follower h.tag s = none → exec (.seguePointReached p) s = .next told)
    ∧ (∀ t, follower h.tag s = some t → ∃ u, exec (.seguePointReached p) s = .next u ∧ ComesDue t told u)

/-- PLAYER_ENDING (R94): with its stream fully fetched and no more frames left than its fade-out's blocks hold, a PLAYING
player enters ENDING and its envelope is given 0 over the fade-out. HOLD_FADE_COMPLETE (R99): a HELD player whose fade has
produced its END block waits, its buffer empty, to refill from its hold position, or from frame 0 for RESTART.
An entry whose END block has been produced ends at the next block start, and one stopped or removed under a hold at the end of
its hold fade: the player is IDLE, the end action applies where the entry is in the list, and ENTRY_ENDED tells the cause (R96).
PLAYERS_RELEASED (R97, R100): when the release count has reached 16 a HELD, WAITING player whose buffer is ready resumes
from its hold position over 8 blocks, or restarts from frame 0 by its fade-in, its entry PLAYING again; one whose buffer is not
ready is LOADING with its entry LOADED and due; a SKIP entry ends, and the FOLLOW entry next after it comes due; one still FADING
is marked, to be released once its fade is complete if the count then stands at 16; PLAYERS_RELEASED is posted where a player
was HELD. At a block start the release count becomes 0 under a hold cause and otherwise increases, stopping at 16, and a due
entry's due-since count increases (R90, R97), before AT_TIME entries, segue points, ends and the seat have their turn; the
order among these is the model's (log entries 30, 35 and 83). That a hold takes a PLAYING player whose END block is handed as any other
is the model's (log entry 90), that the program gain stays as it stands at a release too
(log entry 33), and so are that a fetch asked for before the player waits goes on (log entry 81), the record of an IDLE player
(log entry 72), that an ended entry ends at the next block start (log entry 32), that SKIP refills nothing (log entry 31), that
the due-since count starts from 0 (log entry 73) and the hold position that a release leaves (log entry 105). -/
def Obligations.EndingHoldAndRelease : Prop :=
  ((∀ (p : Fin 2) (c : StreamClip) (h : HeldEntry) (s : State), let x := playerAt s p
     x.state = .playing → x.ended = false → x.entry = some h → 0 < h.fadeOut → x.stream = [c] → c.copied = true →
     c.length ≤ x.fetchPosition → c.length - x.position ≤ 48 * h.fadeOut →
     exec (.playerEnding p) s = .next { s with
       pu := { s.pu with players := s.pu.players.put p { x with state := .ending } }
       me := { s.me with
         playerEnvelope := s.me.playerEnvelope.put p ((Tab.at s.me.playerEnvelope p).giveEnvelope 0 h.fadeOut) } })
   ∧ ∀ (p : Fin 2) (h : HeldEntry) (s : State), let x := playerAt s p
     x.state = .held → x.phase = .fading → x.ended = true → x.cause = .complete → x.detached = false →
     x.entry = some h → ∃ u, exec (.holdFadeComplete p) s = .next u
       ∧ u = { s with
           cs := { s.cs with port := u.cs.port, waiting := u.cs.waiting, asked := 0 }
           pu := { s.pu with players := s.pu.players.put p { x with
             state := .held, phase := .waiting, buffer := [], airKept := false, ended := false
             fetchPosition := match h.hold with
               | .resume => x.holdPosition
               | .restart => 0
               | .skip => x.fetchPosition } } }
       ∧ ∀ f ∈ u.cs.waiting, f.reader = playerReader p → f.live = false)
  ∧ (∀ (p : Fin 2) (s : State), let x := playerAt s p
     ((x.state ≠ .playing ∧ x.state ≠ .ending) ∨ x.ended = false → finishEnded p s = s)
     ∧ (∀ h e, x.entry = some h → x.detached = false → cueOf s h.tag = some e → x.ended = true →
       (x.state = .playing ∨ x.state = .ending → finishEnded p s = entryEnded p e x.cause s)
       ∧ (x.state = .held → x.phase = .fading → x.cause ≠ .complete →
         exec (.holdFadeComplete p) s = .next (entryEnded p e x.cause s)))
     ∧ ∀ h, x.entry = some h → x.detached = true → x.ended = true →
       let left : State := { s with
         cp := s.cp.post ⟨.entryEnded, s.clock.blockCount, [word p, word h.tag.toNat, word x.position, word 3]⟩
         cs := fetchesUnwanted (playerReader p) s.cs
         pu := { s.pu with players := s.pu.players.put p { Player.idle with
           underruns := x.underruns, notWritten := x.notWritten } } }
       (x.state = .playing ∨ x.state = .ending → finishEnded p s = left)
       ∧ (x.state = .held → x.phase = .fading → exec (.holdFadeComplete p) s = .next left))
  ∧ (∀ s : State,
       (s.pu.releaseReached = false → exec .playersReleased s = .next s)
       ∧ (s.pu.releaseReached = true → (∀ p, (playerAt s p).state ≠ .held) →
         exec .playersReleased s = .next { s with pu := { s.pu with releaseReached := false } })
       ∧ ∀ p : Fin 2, s.pu.releaseReached = true → (∀ q, q ≠ p → (playerAt s q).state ≠ .held) →
         (playerAt s p).state = .held →
         let told : State := { s with
           cp := s.cp.post ⟨.playersReleased, s.clock.blockCount, []⟩, pu := { s.pu with releaseReached := false } }
         ((playerAt s p).phase = .fading → exec .playersReleased s = .next { told with pu := { told.pu with
           players := s.pu.players.put p { playerAt s p with releaseDue := true } } })
         ∧ ∀ h, (playerAt s p).phase = .waiting → (playerAt s p).entry = some h → (playerAt s p).detached = false →
           (h.hold = .skip → holdPresent s = false) →
           ∃ u, exec .playersReleased s = .next u ∧ PlayerReleased p h told u)
  ∧ (∀ (p : Fin 2) (s : State), let x := playerAt s p
       let unmarked : State := { s with pu := { s.pu with players := s.pu.players.put p { x with releaseDue := false } } }
       (x.releaseDue = false ∨ x.state ≠ .held ∨ x.phase = .fading → releaseLate p s = s)
       ∧ ∀ h, x.releaseDue = true → x.state = .held → x.phase = .waiting → x.entry = some h → x.detached = false →
         (s.pu.releaseCount ≠ 16 → releaseLate p s = unmarked)
         ∧ (s.pu.releaseCount = 16 → PlayerReleased p h unmarked (releaseLate p s)))
  ∧ ∀ s : State,
    (let n := if holdPresent s then 0 else min 16 (s.pu.releaseCount + 1)
     exec .playersReleased (releaseLate 1 (releaseLate 0 { s with pu := { s.pu with
       releaseCount := n, releaseReached := decide (s.pu.releaseCount < 16) && decide (n = 16) } })) = .next (releaseTick s))
    ∧ playoutTick s = { s with pu := { s.pu with
        cues := s.pu.cues.map fun e => if e.due then { e with dueSince := min 65535 (e.dueSince + 1) } else e
        players := Tab.each s.pu.players fun x => { x with notWritten := false } } }
    ∧ (s.settings.roles.playout = false → playoutStart s = s)
    ∧ (s.settings.roles.playout = true →
      let released := releaseTick (playoutTick s)
      let timed := forEach (released.pu.cues.map CueEntry.tag) (fun t s => dueAtTime t s) released
      let segued := reachSegue 0 (reachSegue 1 (reachSegue 0 timed))
      playoutStart s = seatTick (beginEnding 1 (beginEnding 0 (finishEnded 1 (finishEnded 0 segued)))))
    ∧ (∀ t, exec (.entryDueAtTime t) s = .next (dueAtTime t s)) ∧ (∀ p, exec (.seguePointReached p) s = .next (reachSegue p s)
      ∧ exec (.playerEnding p) s = .next (beginEnding p s))

/-- The seat (R101 to R104): a bid of 64 blocks wins it and clears the hold latch; a holder whose players have played to
air for 128 blocks while the LINK node reports silence yields it, setting the latch; after 4,096 blocks YIELDED becomes
STANDBY; each posts SEAT_STATE with the states before and after. SEAT RESET takes YIELDED to STANDBY and clears the
latch. At a block start a STANDBY seat that may bid, with no peer HOLDING, enters BIDDING with its bid count 0; a bidder
leaves for STANDBY where a PRESENT peer is HOLDING or its cue list is empty, starts its count again behind a lower bidder,
and otherwise counts; a holder leaves for STANDBY, setting the latch, where a PRESENT peer with a lower node id is
HOLDING; in YIELDED the timer counts. The cause codes are the model's (log entry 17), and so are the order of the seat within a
block start (log entry 35) and that the block start that ends YIELDED makes no bid test (log entry 106). -/
def Obligations.SeatChangesHands : Prop :=
  let told (s : State) (a b c : Nat) : Notice := ⟨.seatState, s.clock.blockCount, [word a, word b, word c]⟩
  let moved (s : State) (new : SeatState) (a b c : Nat) : State :=
    { s with cp := s.cp.post (told s a b c), pu := { s.pu with seat := new } }
  let peerIs (s : State) (k : Fin 8) (st : SeatState) : Prop := (Tab.at s.peers k).state = .present ∧
    ∃ b, (Tab.at s.peers k).body = some b ∧ b.seat = st
  (∀ s : State, s.pu.seat = .standby →
    let mayBid : Prop := s.settings.seatEnable = true ∧ s.lu.state = .joined ∧ s.pu.cues ≠ []
    (mayBid → (∀ k, ¬ peerIs s k .holding) →
      seatTick s = moved { s with pu := { s.pu with bidCount := 0 } } .bidding 0 1 2)
    ∧ (¬ mayBid ∨ (∃ k, peerIs s k .holding) → seatTick s = s))
  ∧ (∀ s : State, s.pu.seat = .bidding →
    ((∃ k, peerIs s k .holding) → seatTick s = moved s .standby 1 0 0)
    ∧ ((∀ k, ¬ peerIs s k .holding) →
      (s.pu.cues = [] → seatTick s = moved s .standby 1 0 4)
      ∧ (∀ k, s.pu.cues ≠ [] → k < s.settings.nodeId → peerIs s k .bidding →
        seatTick s = { s with pu := { s.pu with bidCount := 0 } })
      ∧ (s.pu.cues ≠ [] → (∀ k, k < s.settings.nodeId → ¬ peerIs s k .bidding) →
        (s.pu.bidCount < 63 → seatTick s = { s with pu := { s.pu with bidCount := s.pu.bidCount + 1 } })
        ∧ (63 ≤ s.pu.bidCount → (seatTick s).pu.seat ≠ .bidding
          ∧ Posted (s.cp.post (told s 1 2 3)) (seatTick s).cp))))
  ∧ (∀ (k : Fin 8) (s : State), s.pu.seat = .holding → k < s.settings.nodeId → peerIs s k .holding →
    let t := seatTick s
    let playing : Prop := ∃ p, (playerAt s p).state = .playing
    t.pu.seat = .standby ∧ t.pu.holdLatch = true ∧ Posted (s.cp.post (told s 2 0 0)) t.cp
    ∧ (playing → t.pu.airRun = min 128 (s.pu.airRun + 1)) ∧ (¬ playing → t.pu.airRun = 0)
    ∧ t = { s with cp := t.cp, pu := t.pu, me := { s.me with playerEnvelope := t.me.playerEnvelope } })
  ∧ (∀ s : State, s.pu.seat = .bidding → 64 ≤ s.pu.bidCount → exec .seatHolding s = .next { s with
    cp := s.cp.post (told s 1 2 3), pu := { s.pu with seat := .holding, holdLatch := false } })
  ∧ (∀ s : State, s.pu.seat = .holding → 128 ≤ s.pu.airRun → linkSilent s = true →
    (∀ p, (playerAt s p).state ≠ .playing ∧ (playerAt s p).state ≠ .ending) → s.settings.roles.playout = true →
    exec .seatYielded s = .next { s with
      cp := (s.cp.post (told s 2 3 1)).post ⟨.playersHeld, s.clock.blockCount, [word 2]⟩
      pu := { s.pu with seat := .yielded, holdLatch := true, yieldTimer := 0 } })
  ∧ (∀ (p : Fin 2) (s : State), s.pu.seat = .holding → 128 ≤ s.pu.airRun → linkSilent s = true →
    s.settings.roles.playout = true → (playerAt s p).state = .playing → ∃ u, exec .seatYielded s = .next u
      ∧ u = { s with cp := u.cp, pu := u.pu, me := { s.me with playerEnvelope := u.me.playerEnvelope } }
      ∧ u.pu.seat = .yielded ∧ u.pu.holdLatch = true ∧ u.pu.yieldTimer = 0
      ∧ (playerAt u p).state = .held ∧ (playerAt u p).phase = .fading ∧ (playerAt u p).airKept = true
      ∧ (playerAt u p).holdPosition = (playerAt s p).position
      ∧ Tab.at u.me.playerEnvelope p = (Tab.at s.me.playerEnvelope p).giveEnvelope 0 8)
  ∧ (∀ s : State, s.pu.seat = .yielded → 4096 ≤ s.pu.yieldTimer → exec .yieldTimerExpiry s = .next { s with
    cp := s.cp.post (told s 3 0 5), pu := { s.pu with seat := .standby } })
  ∧ (∀ s : State, s.pu.seat = .yielded → let n := s.pu.yieldTimer + 1
    (n < 4096 → seatTick s = { s with pu := { s.pu with yieldTimer := n } }
      ∧ exec .yieldTimerExpiry { s with pu := { s.pu with yieldTimer := n } }
        = .next { s with pu := { s.pu with yieldTimer := n } })
    ∧ (n = 4096 → seatTick s = moved { s with pu := { s.pu with yieldTimer := n } } .standby 3 0 5))
  ∧ ∀ (m : CommandMessage) (s : State), Running s .seatReset m → s.settings.roles.playout = true →
    (s.pu.seat = .yielded → exec .seatReset s = .next (answer m .ok [word 0] { s with
      cp := s.cp.post (told s 3 0 6), pu := { s.pu with seat := .standby, holdLatch := false } }))
    ∧ (s.pu.seat ≠ .yielded → exec .seatReset s = .next (answer m .ok [word s.pu.seat.ctorIdx]
      { s with pu := { s.pu with holdLatch := false } }))

/-! ## The Caller Unit -/

/-- ANSWER LINE (R109), SCREEN LINE, HOLD LINE and READY LINE (R113): a RINGING line enters CHECKING with its counts
cleared and a pool voice asked for (R186); a line of the screening states moves to the one named, or stays where it
already is; anything else is refused, NOT_ROLE before BAD_PARAM (the order is the model's, log entry 115). The state timer of a
line that changes its state is 0 in every state (the model's, log entry 74). -/
def Obligations.LineCommandsMoveLine : Prop :=
  (∀ (w : Word) (l : Fin 3) (m : CommandMessage) (s : State), Running s (.answerLine w) m →
    s.settings.roles.caller = true → w.toNat = l.val + 1 →
    ((lineAt s l).state = .ringing → ∃ u t, exec (.answerLine w) s = .next (answer m .ok [] t)
      ∧ LineMoved l .checking .lineState [word 0] s u
      ∧ lineAt t l = { lineAt u l with loopAbsent := 0, checkCount := 0, checkPeak := 0, poorHybrid := false
                                       voice := (lineAt t l).voice }
      ∧ t = { u with
          ku := { u.ku with lines := t.ku.lines }
          me := { u.me with caller := u.me.caller.put l { Tab.at u.me.caller l with previous := 0 } }
          tg := { u.tg with voices := t.tg.voices, waitList := t.tg.waitList } }
      ∧ (∀ j, j ≠ l → lineAt t j = lineAt s j)
      ∧ (∀ v, s.tg.waitList = [] → freePoolVoice s = some v → (lineAt t l).voice = .held v
        ∧ Tab.at t.tg.voices v = grantedVoice (.line l) false s.settings.checkFrequency 20 s.settings.checkLevel
        ∧ t.tg.waitList = [])
      ∧ (s.tg.waitList ≠ [] ∨ freePoolVoice s = none → (lineAt t l).voice = .waiting
        ∧ t.tg.voices = s.tg.voices ∧ t.tg.waitList = s.tg.waitList ++ [.line l]))
    ∧ ((lineAt s l).state ≠ .ringing → exec (.answerLine w) s = .next (answer m .wrongState [] s)))
  ∧ (∀ (w : Word) (l : Fin 3) (i : Instr) (target : CallState) (m : CommandMessage) (s : State),
    (i, target) ∈ [(.screenLine w, CallState.screening), (.holdLine w, .holding), (.readyLine w, .ready)] →
    Running s i m → s.settings.roles.caller = true → w.toNat = l.val + 1 →
    ((lineAt s l).state = target → exec i s = .next (answer m .ok [word target.ctorIdx] s))
    ∧ ((lineAt s l).state ≠ target → (lineAt s l).state ∈ [CallState.screening, .holding, .ready] →
      ∃ t, exec i s = .next (answer m .ok [word target.ctorIdx] t) ∧ LineMoved l target .lineState [word 0] s t)
    ∧ ((lineAt s l).state ∉ [CallState.screening, .holding, .ready] →
      exec i s = .next (answer m .wrongState [] s)))
  ∧ ∀ (w : Word) (i : Instr) (m : CommandMessage) (s : State),
    i ∈ [.answerLine w, .screenLine w, .holdLine w, .readyLine w] → Running s i m →
    (s.settings.roles.caller = false → exec i s = .next (answer m .notRole [] s))
    ∧ (s.settings.roles.caller = true → w.toNat = 0 ∨ 3 < w.toNat → exec i s = .next (answer m .badParam [] s))

/-- TAKE CALLER, DROP CALLER, HANG UP CALLER and TAKE NEXT on a line of the node itself (R115, R116, R121): the act is
made at once, or refused LIMIT or WRONG_STATE.
Refusals of the caller commands and of REMOTE OUTPUT (R121, R127): NOT_ROLE, BAD_PARAM, and NO_SUCH on an empty Air
Queue or with no LINK peer. That REMOTE OUTPUT at a SITE node is NOT_ROLE whatever the output is the model's (log entry 108),
and so is that the state timer of a line that changes its state is 0 in every state (log entry 74). -/
def Obligations.CallerCommandsOnOwnAndOnRefusal : Prop :=
  (∀ (node line : Word) (l : Fin 3) (m : CommandMessage) (s : State), s.settings.roles.caller = true →
     node.toNat = s.settings.nodeId.val → line.toNat = l.val + 1 →
     (∀ i : Instr, (i = .takeCaller node line
         ∨ (i = .takeNext ∧ ∃ e, s.ku.airQueue.head? = some e ∧ e.node = s.settings.nodeId ∧ e.line = l)) →
       Running s i m →
       ((lineAt s l).state = .ready → s.ku.onAir < s.settings.maxOnAir →
         ∃ t, exec i s = .next (answer m .ok [word CallState.onAir.ctorIdx] t) ∧ LineMoved l .onAir .lineState [word 0] s t)
       ∧ ((lineAt s l).state = .ready → s.settings.maxOnAir ≤ s.ku.onAir →
         exec i s = .next (answer m .limit [] s))
       ∧ ((lineAt s l).state ≠ .ready → exec i s = .next (answer m .wrongState [] s)))
     ∧ (Running s (.dropCaller node line) m →
       ((lineAt s l).state = .onAir → ∃ t, exec (.dropCaller node line) s = .next (answer m .ok [word CallState.holding.ctorIdx] t)
         ∧ LineMoved l .holding .lineState [word 0] s t)
       ∧ ((lineAt s l).state ≠ .onAir → exec (.dropCaller node line) s = .next (answer m .wrongState [] s)))
     ∧ (Running s (.hangUpCaller node line) m →
       ((lineAt s l).state ∈ [CallState.checking, .screening, .holding, .ready, .onAir] →
         ∃ t, exec (.hangUpCaller node line) s = .next (answer m .ok [word CallState.clearing.ctorIdx] t)
           ∧ LineMoved l .clearing .lineState [word 0] s t)
       ∧ ((lineAt s l).state ∉ [CallState.checking, .screening, .holding, .ready, .onAir] →
         exec (.hangUpCaller node line) s = .next (answer m .wrongState [] s))))
  ∧ (∀ (node line output level : Word) (m : CommandMessage) (s : State),
       (∀ i ∈ [Instr.takeCaller node line, .dropCaller node line, .hangUpCaller node line], Running s i m →
         (s.settings.roles.caller = false → exec i s = .next (answer m .notRole [] s))
         ∧ (s.settings.roles.caller = true → 7 < node.toNat ∨ line.toNat = 0 ∨ 3 < line.toNat →
           exec i s = .next (answer m .badParam [] s)))
       ∧ (Running s .takeNext m → (s.settings.roles.caller = false → exec .takeNext s = .next (answer m .notRole [] s))
         ∧ (s.settings.roles.caller = true → s.ku.airQueue = [] → exec .takeNext s = .next (answer m .noSuch [] s)))
       ∧ (Running s (.remoteOutput output level) m →
         (s.settings.roles.site = true → exec (.remoteOutput output level) s = .next (answer m .notRole [] s))
         ∧ (s.settings.roles.site = false → output.toNat = 0 ∨ 4 < output.toNat →
           exec (.remoteOutput output level) s = .next (answer m .badParam [] s))
         ∧ (s.settings.roles.site = false → s.settings.roles.link = false → 1 ≤ output.toNat → output.toNat ≤ 4 →
           (∀ k, (Tab.at s.peers k).state = .present → (Tab.at s.peers k).roles.link = false) →
           exec (.remoteOutput output level) s = .next (answer m .noSuch [] s))))

/-- A caller of a peer, or a LINK peer's output (R121, R122, R127): the request takes the tag counter's value, joins the
list QUEUED, its REQUEST frame is handed and the answer is PENDING with the tag; the counter moves to the next tag that no
request holds. The refusals, in the rule's order; of REMOTE OUTPUT's the order in which R127 names them is the model's (log
entry 115). -/
def Obligations.PeerCommandBecomesRequest : Prop :=
  ∀ (node line output level : Word) (i : Instr) (v : Verb) (k : Fin 8) (item arg : Nat) (m : CommandMessage) (s : State),
    Running s i m → s.settings.roles.site = false →
    ((s.settings.roles.caller = true ∧ k ≠ s.settings.nodeId ∧ arg = 0 ∧ 1 ≤ item ∧ item ≤ 3
        ∧ ((node.toNat = k.val ∧ line.toNat = item
            ∧ (i, v) ∈ [(Instr.takeCaller node line, Verb.take), (.dropCaller node line, .drop)
                , (.hangUpCaller node line, .hangUp)])
          ∨ (i = .takeNext ∧ v = .take ∧ ∃ e, s.ku.airQueue.head? = some e ∧ e.node = k ∧ e.line.val + 1 = item)))
      ∨ (s.settings.roles.link = false ∧ i = .remoteOutput output level ∧ v = .setRemoteOutput ∧ output.toNat = item
        ∧ 1 ≤ item ∧ item ≤ 4 ∧ arg = level.toNat ∧ (Tab.at s.peers k).roles.link = true
        ∧ ∀ j, j < k → (Tab.at s.peers j).state = .present → (Tab.at s.peers j).roles.link = false)) →
    let tag := s.ku.tagCounter
    ((Tab.at s.peers k).state = .present →
      (s.lu.state ≠ .joined → exec i s = .next (answer m .wrongState [] s))
      ∧ (s.lu.state = .joined → 8 ≤ s.ku.requests.length → exec i s = .next (answer m .full [] s))
      ∧ (s.lu.state = .joined → s.ku.requests.length < 8 → s.tx.control.length < 8 → ∃ next : Half,
        exec i s = .next (answer m .pending [word tag.toNat] { s with
          ku := { s.ku with requests := s.ku.requests ++ [⟨tag, v, k, item, arg, .queued, 0⟩], tagCounter := next }
          tx := { s.tx with
            control := insertControl ⟨s.tx.frameSeq, .request ⟨v, tag, k, item, arg⟩, 0⟩ s.tx.control
            frameSeq := s.tx.frameSeq + 1 } })
        ∧ next ≠ 0 ∧ next ≠ tag ∧ (∀ r ∈ s.ku.requests, r.tag ≠ next)
        ∧ ((∀ r ∈ s.ku.requests, r.tag ≠ if tag = 65535#16 then 1#16 else tag + 1) →
          next = if tag = 65535#16 then 1#16 else tag + 1)))
    ∧ ((Tab.at s.peers k).state ≠ .present → i ≠ .remoteOutput output level →
      exec i s = .next (answer m .noSuch [] s))

/-- A line's own events at a CALLER node (R108, R112, R116): an IDLE line rings at its ACTIVE ring level; RINGING ends
after 8,000 blocks, DEAD after 16 and CLEARING after 500, in IDLE, or in RINGING at once where the ring level is ACTIVE; a
seized line whose loop has been absent for 200 block starts clears.
LINE_CHECKED (R111): a check that has reached its length ends in DEAD below dead_floor, even above echo_ceiling (the
model's, log entry 82), and otherwise in SCREENING, with POOR_HYBRID set above echo_ceiling. LINE_INPUT_ACCEPTED (R107): after three equal samples the contact's level
changes over, with the hold-off set to 64; a ring acceptance makes an IDLE line ring. Below its limit no count ends anything.
At a block start the lines come in ascending order (log entry 83), then the requests; in each line the filters take the
samples, and then the state's own count is taken: the timer of RINGING, 0 while the ring level is ACTIVE, of DEAD and of
CLEARING (R108, R112, R116), the loop-absent count of a seized line, 0 while the loop level is ACTIVE (R116), the ready age
(R114), and the check count of a line that holds its voice, with the peak over the last half, rounded down (R110); a count
that reaches its limit ends the state as its row does. The order within a block start is the model's (log entries 76 and 109).
The state timer of a line that changes its state is 0 in every state (the model's, log entry 74). -/
def Obligations.LineTimersAndInputsMoveLine : Prop :=
  (∀ (l : Fin 3) (s : State), s.cp.device = .running → s.settings.roles.site = false → s.settings.roles.caller = true →
     let x := lineAt s l
     (x.state = .idle → x.ring.level = true → ∃ t, exec (.callRinging l) s = .next t
       ∧ LineMoved l .ringing .callRinging [word 2] s t)
     ∧ (∀ (i : Instr) (st : CallState) (n : Nat) (k : NoticeKind),
       (i, st, n, k) ∈ [(Instr.callAbandoned l, CallState.ringing, 8000, NoticeKind.callAbandoned)
         , (.lineDeadTimeout l, .dead, 16, .lineState), (.clearingComplete l, .clearing, 500, .lineState)] →
       x.state = st → n ≤ x.timer → ∃ u t, exec i s = .next t ∧ LineMoved l .idle k [word 3] s u
         ∧ (x.ring.level = false → t = u)
         ∧ (x.ring.level = true → LineMoved l .ringing .callRinging [word 2] u t))
     ∧ (x.state ∈ [CallState.checking, .screening, .holding, .ready, .onAir] → 200 ≤ x.loopAbsent →
       ∃ t, exec (.callerGone l) s = .next t ∧ LineMoved l .clearing .callerGone [word 4] s t))
  ∧ (∀ (l : Fin 3) (s : State), s.cp.device = .running → s.settings.roles.site = false → s.settings.roles.caller = true →
       let x := lineAt s l
       let peak := x.checkPeak
       (∀ v, x.state = .checking → x.voice = .held v → s.settings.checkLength ≤ x.checkCount →
         (peak < s.settings.deadFloor → ∃ t, exec (.lineChecked l) s = .next t
           ∧ LineMoved l .dead .lineDead [word 5, word peak] s t)
         ∧ (s.settings.deadFloor ≤ peak → peak ≤ s.settings.echoCeiling → ∃ t, exec (.lineChecked l) s = .next t
           ∧ LineMoved l .screening .lineChecked [word 5, word peak, word 0]
             (setLine l { x with poorHybrid := false } s) t)
         ∧ (s.settings.deadFloor ≤ peak → s.settings.echoCeiling < peak → ∃ t, exec (.lineChecked l) s = .next t
           ∧ LineMoved l .screening .lineChecked [word 5, word peak, word 1]
             (setLine l { x with poorHybrid := true } s) t))
       ∧ (3 ≤ x.loop.run → exec (.lineInputAccepted l .loop) s
         = .next (setLine l { x with loop := ⟨!x.loop.level, 0, 64⟩ } s))
       ∧ (3 ≤ x.ring.run → let s' := setLine l { x with ring := ⟨!x.ring.level, 0, 64⟩ } s
         (x.state ≠ .idle ∨ x.ring.level = true → exec (.lineInputAccepted l .ring) s = .next s')
         ∧ (x.state = .idle → x.ring.level = false → ∃ t, exec (.lineInputAccepted l .ring) s = .next t
           ∧ LineMoved l .ringing .callRinging [word 2] s' t)))
  ∧ (∀ (l : Fin 3) (s : State), let x := lineAt s l
       (x.state ≠ .ringing ∨ x.timer < 8000 → exec (.callAbandoned l) s = .next s)
       ∧ (x.state ≠ .dead ∨ x.timer < 16 → exec (.lineDeadTimeout l) s = .next s)
       ∧ (x.state ≠ .clearing ∨ x.timer < 500 → exec (.clearingComplete l) s = .next s)
       ∧ (x.state ∉ [CallState.checking, .screening, .holding, .ready, .onAir] ∨ x.loopAbsent < 200 →
         exec (.callerGone l) s = .next s)
       ∧ (x.state ≠ .checking ∨ (∀ v, x.voice ≠ .held v) ∨ x.checkCount < s.settings.checkLength →
         exec (.lineChecked l) s = .next s))
  ∧ (∀ (input : BlockInput) (ups : Tab (List Int) 3) (s : State),
       let lines := forEach [0, 1, 2] (fun l => lineTick (Tab.at s.ku.lines l) input ups l) s
       callerTick input ups s = requestTick (if s.settings.roles.caller then requeueOwn lines else s))
  ∧ (∀ (input : BlockInput) (ups : Tab (List Int) 3) (l : Fin 3) (before : CallLine) (s : State),
       s.cp.device = .running → s.settings.roles.site = false → s.settings.roles.caller = true →
       before.state = (lineAt s l).state →
       LineTicked l before.holdsVoice (input.ring.getD l false) (input.loop.getD l false) (Tab.at ups l) s
         (lineTick before input ups l s))
  ∧ ContactFilter

/-- REQUEST_RECEIVED (R124, R125): a REQUEST for another node is disregarded, and one heard outside JOINED is discarded
unanswered; the owner acts on one for itself by its verb and the line's state, with cause REQUEST and the requester, and
hands an ANSWER with the outcome and the line's state after. The state carried for a line that the node does not have
is free (log entry 27).
ANSWER_RECEIVED (R126) and REQUEST_NO_ANSWER (R123): an ANSWER that matches a SENT request by requester, tag and sender
ends it with its outcome and the state carried; one that matches none is discarded; a SENT request whose wait count has
reached 32 ends NO_ANSWER. At a block start the wait count of every SENT request increases by 1, that of a QUEUED one stays,
and the requests whose count has come to 32 end in the order in which they were made (log entry 83). Each end posts
REQUEST_DONE (R122). The outcome codes are the model's (log entry 12). The
state timer of a line that changes its state is 0 in every state (the model's, log entry 74). -/
def Obligations.RequestsAreActedOnAndEnded : Prop :=
  (∀ (f : RxControl) (b : RequestBody) (s : State), s.lu.state ≠ .offline → s.lu.receiving = true →
     RxControl.passes f = true → f.kind = 3 → f.node ≠ s.settings.nodeId → parseRequest f.body = some b →
     b.verb ≠ .setRemoteOutput →
     let s' : State := { s with lu := { s.lu with receiving := false, gap := true } }
     let answered (o : Answer) (after : Nat) (t : State) : State := { t with tx := { t.tx with
       control := insertControl ⟨t.tx.frameSeq, .answer ⟨f.node, b.tag, o, b.item, after⟩, 0⟩ t.tx.control
       frameSeq := t.tx.frameSeq + 1 } }
     (b.target ≠ s.settings.nodeId.val ∨ s.lu.state ≠ .joined → exec (.requestReceived f) s = .next s')
     ∧ (b.target = s.settings.nodeId.val → s.lu.state = .joined → s.tx.control.length < 8 →
       (b.item = 0 ∨ 3 < b.item → ∃ w, exec (.requestReceived f) s = .next (answered .refusedRole w s'))
       ∧ ∀ l : Fin 3, b.item = l.val + 1 → let st := (lineAt s l).state
         let refusedAs (o : Answer) : Prop :=
           exec (.requestReceived f) s = .next (answered o st.ctorIdx s')
         let done (new : CallState) : Prop := ∃ t, LineMoved l new .lineState [word 1, word f.node] s' t
           ∧ exec (.requestReceived f) s = .next (answered .accepted new.ctorIdx t)
         (s.settings.roles.caller = false → refusedAs .refusedRole)
         ∧ (s.settings.roles.caller = true → match b.verb with
           | .take => (st ≠ .ready → refusedAs .refusedState)
               ∧ (st = .ready → s.settings.maxOnAir ≤ s.ku.onAir → refusedAs .refusedLimit)
               ∧ (st = .ready → s.ku.onAir < s.settings.maxOnAir → done .onAir)
           | .drop => (st ≠ .onAir → refusedAs .refusedState) ∧ (st = .onAir → done .holding)
           | .hangUp => (st ∉ [CallState.checking, .screening, .holding, .ready, .onAir] → refusedAs .refusedState)
               ∧ (st ∈ [CallState.checking, .screening, .holding, .ready, .onAir] → done .clearing)
           | .setRemoteOutput => True)))
  ∧ (let ended (r : Request) (o : Nat) (after : Word) (s : State) : State := { s with
       cp := s.cp.post ⟨.requestDone, s.clock.blockCount,
         [word r.tag.toNat, word r.verb.ctorIdx, word r.target, word r.item, word o, after]⟩
       ku := { s.ku with requests := s.ku.requests.filter fun q => q.tag != r.tag } }
     (∀ (f : RxControl) (b : AnswerBody) (s : State), s.lu.state ≠ .offline → s.lu.receiving = true →
       RxControl.passes f = true → f.kind = 4 → f.node ≠ s.settings.nodeId → parseAnswer f.body = some b →
       let s' : State := { s with lu := { s.lu with receiving := false, gap := true } }
       (∀ r, b.requester = s.settings.nodeId.val → s.ku.requests.find? (fun r => r.tag == b.tag) = some r →
         (r.target = f.node → r.phase = .sent →
           exec (.answerReceived f) s = .next (ended r b.outcome.ctorIdx (word b.after) s'))
         ∧ (r.target ≠ f.node ∨ r.phase = .queued → exec (.answerReceived f) s = .next s'))
       ∧ (b.requester ≠ s.settings.nodeId.val ∨ (∀ r ∈ s.ku.requests, r.tag ≠ b.tag) →
         exec (.answerReceived f) s = .next s'))
     ∧ ∀ (r : Request) (s : State), s.ku.requests.find? (fun q => q.tag == r.tag) = some r → r.phase = .sent →
       (32 ≤ r.wait → exec (.requestNoAnswer r.tag) s = .next (ended r 5 wordNone s))
       ∧ (r.wait < 32 → exec (.requestNoAnswer r.tag) s = .next s))
  ∧ (∀ (tag : Half) (s : State), exec (.requestNoAnswer tag) s = .next (noAnswer tag s))
  ∧ ∀ s : State,
    let counted : State := { s with ku := { s.ku with requests := s.ku.requests.map fun r =>
      if r.phase = .sent then { r with wait := min 32 (r.wait + 1) } else r } }
    requestTick s = forEach (s.ku.requests.map Request.tag) noAnswer counted
    ∧ ((∀ r ∈ s.ku.requests, r.phase = .sent → r.wait < 31) → requestTick s = counted)
    ∧ ∀ r, s.ku.requests = [r] → r.phase = .sent → 31 ≤ r.wait →
      exec (.requestNoAnswer r.tag) counted = .next (requestTick s)

/-! ## The Alert Unit -/

/-- ALERT ISSUE (R131, R133, R136, R139): an alert of a known class, a usable clip and a new key is admitted as an
own-origin PENDING record with the next alert id, its frame handed; with key 0 the id is taken first and makes the key.
The refusals, in the rule's order; FULL where no record gives way. In a full table the lowest-ranked record that is not AIRING
gives its place to an alert that ranks above it. Which id a skipped value gives is read from R136 (log entry 28). -/
def Obligations.AlertIssueAdmitsRecord : Prop :=
  ∀ (cls repeats clip key : Word) (m : CommandMessage) (s : State), Running s (.alertIssue cls repeats clip key) m →
    let i := Instr.alertIssue cls repeats clip key
    let moved (n : Byte) : State := if key = 0 then { s with au := { s.au with originSeq := n } } else s
    (s.settings.roles.site = true → ∃ n, exec i s = .next (answer m .notRole [] (moved n)))
    ∧ (s.settings.roles.site = false → ∃ q n : Byte, let id := s.settings.nodeId.val * 256 + q.toNat
      let k := if key = 0 then 0xF0000000#32 + word id else key
      let refused (c : ResultCode) : Prop := exec i s = .next (answer m c [] (moved n))
      let usable (c : Fin 256) : Prop := c.val < 252 ∧ (clipAt s c).state ≠ .empty
      let fresh : Prop := (∀ r ∈ s.au.table, r.key ≠ k) ∧ k ∉ s.au.recent
      (s.au.table.length ≤ 4 → alertOf s id = none)
      ∧ (alertOf s (s.settings.nodeId.val * 256 + s.au.originSeq.toNat) = none → q = s.au.originSeq)
      ∧ (alertOf s (s.settings.nodeId.val * 256 + (q + 1).toNat) = none → n = q + 1)
      ∧ (3 < cls.toNat ∨ (clip ≠ wordNone ∧ 255 < clip.toNat) → refused .badParam)
      ∧ (cls.toNat ≤ 3 → ∀ c : Fin 256, clip.toNat = c.val →
        (252 ≤ c.val → refused .inUse)
        ∧ (c.val < 252 → (clipAt s c).state = .empty → refused .wrongState)
        ∧ (usable c → ¬ fresh → refused .inUse))
      ∧ (∀ (a : AlertClass) (clipHeld : Option (Fin 256)), cls.toNat = a.ctorIdx →
        (clip = wordNone ∧ clipHeld = none) ∨ (∃ c, clip.toNat = c.val ∧ clipHeld = some c ∧ usable c) → fresh →
        (4 ≤ s.au.table.length → (∀ x ∈ s.au.table, x.state ≠ .airing →
          x.cls.ctorIdx < a.ctorIdx ∨ (x.cls = a ∧ (0 < x.age ∨ x.id < id))) → refused .full)
        ∧ ∃ r : Alert, r.key = k ∧ r.id = id ∧ r.origin = .command ∧ r.cls = a
          ∧ r.duration = s.settings.defaultDuration ∧ r.minuteCount = 0 ∧ r.repeats = max 1 (min 8 repeats.toNat)
          ∧ r.remaining = r.repeats ∧ r.interval = s.settings.alertInterval ∧ r.clip = clipHeld ∧ r.state = .pending
          ∧ r.age = 0 ∧ r.testWait = 0 ∧ r.confirmed = false ∧ r.truncated = false ∧ r.noCapture = false
          ∧ let taken (u : State) : State :=
              let t : State := { u with
                au := { u.au with originSeq := n }
                cs := match clipHeld with
                  | none => u.cs
                  | some c => { u.cs with directory := u.cs.directory.put c { clipAt u c with assigned := true } } }
              answer m .ok [word id, k] (if s.lu.state = .joined then queueControl (.alert (alertBody r none)) t else t)
            (s.au.table.length < 4 → FrameRoom s → exec i s = .next (taken { s with
              cp := s.cp.post ⟨.alertNew, s.clock.blockCount, [word id, k, word a.ctorIdx, word 1, word 1]⟩
              au := { s.au with table := s.au.table ++ [r] } }))
            ∧ ∀ x, s.au.table.length = 4 → Lowest x s → a.ctorIdx < x.cls.ctorIdx ∨ (x.cls = a ∧ x.age = 0 ∧ id < x.id) →
              FramesRoom s → ∃ u, GivesPlace x r (moved n) u ∧ exec i s = .next (taken u)))

/-- Ends of own-origin records (R137, R140, R152, R153): ALERT CANCEL, a receiver CANCEL of the record's key and the
expiry of its duration; an airing that has not yet handed a block stops at once, and one that has fades (R150). ALERT CANCEL of a heard record is NOT_ORIGIN, of no
record NO_SUCH, whatever the id (the model's, log entry 121), and at a SITE node NOT_ROLE before either (the model's, log entry 115).
What a block start counts in a record (R131, R142, R145, R149, R152): its age; of an own record also the minute count, the
blocks since its last frame and the interval, a whole minute taking 1 from the duration; of a heard record its silence. -/
def Obligations.OwnAlertsEnd : Prop :=
  (∀ (id : Word) (m : CommandMessage) (s : State), Running s (.alertCancel id) m →
    (s.settings.roles.site = true → exec (.alertCancel id) s = .next (answer m .notRole [] s))
    ∧ (s.settings.roles.site = false →
      ((∀ r ∈ s.au.table, r.id ≠ id.toNat) → exec (.alertCancel id) s = .next (answer m .noSuch [] s))
      ∧ ∀ r, Sole r s → r.id = id.toNat →
        (r.id / 256 ≠ s.settings.nodeId.val → exec (.alertCancel id) s = .next (answer m .notOrigin [] s))
        ∧ (r.id / 256 = s.settings.nodeId.val → ∃ t, AlertEnded r .cancelled s t
          ∧ exec (.alertCancel id) s = .next (answer m .ok [] t))))
  ∧ (∀ (key : Word) (s : State), s.cp.device = .running → s.settings.roles.site = false →
    s.settings.roles.alert = true → s.au.framer = .hunt → key ≠ 0 →
    let s' : State := { s with au := { s.au with framerBlocks := 0 } }
    let cancel : Instr := .receiverCancel (receiverFrame 3 (be32 key))
    (∀ r, Sole r s → r.key = key → r.id / 256 = s.settings.nodeId.val →
      (∀ x ∈ s.au.table, x.key = key → x.id / 256 = s.settings.nodeId.val → x = r) →
      ∃ t, exec cancel s = .next t ∧ AlertEnded r .cancelled s' t)
    ∧ ((∀ x ∈ s.au.table, x.key = key → x.id / 256 ≠ s.settings.nodeId.val) → exec cancel s = .next s'))
  ∧ ∀ (r : Alert) (s : State), Sole r s → r.id / 256 = s.settings.nodeId.val →
    (60000 ≤ r.minuteCount → r.duration ≤ 1 → ∃ t, exec (.alertExpired r.id) s = .next t ∧ AlertEnded r .expired s t)
    ∧ (r.minuteCount < 60000 ∨ 1 < r.duration → exec (.alertExpired r.id) s = .next s)
    ∧ let counted := { r with
        age := min 4294967295 (r.age + 1), sinceFrame := r.sinceFrame + 1
        phaseCount := r.phaseCount + (if r.state = AlertState.interval then 1 else 0) }
      (r.minuteCount + 1 < 60000 ∨ r.duration ≤ 1 → r.tick true = { counted with minuteCount := r.minuteCount + 1 })
      ∧ (60000 ≤ r.minuteCount + 1 → 1 < r.duration →
        r.tick true = { counted with minuteCount := 0, duration := r.duration - 1 })
      ∧ r.tick false = { r with age := min 4294967295 (r.age + 1), silence := min 1024 (r.silence + 1) }

/-- The receiver input (R135 to R138, R209): a BEGIN with a new key is admitted as an own-origin record, CAPTURING with the
lowest free capture clip or PENDING with NO_CAPTURE, in a full table in the place of the lowest-ranked record that is not
AIRING and ranks below it (R133), or with ALERT_DROPPED not at all; an END closes a capture; a message that fails a test, or is still
incomplete after 16 block starts, the first after its start byte counted as 1 (log entry 122), is counted. Without the ALERT role
the input is disregarded.
A capture's block start (R75, R138): the left side of the alert-audio slot, brought to 16 bits, is queued at the clip's
queued mark as far as the capacity goes; a block that reaches the capacity, and one for which the fill queue has no room,
closes the capture with TRUNCATED set, ALERT_CAPTURED posted and the seal taken. That messages are taken before the first block
start after configuration too is the model's (log entry 111). -/
def Obligations.ReceiverMessagesTaken : Prop :=
  (∀ (key : Word) (a : AlertClass) (duration : Half) (repeats : Byte) (s : State), s.cp.device = .running →
    s.settings.roles.site = false → s.settings.roles.alert = true → s.au.framer = .hunt → key ≠ 0 →
    let begin' : Instr := .receiverBegin
      (receiverFrame 1 (be32 key ++ [BitVec.ofNat 8 a.ctorIdx] ++ be16 duration ++ [repeats]))
    let s' : State := { s with au := { s.au with framerBlocks := 0 } }
    ((∃ r ∈ s.au.table, r.key = key) ∨ key ∈ s.au.recent → exec begin' s = .next s')
    ∧ ((∀ r ∈ s.au.table, r.key ≠ key) → key ∉ s.au.recent →
      (4 ≤ s.au.table.length → (∀ x ∈ s.au.table, x.state ≠ .airing →
          x.cls.ctorIdx < a.ctorIdx ∨ (x.cls = a ∧ 0 < x.age)) →
        exec begin' s = .next { s' with
          cp := s.cp.post ⟨.alertDropped, s.clock.blockCount, [key, word a.ctorIdx]⟩ })
      ∧ (s.au.table.length ≤ 4 → ∃ (q n : Byte) (r : Alert), let id := s.settings.nodeId.val * 256 + q.toNat
        alertOf s id = none ∧ (alertOf s (s.settings.nodeId.val * 256 + s.au.originSeq.toNat) = none → q = s.au.originSeq)
        ∧ (alertOf s (s.settings.nodeId.val * 256 + (q + 1).toNat) = none → n = q + 1) ∧ r.key = key ∧ r.id = id ∧ r.origin = .receiver ∧ r.cls = a
        ∧ r.duration = max 1 (min 1440 duration.toNat) ∧ r.minuteCount = 0 ∧ r.repeats = max 1 (min 8 repeats.toNat)
        ∧ r.remaining = r.repeats ∧ r.interval = s.settings.alertInterval ∧ r.age = 0 ∧ r.testWait = 0
        ∧ let taken (u : State) : Prop := ∃ cs : ClipStore,
            let t : State := { u with au := { u.au with originSeq := n }, cs := cs }
            exec begin' s = .next (if s.lu.state = .joined then queueControl (.alert (alertBody r none)) t else t)
            ∧ ((∀ c : Fin 256, 252 ≤ c.val → captureFree u c = false) →
              r.state = .pending ∧ r.noCapture = true ∧ r.clip = none ∧ cs = u.cs)
            ∧ (∀ c : Fin 256, 252 ≤ c.val → captureFree u c = true → (∀ d : Fin 256, 252 ≤ d.val → d < c →
              captureFree u d = false) → r.state = .capturing ∧ r.noCapture = false ∧ r.clip = some c
                ∧ cs = { u.cs with directory := u.cs.directory.put c { clipAt u c with
                  state := .filling, assigned := true, queued := 0, written := 0
                  length := (clipAt u c).capacity, sealPending := false } })
          (s.au.table.length < 4 → FrameRoom s → taken { s' with
            cp := s.cp.post ⟨.alertNew, s.clock.blockCount, [word id, key, word a.ctorIdx, word 0, word 1]⟩
            au := { s'.au with table := s.au.table ++ [r] } })
          ∧ ∀ x, s.au.table.length = 4 → Lowest x s → a.ctorIdx < x.cls.ctorIdx ∨ (x.cls = a ∧ x.age = 0 ∧ id < x.id) →
            FramesRoom s → ∃ u, GivesPlace x r s' u ∧ taken u)))
  ∧ (∀ (key : Word) (r : Alert) (c : Fin 256) (s : State), s.cp.device = .running →
    s.settings.roles.site = false → s.settings.roles.alert = true → s.au.framer = .hunt → key ≠ 0 → Sole r s →
    r.key = key → r.id / 256 = s.settings.nodeId.val →
    (∀ x ∈ s.au.table, x.key = key → x.id / 256 = s.settings.nodeId.val → x = r) → FrameRoom s →
    let close : Instr := .receiverEnd (receiverFrame 2 (be32 key))
    let s' : State := { s with au := { s.au with framerBlocks := 0 } }
    let d := clipAt s c
    let half := d.queued / 2
    (r.state ≠ .capturing → exec close s = .next s')
    ∧ (r.state = .capturing → r.clip = some c → ∃ t, exec close s = .next (alertChanged r
        { r with state := .pending, testWait := 0 } t)
      ∧ t = { s' with cp := t.cp, cs := { s.cs with directory := s.cs.directory.put c (clipAt t c) } }
      ∧ clipAt t c = (if d.written = half * bytesPerFrame d.format then
          { d with length := half, segue := half, state := .ready, sealPending := false }
        else { d with length := half, segue := half, sealPending := true })
      ∧ t.cp = (if d.written = half * bytesPerFrame d.format then
          s.cp.post ⟨.clipReady, s.clock.blockCount, [word c]⟩ else s.cp).post ⟨.alertCaptured, s.clock.blockCount,
        [word r.id, word c, word half, wordFlag r.truncated, wordFlag r.noCapture]⟩))
  ∧ (∀ (type length sum : Byte) (body : List Byte) (s : State), s.cp.device = .running →
    s.settings.roles.site = false → s.settings.roles.alert = true → s.au.framer = .hunt → body.length = length.toNat →
    (body.foldl (· + ·) (type + length + sum) ≠ 0 ∨ wordAt body 0 = 0
      ∨ (type.toNat, length.toNat) ∉ [(1, 8), (2, 4), (3, 4)] ∨ (type.toNat = 1 ∧ 3 < (byteAt body 4).toNat)) →
    let n := min 65535 (s.au.errors + 1)
    exec (.receiverBadMessage ([0x7E#8, type, length] ++ body ++ [sum])) s = .next { s with
      cp := if s.au.errorTold then s.cp else s.cp.post ⟨.receiverError, s.clock.blockCount, [word n]⟩
      au := { s.au with framerBlocks := 0, errors := n, errorTold := true } })
  ∧ (∀ s : State, (s.au.framer = .hunt → framerTick s = s)
    ∧ (s.au.framer ≠ .hunt → let n := min 65535 (s.au.errors + 1)
      (16 ≤ s.au.framerBlocks → exec .receiverTimeout s = .next { s with
        cp := if s.au.errorTold then s.cp else s.cp.post ⟨.receiverError, s.clock.blockCount, [word n]⟩
        au := { s.au with framer := .hunt, framerBlocks := 0, errors := n, errorTold := true } })
      ∧ (s.au.framerBlocks < 16 → exec .receiverTimeout s = .next s)
      ∧ exec .receiverTimeout { s with au := { s.au with framerBlocks := min 16 (s.au.framerBlocks + 1) } }
        = .next (framerTick s)))
  ∧ (∀ (input : BlockInput) (r : Alert) (c : Fin 256) (s : State), Sole r s → r.clip = some c → FrameRoom s →
    let d := clipAt s c
    let low (x : Int) : Half := BitVec.ofInt 16 (max (-32768) (min 32767 ((x + 128) / 256)))
    let bytes := ((tdmBlock input s.settings.alertAudioSlot).flatMap fun p =>
      [(low p.1).extractLsb' 0 8, (low p.1).extractLsb' 8 8]).take (2 * d.capacity - d.queued)
    let need := 1 + (bytes.length + 63) / 64
    let closed (length : Nat) (u : State) : State :=
      let e := { clipAt u c with length := length, segue := length }
      let full := e.written = length * bytesPerFrame e.format
      alertChanged r { r with state := .pending, testWait := 0, truncated := true } { u with
        cp := (if full then u.cp.post ⟨.clipReady, s.clock.blockCount, [word c]⟩ else u.cp).post
          ⟨.alertCaptured, s.clock.blockCount, [word r.id, word c, word length, wordFlag true, wordFlag r.noCapture]⟩
        cs := { u.cs with directory := u.cs.directory.put c (if full then
          { e with state := .ready, sealPending := false } else { e with sealPending := true }) } }
    (64 < s.cs.fill.length + need → captureTick input r.id s = closed (d.queued / 2) s)
    ∧ (s.cs.fill.length + need ≤ 64 → d.queued < 2 * d.capacity → 2 * d.capacity ≤ d.map.length * 1048576 →
      ∃ (u : State) (run : FillRun) (entries : List FillEntry),
        captureTick input r.id s = (if 2 * d.capacity ≤ d.queued + bytes.length then closed d.capacity u else u)
        ∧ u = { s with cs := { s.cs with
            fill := u.cs.fill, drain := u.cs.drain
            directory := s.cs.directory.put c { d with queued := d.queued + bytes.length } } }
        ∧ run.clip = c ∧ run.offset = d.queued ∧ run.count = bytes.length
        ∧ (∀ k, k < bytes.length → translate d.map (d.queued + k) = some (run.addressOf k))
        ∧ entries.length = (bytes.length + 63) / 64 ∧ (∀ e ∈ entries, e.clip = c ∧ e.bytes.length ≤ 64)
        ∧ (∀ e ∈ entries.dropLast, e.bytes.length = 64) ∧ entries.flatMap FillEntry.bytes = bytes
        ∧ (s.cs.fill = [] → u.cs.fill = entries ∧ u.cs.drain = some ⟨run, 0⟩)
        ∧ (writeWaits s = true → u.cs.fill = s.cs.fill ++ .address run :: entries ∧ u.cs.drain = s.cs.drain)))
  ∧ ∀ (bytes : List Byte) (i : Instr) (s : State), s.settings.roles.alert = false →
    i ∈ [.receiverBegin bytes, .receiverEnd bytes, .receiverCancel bytes, .receiverBadMessage bytes] →
    exec i s = .next s

/-- ALERT frames heard (R142 to R145): an unknown alert with a new key is admitted as a heard record with the frame's
items; a known one mirrors the frame; an ENDED frame removes its record and keeps the key for three of the reasons; a
recent key is disregarded; one that a full table does not admit is counted, and in a full table it may take the place of the
lowest-ranked record (R133). A heard record that holds the frame's alert id with another key is removed first; one that holds
its key with another alert id gives way to a lower origin. An own record with the frame's key ends DUPLICATE for a lower
origin, and is handed afresh for a higher one (R144). An own AIRING record yields to a higher-ranked AIRING one, whatever
becomes of the frame otherwise (R151); that the test follows the frame's other effects is the model's (log entry 77).
ALERT_FRAME_REFRESH hands an own record's frame afresh, and ALERT_SILENT_REMOVAL removes a silent heard record (its cause's
code is the model's, log entry 20). That a frame is
taken with a key, an alert id and a duration outside their ranges (log entry 94), and that one is admitted whose id names this
node (log entry 110), or disregarded where it names this node and an own record has its key (log entry 48), is the model's. The
block starts from the last frame to a refresh are counted from the one at which a node joins by marks on (log entry 119). -/
def Obligations.AlertFramesKeepHeardRecords : Prop :=
  (∀ (f : RxControl) (b : AlertBody) (s : State), s.lu.state ≠ .offline → s.lu.receiving = true →
    RxControl.passes f = true → f.kind = 2 → f.node ≠ s.settings.nodeId → parseAlert f.body = some b →
    let s' : State := { s with lu := { s.lu with receiving := false, gap := true } }
    let out := exec (.alertFrameReceived f) s
    let mirrors (r : Alert) : Prop := r.cls = b.cls ∧ r.state = b.state ∧ r.phase = b.phase ∧ r.repeats = b.repeats
      ∧ r.remaining = b.remaining ∧ r.duration = b.duration ∧ r.age = b.age ∧ r.message = b.message
      ∧ r.truncated = b.truncated ∧ r.noCapture = b.noCapture ∧ r.silence = 0
    let heard (r : Alert) : Prop := mirrors r ∧ r.id = b.id ∧ r.key = b.key ∧ r.origin = b.origin
    let quiet : Prop := b.state = .airing → ∀ x ∈ s.au.table, x.id / 256 = s.settings.nodeId.val → x.state ≠ .airing
    let admitted (r : Alert) (u : State) : State := { u with
      cp := u.cp.post ⟨.alertNew, s.clock.blockCount, [word b.id, b.key, word b.cls.ctorIdx, word b.origin.ctorIdx
        , wordFlag (b.id / 256 == s.settings.nodeId.val)]⟩
      au := { u.au with table := u.au.table ++ [r] } }
    (b.ended = true → (∀ r ∈ s.au.table, r.id ≠ b.id) → out = .next s')
    ∧ (∀ r, b.ended = true → Sole r s → r.id = b.id → r.id / 256 ≠ s.settings.nodeId.val →
      out = .next { s' with
        cp := s.cp.post ⟨.alertEnded, s.clock.blockCount, [word b.id, word (reasonCode b.reason)]⟩
        au := { s.au with
          table := s.au.table.filter fun x => x.id != b.id
          recent := if b.reason = some .complete ∨ b.reason = some .expired ∨ b.reason = some .cancelled then
            (s.au.recent ++ [r.key]).drop (s.au.recent.length + 1 - 8) else s.au.recent } })
    ∧ (∀ r, b.ended = false → Sole r s → r.id = b.id → r.id / 256 ≠ s.settings.nodeId.val → r.key = b.key →
      quiet →
      ∃ (r' : Alert) (t : State), out = .next t ∧ mirrors r' ∧ r'.id = r.id ∧ r'.key = r.key ∧ r'.origin = r.origin
        ∧ t = { s' with
            cp := t.cp
            au := { s.au with table := s.au.table.map fun x => if x.id = b.id then r' else x }
            pu := t.pu
            me := { s.me with playerEnvelope := t.me.playerEnvelope } }
        ∧ (b.state ≠ .airing ∨ r.state = .airing → t.cp = s.cp ∧ t.pu = s.pu ∧ t.me = s.me)
        ∧ (b.state = .airing → r.state ≠ .airing →
          Posted (s.cp.post ⟨.alertAiring, s.clock.blockCount, [word b.id]⟩) t.cp
          ∧ (s.settings.roles.playout = false → t.pu = s.pu ∧ t.me = s.me
            ∧ t.cp = s.cp.post ⟨.alertAiring, s.clock.blockCount, [word b.id]⟩)))
    ∧ (b.ended = false → (∀ r ∈ s.au.table, r.id ≠ b.id) → b.key ∈ s.au.recent → quiet → out = .next s')
    ∧ (b.ended = false → (∀ r ∈ s.au.table, r.id ≠ b.id ∧ r.key ≠ b.key) → b.key ∉ s.au.recent → b.state ≠ .airing →
      (s.au.table.length < 4 → ∃ r, heard r ∧ out = .next (admitted r s'))
      ∧ (4 ≤ s.au.table.length → (∀ x ∈ s.au.table, x.state = .airing ∨ x.cls.ctorIdx < b.cls.ctorIdx
          ∨ (x.cls = b.cls ∧ (b.age < x.age ∨ (b.age = x.age ∧ x.id < b.id)))) →
        out = .next { s' with au := { s.au with heardDropped := min 65535 (s.au.heardDropped + 1) } })
      ∧ ∀ x, 4 ≤ s.au.table.length → Lowest x s → b.cls.ctorIdx < x.cls.ctorIdx
          ∨ (x.cls = b.cls ∧ (x.age < b.age ∨ (x.age = b.age ∧ b.id < x.id))) →
        ∃ (r : Alert) (t : State), heard r ∧ GivesPlace x r s' t ∧ out = .next t)
    ∧ (∀ h, b.ended = false → Sole h s → h.id = b.id → h.id / 256 ≠ s.settings.nodeId.val → h.key ≠ b.key →
      let left : State := { s' with au := { s.au with table := s.au.table.filter fun x => x.id != b.id } }
      (b.key ∈ s.au.recent → quiet → out = .next left)
      ∧ (b.key ∉ s.au.recent → (∀ x ∈ s.au.table, x.key ≠ b.key) → left.au.table.length < 4 → b.state ≠ .airing →
        ∃ r, heard r ∧ out = .next (admitted r left)))
    ∧ (∀ h, b.ended = false → (∀ x ∈ s.au.table, x.id ≠ b.id) → b.key ∉ s.au.recent → Sole h s → h.key = b.key →
      (∀ x ∈ s.au.table, x.key = b.key → x = h) →
      (h.id / 256 ≠ s.settings.nodeId.val → h.id / 256 ≤ b.id / 256 → quiet → out = .next s')
      ∧ (h.id / 256 ≠ s.settings.nodeId.val → b.id / 256 < h.id / 256 → b.state ≠ .airing →
        let left : State := { s' with au := { s.au with table := s.au.table.filter fun x => x.id != h.id } }
        left.au.table.length < 4 → ∃ r, heard r ∧ out = .next (admitted r left))
      ∧ (h.id / 256 = s.settings.nodeId.val → FrameRoom s →
        (s.settings.nodeId.val < b.id / 256 → quiet → out = .next (alertChanged h h s'))
        ∧ (b.id / 256 = s.settings.nodeId.val → quiet → out = .next s')
        ∧ (b.id / 256 < s.settings.nodeId.val → b.state ≠ .airing → s.au.table.length ≤ 4 →
          ∃ (r : Alert) (u : State), heard r ∧ AlertEnded h .duplicate s' u ∧ out = .next (admitted r u))))
    ∧ (∀ r, b.ended = false → b.state = .airing → Sole r s → r.id / 256 = s.settings.nodeId.val → r.state = .airing →
      (∀ x ∈ s.au.table, x.id / 256 = s.settings.nodeId.val → x.state = .airing → x = r) → FrameRoom s →
      let higher : Prop := b.cls.ctorIdx < r.cls.ctorIdx
        ∨ (b.cls = r.cls ∧ (r.age < b.age ∨ (r.age = b.age ∧ b.id < r.id)))
      let aired (u : State) : State := { u with cp := u.cp.post ⟨.alertAiring, s.clock.blockCount, [word b.id]⟩ }
      let yields (u : State) : Prop := (¬ higher → out = .next u) ∧ (higher → ∃ v, AiringCut r.id u v
        ∧ out = .next { alertChanged r { r with state := .pending, testWait := 0 } v with
          cp := u.cp.post ⟨.alertYielded, s.clock.blockCount, [word r.id, word b.id]⟩ })
      (∀ h, Sole h s → h.id = b.id → h.id / 256 ≠ s.settings.nodeId.val → h.key = b.key →
        ∃ h' : Alert, mirrors h' ∧ h'.id = h.id ∧ h'.key = h.key ∧ h'.origin = h.origin ∧
          let u : State := { s' with au := { s.au with table := s.au.table.map fun x => if x.id = b.id then h' else x } }
          yields (if h.state = .airing then u else aired u))
      ∧ ((∀ x ∈ s.au.table, x.id ≠ b.id ∧ x.key ≠ b.key) → b.key ∉ s.au.recent → s.au.table.length < 4 →
        ∃ h, heard h ∧ yields (aired (admitted h s')))
      ∧ ((∀ x ∈ s.au.table, x.id ≠ b.id ∧ x.key ≠ b.key) → b.key ∉ s.au.recent → 4 ≤ s.au.table.length →
        (∀ x ∈ s.au.table, x.state = .airing ∨ x.cls.ctorIdx < b.cls.ctorIdx
          ∨ (x.cls = b.cls ∧ (b.age < x.age ∨ (b.age = x.age ∧ x.id < b.id)))) →
        yields { s' with au := { s.au with heardDropped := min 65535 (s.au.heardDropped + 1) } })
      ∧ ((∀ x ∈ s.au.table, x.id ≠ b.id) → b.key ∈ s.au.recent → yields s')
      ∧ (∀ h, (∀ x ∈ s.au.table, x.id ≠ b.id) → b.key ∉ s.au.recent → Sole h s → h.key = b.key →
        (∀ x ∈ s.au.table, x.key = b.key → x = h) →
        (h.id / 256 ≠ s.settings.nodeId.val → h.id / 256 ≤ b.id / 256 → yields s')
        ∧ (h.id / 256 = s.settings.nodeId.val → b.id / 256 = s.settings.nodeId.val → yields s')
        ∧ (h.id / 256 = s.settings.nodeId.val → s.settings.nodeId.val < b.id / 256 → FramesRoom s →
          yields (alertChanged h h s')))
      ∧ ∀ h, Sole h s → h.id = b.id → h.id / 256 ≠ s.settings.nodeId.val → h.key ≠ b.key →
        let left : State := { s' with au := { s.au with table := s.au.table.filter fun x => x.id != b.id } }
        (b.key ∈ s.au.recent → yields left)
        ∧ (b.key ∉ s.au.recent → (∀ x ∈ s.au.table, x.key ≠ b.key) → left.au.table.length < 4 →
          ∃ g, heard g ∧ yields (aired (admitted g left)))))
  ∧ ∀ (r : Alert) (s : State), Sole r s →
    (r.id / 256 = s.settings.nodeId.val → FrameRoom s →
      (s.lu.state = .joined → 256 ≤ r.sinceFrame → exec (.alertFrameRefresh r.id) s = .next (alertChanged r r s))
      ∧ (s.lu.state ≠ .joined ∨ r.sinceFrame < 256 → exec (.alertFrameRefresh r.id) s = .next s))
    ∧ (r.id / 256 ≠ s.settings.nodeId.val →
      (1024 ≤ r.silence → exec (.alertSilentRemoval r.id) s = .next { s with
        cp := s.cp.post ⟨.alertEnded, s.clock.blockCount, [word r.id, word 6]⟩
        au := { s.au with table := s.au.table.filter fun x => x.id != r.id } })
      ∧ (r.silence < 1024 → exec (.alertSilentRemoval r.id) s = .next s))

/-- The airing of an own record (R132, R146 to R150): ALERT_START takes the highest-ranked own PENDING record where nothing
stands in its way, by class, then age, then the lower id; a TEST record that the LIVE tier alone holds back counts its wait at
each block start; ATTENTION_END brings GAP and the message clip, GAP_END brings MESSAGE or completes the airing, INTERVAL_END makes
the record PENDING again; a cut stops the player at once or begins its fade, and its END block gives everything back. That the ENDED frame of an airing that completes
carries 1 as its remaining repeats is the model's (log entry 21).
The alert player's block (R147, R148, R150): none while IDLE; the voice's samples in ATTENTION, zeros in GAP and the
clip's next 48 frames in MESSAGE, each under the alert envelope; END on the 500th zero block without a clip, on the block
with the clip's last frame and on the block that ends a cut. Each block of ATTENTION and GAP counts before the phase may
end; a block of MESSAGE takes its frames, tells the first underrun of the airing, and with the clip's last frame completes
the airing: INTERVAL with one repeat fewer, or ENDED with COMPLETE (R149). That a block short of frames plays those it has
rests on log entry 57; what an IDLE player holds is the model's (log entry 85), and so is that ALERT_UNDERRUN tells the position
before the block (log entry 118). -/
def Obligations.AiringRunsThroughItsPhases : Prop :=
  let runsOut (c : Fin 256) (s : State) : Prop := (clipAt s c).length ≤ s.au.player.position + 48
    ∨ (s.au.player.fetchedAll = true ∧ s.au.player.buffer.length ≤ 48)
  let played (c : Fin 256) (s : State) : State :=
    let x := s.au.player
    let position := min (clipAt s c).length (x.position + 48)
    let short := x.buffer.length < 48 && !x.fetchedAll && decide (x.fetchPosition < (clipAt s c).length)
    { s with
      cp := if short && !x.underrunTold then
          s.cp.post ⟨.alertUnderrun, s.clock.blockCount, [word (x.alert.getD 0), word x.position]⟩ else s.cp
      au := { s.au with player := { x with
        buffer := x.buffer.drop 48
        position := position
        fetchPosition := if short then max x.fetchPosition position else x.fetchPosition
        underruns := if short then min 65535 (x.underruns + 1) else x.underruns
        underrunTold := x.underrunTold || short
        handed := true } } }
  (∀ a b : Alert, a.above b = true ↔ a.cls.ctorIdx < b.cls.ctorIdx
    ∨ (a.cls = b.cls ∧ (b.age < a.age ∨ (a.age = b.age ∧ a.id < b.id))))
  ∧ (∀ s : State, (candidate s = none ↔ ∀ x ∈ s.au.table, x.id / 256 = s.settings.nodeId.val → x.state ≠ .pending)
    ∧ (candidate s = none → exec .alertStart s = .next s ∧ startTick s = s))
  ∧ (∀ (r : Alert) (s : State), candidate s = some r → (∀ x ∈ s.au.table, x.id = r.id → x = r) →
    let waits : Prop := (∀ x ∈ s.au.table, x.state ≠ .airing) ∧ s.cu.inForce = some .live ∧ s.au.player.state = .idle
      ∧ r.cls = .test ∧ r.testWait < 900000
    (waits → startTick s = { s with au := { s.au with
      table := s.au.table.map fun x => if x.id = r.id then { r with testWait := r.testWait + 1 } else x } })
    ∧ (¬ waits → exec .alertStart s = .next (withHold .alertAiring startTick s)))
  ∧ (∀ (id : Nat) (s : State), AiringCut id s (cutAiring id s))
  ∧ (∀ (r : Alert) (s : State), candidate s = some r → (∀ x ∈ s.au.table, x.id = r.id → x = r) → FrameRoom s →
    (r ∈ s.au.table ∧ r.id / 256 = s.settings.nodeId.val ∧ r.state = .pending
      ∧ ∀ x ∈ s.au.table, x.id / 256 = s.settings.nodeId.val → x.state = .pending → x.above r = false)
    ∧ ((∃ x ∈ s.au.table, x.state = .airing) ∨ s.cu.inForce = some .alert ∨ s.au.player.state ≠ .idle
        ∨ (r.cls = .test ∧ s.cu.inForce = some .live ∧ r.testWait < 900000) → exec .alertStart s = .next s)
    ∧ ((∀ x ∈ s.au.table, x.state ≠ .airing) → s.cu.inForce ≠ some .alert → s.au.player.state = .idle →
      (r.cls = .test → s.cu.inForce = some .live → 900000 ≤ r.testWait) → ∃ u t, exec .alertStart s = .next t
      ∧ u = alertChanged r { r with state := .airing, phase := .attention, phaseCount := 0 } { s with
          au := { s.au with player := { AlertPlayer.reset with
            state := .tone, alert := some r.id, underruns := s.au.player.underruns } }
          tg := { s.tg with voices := s.tg.voices.put 0 (grantedVoice .alertUnit true s.settings.attentionF1
            s.settings.attentionF2 s.settings.attentionLevel) }
          me := { s.me with alertEnvelope := s.me.alertEnvelope.giveEnvelope 4096 0 } }
      ∧ t = { u with cp := t.cp, pu := t.pu, me := { u.me with playerEnvelope := t.me.playerEnvelope } }
      ∧ Posted (s.cp.post ⟨.alertAiring, s.clock.blockCount, [word r.id]⟩) t.cp
      ∧ (s.settings.roles.playout = false → t.pu = s.pu ∧ t.me = u.me
        ∧ t.cp = s.cp.post ⟨.alertAiring, s.clock.blockCount, [word r.id]⟩)))
  ∧ (∀ (r : Alert) (s : State), let x := s.au.player
    Sole r s → x.alert = some r.id → r.state = .airing → FrameRoom s →
    (x.state = .tone → r.phase = .attention →
      (s.settings.attentionLength ≤ r.phaseCount → exec .attentionEnd s = .next (alertChanged r
        { r with phase := .gap, phaseCount := 0 } { s with
          cs := { s.cs with asked := 0 }
          au := { s.au with player := { x with
            state := .silent, position := 0, fetchPosition := 0, buffer := []
            clip := match r.clip with
              | none => none
              | some c => if 0 < (clipAt s c).length then some c else none } }
          tg := { s.tg with voices := s.tg.voices.put 0 (Tab.at s.tg.voices 0).release } }))
      ∧ (r.phaseCount < s.settings.attentionLength → exec .attentionEnd s = .next s))
    ∧ (x.state = .silent → r.phase = .gap → (r.phaseCount < 500 → exec .gapEnd s = .next s)
      ∧ (500 ≤ r.phaseCount →
        (∀ c, x.clip = some c → exec .gapEnd s = .next (alertChanged r { r with phase := .message } { s with
          au := { s.au with player := { x with state := .message } }
          me := { s.me with alertEnvelope := s.me.alertEnvelope.giveEnvelope 4096 0 } }))
        ∧ (x.clip = none → ∃ u, u = { s with
            au := { s.au with player := { AlertPlayer.reset with underruns := x.underruns } }
            cs := { s.cs with port := u.cs.port, waiting := u.cs.waiting, asked := 0 }
            tg := { s.tg with voices := u.tg.voices } }
          ∧ (Tab.at u.tg.voices 0).holder ≠ some .alertUnit
          ∧ (1 < r.remaining → exec .gapEnd s = .next (alertChanged r
            { r with remaining := r.remaining - 1, state := .interval, phaseCount := 0 } u))
          ∧ (r.remaining ≤ 1 → ∃ t, exec .gapEnd s = .next t ∧ AlertEnded r .complete u t)))))
  ∧ (∀ (r : Alert) (s : State), Sole r s → r.id / 256 = s.settings.nodeId.val → r.state = .interval → FrameRoom s →
    (r.interval ≤ r.phaseCount →
      exec (.intervalEnd r.id) s = .next (alertChanged r { r with state := .pending, testWait := 0 } s))
    ∧ (r.phaseCount < r.interval → exec (.intervalEnd r.id) s = .next s))
  ∧ (∀ s : State, let x := s.au.player
    let h := if x.state = .fading then x.cutFrom else x.state
    let ends := x.state = .fading ∧ s.me.alertEnvelope.length ≤ s.me.alertEnvelope.position + 1
    (x.state = .idle → produceAlert s = (s, none))
    ∧ (x.state ≠ .idle → ∃ b, (produceAlert s).2 = some b
      ∧ b.air = true ∧ b.cue = false ∧ b.tier = .alert ∧ b.tag = BitVec.ofNat 16 (x.alert.getD 0) ∧ b.lineUp = false
      ∧ (h = .tone → b.mono = true ∧ b.samples = applyRamp s.me.alertEnvelope (voiceBlock 0 s)
        ∧ (b.last = true ↔ ends))
      ∧ (h = .silent → b.mono = true ∧ b.samples = silence ∧ (x.state = .fading → (b.last = true ↔ ends)))
      ∧ (∀ r, x.state = .silent → Sole r s → x.alert = some r.id → r.state = .airing →
        (b.last = true ↔ x.clip = none ∧ 500 ≤ r.phaseCount + 1))
      ∧ (∀ c, h = .message → x.clip = some c → b.mono = isMono (clipAt s c).format
        ∧ b.samples = applyRamp s.me.alertEnvelope (block48 (x.buffer.take 48))
        ∧ (b.last = true ↔ runsOut c s ∨ ends))))
  ∧ (∀ (r : Alert) (s : State), let x := s.au.player
    let counted : State := { s with au := { s.au with
      table := s.au.table.map fun a => if a.id = r.id then { r with phaseCount := r.phaseCount + 1 } else a
      player := { x with handed := true } } }
    Sole r s → x.alert = some r.id → r.state = .airing →
    (x.state = .tone → exec .attentionEnd counted = .next (produceAlert s).1)
    ∧ (x.state = .silent → exec .gapEnd counted = .next (produceAlert s).1)
    ∧ (∀ c, x.state = .message → x.clip = some c → r.clip = some c → FrameRoom s →
      let t := (produceAlert s).1
      let d := clipAt s c
      (¬ runsOut c s → t = played c s)
      ∧ (runsOut c s → ∃ u, u = { played c s with
          au := { s.au with player := { AlertPlayer.reset with underruns := (played c s).au.player.underruns } }
          cs := { s.cs with port := u.cs.port, waiting := u.cs.waiting, asked := 0 }
          tg := { s.tg with voices := u.tg.voices } }
        ∧ (Tab.at u.tg.voices 0).holder ≠ some .alertUnit
        ∧ (1 < r.remaining → t = alertChanged r
          { r with remaining := r.remaining - 1, state := .interval, phaseCount := 0 } u)
        ∧ (r.remaining ≤ 1 → AlertEnded r .complete u t ∧ t.au.player = u.au.player
          ∧ (252 ≤ c.val → clipAt t c = { Clip.empty with map := d.map, capacity := d.capacity, length := d.capacity })
          ∧ (c.val < 252 → (∃ a ∈ s.au.table, a.id ≠ r.id ∧ a.clip = some c) → t.cs.directory = s.cs.directory)
          ∧ (c.val < 252 → (∀ a ∈ s.au.table, a.id ≠ r.id → a.clip ≠ some c) →
            t.cs.directory = s.cs.directory.put c { d with assigned := false })))))
  ∧ ∀ s : State, let x := s.au.player
    let out : Prop := s.me.alertEnvelope.atRest = true ∨ (x.cutFrom = .message ∧ ∃ c, x.clip = some c
      ∧ ((clipAt s c).length ≤ x.position ∨ (x.fetchedAll = true ∧ x.buffer = [])))
    x.state = .fading →
    (x.cutFrom ≠ .message → (produceAlert s).1 = { s with au := { s.au with player := { x with handed := true } } })
    ∧ (∀ c, x.cutFrom = .message → x.clip = some c → (produceAlert s).1 = played c s)
    ∧ (out → ∃ t, exec .alertFadeComplete s = .next t
      ∧ t = { s with
          au := { s.au with player := { AlertPlayer.reset with underruns := x.underruns } }
          cs := t.cs
          tg := { s.tg with voices := t.tg.voices } }
      ∧ (Tab.at t.tg.voices 0).holder ≠ some .alertUnit ∧ (∀ v, v ≠ 0 → Tab.at t.tg.voices v = Tab.at s.tg.voices v)
      ∧ (x.clip = none → t.cs.directory = s.cs.directory)
      ∧ (∀ c, x.clip = some c → c.val < 252 ∨ (∃ r ∈ s.au.table, r.clip = some c) →
        t.cs.directory = s.cs.directory ∧ t.cs.fill = s.cs.fill)
      ∧ (∀ c, x.clip = some c → 252 ≤ c.val → (∀ r ∈ s.au.table, r.clip ≠ some c) → clipAt t c = { Clip.empty with
          map := (clipAt s c).map, capacity := (clipAt s c).capacity, length := (clipAt s c).capacity }))
    ∧ (¬ out → (x.cutFrom = .message → x.clip ≠ none) → exec .alertFadeComplete s = .next s)

/-- READ ALERTS (R156): the records in rank order, the recent keys, the player, the holder of voice 0 and the two counts;
the UNDERRUN count, both counts and the reported flag are then cleared. The layout of a record's words is the model's (log
entry 22), and so is the holder's word (log entry 19).
READ LINK (R182): by role, the XU's state, at a SITE node with the alert list in rank order; every count that saturates at
65,535 and the filler player's UNDERRUN count are then 0; NOT_ROLE at a node with neither role. The layout of the words is
the model's (log entry 26). So are the words of fields that a record does not keep (log entry 78), of levels (log entry 75)
and of the locking origin (log entry 96). -/
def Obligations.ReadAlertsAndReadLink : Prop :=
  (∀ (m : CommandMessage) (s : State), Running s .readAlerts m →
     (s.settings.roles.site = true → exec .readAlerts s = .next (answer m .notRole [] s))
     ∧ (s.settings.roles.site = false → let l := ranked s.au.table
       let holder : Word := match (Tab.at s.tg.voices 0).holder with
         | none => wordNone
         | some .alertUnit => word 0
         | some (.line l) => word (l.val + 1)
         | some .lineUp => word 4
       l.Perm s.au.table ∧ l.Pairwise (fun a b => b.above a = false)
       ∧ exec .readAlerts s = .next (answer m .ok
         ((word s.au.table.length :: l.flatMap fun a =>
           [a.key, word a.id, word a.origin.ctorIdx, word a.cls.ctorIdx, word a.duration, word a.minuteCount
            , word a.repeats, word a.remaining, word a.interval, wordOpt (a.clip.map Fin.val)
            , wordFlag (a.clip.isSome || a.message), word a.state.ctorIdx, word a.phase.ctorIdx, word a.phaseCount
            , word a.age, wordFlag a.truncated, wordFlag a.noCapture, wordFlag a.confirmed, word a.testWait
            , word a.silence, wordFlag (a.id / 256 == s.settings.nodeId.val)])
           ++ (word s.au.recent.length :: s.au.recent)
           ++ [word s.au.player.state.ctorIdx, wordOpt s.au.player.alert, wordOpt (s.au.player.clip.map Fin.val)
               , word s.au.player.position, word s.au.player.underruns, holder
               , word s.au.errors, word s.au.heardDropped])
         { s with au := { s.au with
           errors := 0, errorTold := false, heardDropped := 0, player := { s.au.player with underruns := 0 } } })))
  ∧ (∀ (m : CommandMessage) (s : State), Running s .readLink m →
       (s.settings.roles.site = false → s.settings.roles.link = false →
         exec .readLink s = .next (answer m .notRole [] s))
       ∧ (s.settings.roles.site = false → s.settings.roles.link = true → let x := s.link
         exec .readLink s = .next (answer m .ok
           ([word x.state.ctorIdx, word x.history.length] ++ x.history.map (fun o => word o.ctorIdx)
             ++ [word x.validRun, word x.missingRun, word x.backWait, word x.reportState.ctorIdx, word x.reportDepth
                 , wordInt x.reportTrim, word x.reportPeak]
             ++ x.status.toList.map wordName ++ x.changed.toList.map wordFlag ++ [wordOpt x.echo]
             ++ x.outputs.toList.map word
             ++ [word x.forwardCount.toNat, word x.filler.state.ctorIdx, word x.filler.gain.current
                 , word x.filler.underruns, word x.fillerDelay, word x.forwardErrors, word x.backErrors])
           { s with link := { x with
             forwardErrors := 0, backErrors := 0, filler := { x.filler with underruns := 0 } } }))
       ∧ (s.settings.roles.site = true → let x := s.site
         let l := x.alerts.foldr rankSite []
         l.Perm x.alerts ∧ l.Pairwise (fun a b => b.above a = false)
         ∧ exec .readLink s = .next (answer m .ok
           ([word x.state.ctorIdx, word x.lockingOrigin.ctorIdx, word x.expected.toNat, word x.gapWait, word x.lossRun
             , word x.validRun, word x.buffer.length, wordInt x.trim, wordOpt x.reportAlert
             , wordOpt (x.reportClass.map AlertClass.ctorIdx), wordFlag x.reportFiller, wordFlag x.reportLineUp]
             ++ x.levels.toList.map word ++ x.status.toList.map (fun f => wordName f.level)
             ++ (word x.alerts.length :: l.flatMap fun r =>
               [r.key, word r.cls.ctorIdx, word r.duration, word r.minuteCount, word r.age, wordFlag r.aired])
             ++ (word x.recent.length :: x.recent)
             ++ (word x.relay.length :: x.relay.flatMap fun e =>
               [word e.kind.ctorIdx, e.key, word e.cls.ctorIdx, word e.sends])
             ++ [word x.player.state.ctorIdx, word x.filler.state.ctorIdx, word x.filler.gain.current
                 , word x.filler.envelope.current, word x.filler.underruns, word x.underruns, word x.overflows
                 , word x.lates, word x.breaks, word x.slips, word x.forwardCrcTotal, word x.errors])
           { s with site := { x with
             underruns := 0, overflows := 0, lates := 0, breaks := 0, slips := 0, forwardCrcTotal := 0, errors := 0
             errorTold := false, filler := { x.filler with underruns := 0 } } })))

/-! ## The transmitter link -/

/-- REMOTE OUTPUT at a LINK node and SET_REMOTE_OUTPUT REQUESTs (R163, R164): the level, clamped to 255, is set with its
notice, posted at every setting, one that leaves the level as it was too (the model's, log entry 37; HOST's word in it is
the model's, log entry 19); a request for another node or outside JOINED is discarded, one
without the role or with another output is answered REFUSED_ROLE, and any other ACCEPTED with the level after. -/
def Obligations.RemoteOutputsAreSet : Prop :=
  let set (o : Fin 4) (v : Nat) (source : Word) (s : State) : State := { s with
    cp := s.cp.post ⟨.remoteOutputSet, s.clock.blockCount, [word (o.val + 1), word (min 255 v), source]⟩
    link := { s.link with outputs := s.link.outputs.put o (min 255 v) } }
  (∀ (output level : Word) (o : Fin 4) (m : CommandMessage) (s : State), Running s (.remoteOutput output level) m →
    s.settings.roles.site = false → s.settings.roles.link = true → output.toNat = o.val + 1 →
    exec (.remoteOutput output level) s
      = .next (answer m .ok [word (min 255 level.toNat)] (set o level.toNat wordNone s)))
  ∧ ∀ (f : RxControl) (b : RequestBody) (s : State), s.lu.state ≠ .offline → s.lu.receiving = true →
    RxControl.passes f = true → f.kind = 3 → f.node ≠ s.settings.nodeId → parseRequest f.body = some b →
    b.verb = .setRemoteOutput →
    let s' : State := { s with lu := { s.lu with receiving := false, gap := true } }
    let reply (o : Answer) (after : Nat) : ControlBody := .answer ⟨f.node, b.tag, o, b.item, after⟩
    let out := exec (.setRemoteOutputReceived f) s
    (b.target ≠ s.settings.nodeId.val ∨ s.lu.state ≠ .joined → out = .next s')
    ∧ (b.target = s.settings.nodeId.val → s.lu.state = .joined → s.tx.control.length < 8 →
      (b.item = 0 ∨ 4 < b.item → ∃ w, out = .next (queueControl (reply .refusedRole w) s'))
      ∧ ∀ o : Fin 4, b.item = o.val + 1 →
        (s.settings.roles.link = false →
          out = .next (queueControl (reply .refusedRole (Tab.at s.link.outputs o)) s'))
        ∧ (s.settings.roles.link = true → out = .next (queueControl (reply .accepted (min 255 b.argument))
          (set o b.argument (word f.node) s'))))

/-- BACK_FRAME_RECEIVED (R158 to R162, R208): a receiver that hunts passes over what is not the marker A5h, 5Ah; a frame of
another length than a back frame's is counted at its length, an unreadable one when it is collected, and a repeat is
disregarded; any other is taken: the
back history and the link state move, the site report, Site Status record and echo take the frame's values, an own record
whose id is echoed is confirmed (R154), and a site BEGIN brings a SITE record, PENDING (R141).
LINK_STATE, SITE_STATE and SITE_STATUS tell what has changed, in this order, and ALERT_CONFIRMED the first echo of a record.
BACK_FRAME_MISSING (R159, R160): the wait counts block starts while the link is not DOWN, to 6; a MISSING outcome is then
recorded and the wait goes to 2; the 16th in a row takes the link DOWN, and the fourth of the history takes UP to DEGRADED.
The words of SITE_STATUS are the model's (log entry 64), and so is that a row carries bytes of the stream (log entry 67) and
that an echo above 2,047 is taken as given (log entry 113), and a site BEGIN with key 0 too (log entry 120). -/
def Obligations.BackFramesAndLinkState : Prop :=
  (∀ (noise bytes : List Byte) (s : State), s.cp.device = .running → s.settings.roles.site = false →
     s.settings.roles.link = true → s.link.stream = .hunt → (∀ b ∈ noise, b ≠ 0xA5#8) →
     let received (l : List Byte) := exec (.backFrameReceived (noise ++ 0xA5#8 :: 0x5A#8 :: l)) s
     let out := received bytes
     let x := s.link
     let counted : State := { s with link := { x with backErrors := min 65535 (x.backErrors + 1) } }
     (∀ a b : Byte, (a ++ b).toNat ≠ 25 → received [a, b] = .next counted)
     ∧ (bytes.length = 27 → halfAt bytes 0 = 25 → parseBack bytes = none → out = .next counted)
     ∧ ∀ f, parseBack bytes = some f →
       (x.lastSiteCount = some f.count → out = .next s)
       ∧ (x.lastSiteCount ≠ some f.count → ∃ t, out = .next t
         ∧ t.link = { x with
             lastSiteCount := some f.count
             backWait := 0
             history := if x.state = .down then [BackOutcome.valid] else
               (x.history ++ [BackOutcome.valid]).drop (x.history.length + 1 - 32)
             validRun := if x.state = .down then 1 else min 32 (x.validRun + 1)
             missingRun := 0
             state := if x.state = .down then .acquiring
               else if (x.state = .acquiring ∧ 8 ≤ min 32 (x.validRun + 1))
                 ∨ (x.state = .degraded ∧ 32 ≤ x.validRun + 1) then .up else x.state
             forwardErrors := min 65535 (x.forwardErrors + f.crcCount)
             reportState := f.state
             reportDepth := f.depth
             reportTrim := f.trim
             reportPeak := f.peak
             status := f.levels
             changed := if x.status = f.levels then x.changed
               else Vector.ofFn fun i => Tab.at f.levels i != Tab.at x.status i
             echo := f.echo }
         ∧ t = { s with
             cp := t.cp
             link := t.link
             au := t.au
             tx := t.tx
             ku := { s.ku with requests := t.ku.requests }
             cs := t.cs
             me := { s.me with alertEnvelope := t.me.alertEnvelope }
             tg := { s.tg with voices := t.tg.voices } }
         ∧ (let bits (v : Tab Bool 8) : Word := word ((List.finRange 8).map fun i => if Tab.at v i then 2 ^ i.val else 0).sum
           let note (k : NoticeKind) (items : List Word) (cp : ControlPort) : ControlPort :=
             cp.post ⟨k, s.clock.blockCount, items⟩
           let linked := if t.link.state = x.state then s.cp else
             note .linkState [word x.state.ctorIdx, word t.link.state.ctorIdx, s.clock.blockCount] s.cp
           let sited := if f.state = x.reportState then linked else
             note .siteState [word x.reportState.ctorIdx, word f.state.ctorIdx] linked
           let told := if x.status = f.levels then sited else
             note .siteStatus [bits f.levels, bits t.link.changed] sited
           Posted told t.cp
           ∧ (f.event = none → (∀ r ∈ s.au.table, f.echo = some r.id →
               r.id / 256 ≠ s.settings.nodeId.val ∨ r.confirmed = true) →
             t.au = s.au ∧ t.tx = s.tx ∧ t.cs = s.cs ∧ t.me = s.me ∧ t.tg = s.tg ∧ t.ku = s.ku ∧ t.cp = told)
           ∧ ∀ r, Sole r s → r.id / 256 = s.settings.nodeId.val → f.echo = some r.id → r.confirmed = false →
             Posted (note .alertConfirmed [word r.id] told) t.cp
             ∧ (f.event = none → t.cp = note .alertConfirmed [word r.id] told ∧ t.au = { s.au with
               table := s.au.table.map fun a => if a.id = r.id then { r with confirmed := true } else a }))
         ∧ (∀ e : BackEvent, f.event = some e → e.kind = 1 → (∀ r ∈ s.au.table, r.key ≠ e.key) →
           e.key ∉ s.au.recent → s.au.table.length < 4 → ∃ r ∈ t.au.table, r.key = e.key ∧ r.cls = e.cls
             ∧ r.origin = .site ∧ r.state = .pending ∧ r.duration = s.settings.defaultDuration ∧ r.repeats = 1
             ∧ r.remaining = 1 ∧ r.id / 256 = s.settings.nodeId.val
             ∧ ∀ c, s.settings.siteAlertClip = some c → r.clip = if (clipAt s c).state = .empty then none else some c)
         ∧ (∀ (e : BackEvent) (r : Alert), f.event = some e → e.kind = 3 → Sole r s → r.key = e.key →
           r.id / 256 = s.settings.nodeId.val →
           (∀ y ∈ s.au.table, y.key = e.key → y.id / 256 = s.settings.nodeId.val → y = r) →
           (r.origin = .site → ∀ y ∈ t.au.table, y.id ≠ r.id)
           ∧ (r.origin ≠ .site → ∃ y ∈ t.au.table, y.id = r.id))
         ∧ (∀ e : BackEvent, f.event = some e → e.kind = 2 → (∀ r ∈ s.au.table, f.echo ≠ some r.id) → t.au = s.au)))
  ∧ (∀ s : State, s.cp.device = .running → s.settings.roles.site = false → s.settings.roles.link = true →
       let x := s.link
       let history := (x.history ++ [BackOutcome.missing]).drop (x.history.length + 1 - 32)
       let run := min 16 (x.missingRun + 1)
       let y := { x with backWait := 2, history := history, validRun := 0, missingRun := run }
       let told (new : LinkState) : ControlPort := s.cp.post ⟨.linkState, s.clock.blockCount,
         [word x.state.ctorIdx, word new.ctorIdx, s.clock.blockCount]⟩
       (x.state = .down → backTick s = s)
       ∧ (x.state ≠ .down → exec .backFrameMissing { s with link := { x with backWait := min 6 (x.backWait + 1) } }
         = .next (backTick s))
       ∧ (x.state = .down ∨ x.backWait < 6 → exec .backFrameMissing s = .next s)
       ∧ (x.state ≠ .down → 6 ≤ x.backWait →
         (run = 16 → exec .backFrameMissing s = .next { s with
           cp := told .down
           link := { y with
             state := .down, history := [], missingRun := 0, backWait := 0, lastSiteCount := none, echo := none } })
         ∧ (run < 16 → x.state = .up → 4 ≤ (history.filter fun o => o = .missing).length →
           exec .backFrameMissing s = .next { s with cp := told .degraded, link := { y with state := .degraded } })
         ∧ (run < 16 → x.state ≠ .up ∨ (history.filter fun o => o = .missing).length < 4 →
           exec .backFrameMissing s = .next { s with link := y })))

/-- The LINK node's filler (R165, R166): at each block start the delay count follows the silence monitor; with SILENT
clear a filler that fades in or is ON fades out over 16 blocks; at filler_delay it fades in over 16 blocks, with
FILLER_ON, and FILLER_MISSING before it (the model's order, log entry 97) when it leaves OFF without a READY clip; at rest at 4,096 it is ON; at rest at 0 it is OFF,
emptied, with FILLER_OFF.
The crossfade of a sample (R167, R176): the programme exactly at gain 0, the filler exactly at 4,096, the rounded
weighted mean between, within the two. -/
def Obligations.FillerFollowsSilence : Prop :=
  (∀ g a b : Int, 0 ≤ g → g ≤ 4096 → crossfade g a b = (a * (4096 - g) + b * g + 2048) / 4096
    ∧ min a b ≤ crossfade g a b ∧ crossfade g a b ≤ max a b ∧ crossfade 0 a b = a ∧ crossfade 4096 a b = b)
  ∧ ∀ s : State, s.cp.device = .running → s.settings.roles.site = false → s.settings.roles.link = true →
    let x := s.link.filler
    let noted (k : NoticeKind) (cp : ControlPort) : ControlPort := cp.post ⟨k, s.clock.blockCount, []⟩
    let ready : Prop := ∃ c, s.settings.fillerClip = some c ∧ (clipAt s c).state = .ready
    let faded := { x with state := .fadingIn, gain := x.gain.giveEnvelope 4096 16 }
    (s.settings.fillerDelay ≤ s.link.fillerDelay →
      (x.state = .fadingOut → exec .fillerOn s = .next { s with
        cp := noted .fillerOn s.cp, link := { s.link with filler := faded } })
      ∧ (x.state = .off → ready → exec .fillerOn s = .next { s with
        cp := noted .fillerOn s.cp, link := { s.link with filler := { faded with underrunTold := false } } })
      ∧ (x.state = .off → ¬ ready → exec .fillerOn s = .next { s with
        cp := noted .fillerOn (noted .fillerMissing s.cp)
        link := { s.link with filler := { faded with underrunTold := false } } }))
    ∧ (s.link.fillerDelay < s.settings.fillerDelay ∨ x.state = .fadingIn ∨ x.state = .on →
      exec .fillerOn s = .next s)
    ∧ (let counted : State := { s with link := { s.link with
        fillerDelay := if s.me.silent then min s.settings.fillerDelay (s.link.fillerDelay + 1) else 0 } }
      (x.state = .fadingIn ∨ x.state = .on → s.me.silent = false → fillerTick s = { counted with link := { counted.link with
        filler := { x with state := .fadingOut, gain := x.gain.giveEnvelope 0 16 } } })
      ∧ (x.state = .off ∨ x.state = .fadingOut ∨ s.me.silent = true → exec .fillerOn counted = .next (fillerTick s)))
    ∧ (x.state = .fadingIn → x.gain.atRest = true → x.gain.current = 4096 →
      exec .fillerFadeInDone s = .next { s with link := { s.link with filler := { x with state := .on } } })
    ∧ (x.state = .fadingOut → x.gain.atRest = true → x.gain.current = 0 → ∃ t, exec .fillerOff s = .next t
      ∧ t = { s with
          cp := noted .fillerOff s.cp
          cs := { s.cs with port := t.cs.port, waiting := t.cs.waiting, asked := 0 }
          link := { s.link with filler := { x with
            state := .off, position := 0, fetchPosition := 0, buffer := [], primed := false, trimCopied := false } } }
      ∧ ∀ f ∈ t.cs.waiting, f.reader = .filler → f.live = false)
    ∧ (x.gain.atRest = false → exec .fillerFadeInDone s = .next s ∧ exec .fillerOff s = .next s)

/-! ## The transmitter site -/

/-- FORWARD_FRAME_RECEIVED (R170 to R172, R178, R208): a receiver that hunts passes over what is not the marker A5h, 5Ah; a
frame of another length than a forward frame's is counted at its length, and an unreadable one when it is collected; a
late one is counted and discarded; any
other is taken, after one missing event for each frame lost, 1 to 32, or with a break counted; NO_FEED enters LOCKING with it,
LOCKING and FEEDING append it and take its levels, FILLING counts it; the events that bring the loss run to 32 end the feed at
once. An append that brings LOCKING to the target enters FEEDING and cuts a local airing (R150, R181). Every fourth valid frame
sends a back frame after it.
MISSING_EVENT, FEED_LOSS_LIMIT and FEED_VALID_RUN (R171, R172): the gap wait increases at a site block start in LOCKING,
FEEDING and FILLING, and a missing event is made at 2; a missing event advances the count and in LOCKING and FEEDING
conceals once at half level and then with zeros; 32 losses in a row end the feed; 256 good frames bring LOCKING back. An airing
class outside the codes is read as none (log entry 101), an alert id above 2,047 as given (log entry 113), and the count since
the last back frame stops at 65,535 (log entry 112). The cause codes of
FEED_STATE are the model's (log entry 20), and so are the aired flags cleared on LOCKING to FILLING and the effects of a
taken frame on the one that enters LOCKING (log entry 38), and the place kept in the stream (log entry 67). -/
def Obligations.ForwardFramesAndFeedLoss : Prop :=
  (∀ (noise bytes : List Byte) (levels : List Bool) (s : State), s.cp.device = .running →
     s.settings.roles.site = true → s.site.stream = .hunt → (∀ b ∈ noise, b ≠ 0xA5#8) →
     let received (l : List Byte) := exec (.forwardFrameReceived (noise ++ 0xA5#8 :: 0x5A#8 :: l) levels) s
     let out := received bytes
     let x := s.site
     let counted : State := { s with site := { x with
       forwardCrc := min 65535 (x.forwardCrc + 1), forwardCrcTotal := min 65535 (x.forwardCrcTotal + 1) } }
     (∀ a b : Byte, (a ++ b).toNat ≠ 302 → received [a, b] = .next counted)
     ∧ (bytes.length = 304 → halfAt bytes 0 = 302 → parseForward bytes = none → out = .next counted)
     ∧ (∀ f, parseForward bytes = some f → x.state ≠ .noFeed → 1 ≤ (f.count - x.expected).toNat →
       (f.count - x.expected).toNat ≤ 32 → ∃ u,
       exec .missingEvent { s with site := { x with gapWait := 2 } } = .next u
       ∧ out = exec (.forwardFrameReceived (noise ++ 0xA5#8 :: 0x5A#8 :: bytes) levels) u)
     ∧ (∀ f, parseForward bytes = some f → 3 ≤ x.backCount → ∃ u,
       exec (.forwardFrameReceived (noise ++ 0xA5#8 :: 0x5A#8 :: bytes) levels) { s with site := { x with backCount := 0 } }
         = .next u
       ∧ out = exec .backFrameSend { u with site := { u.site with backCount := x.backCount + 1 } })
     ∧ ∀ f, parseForward bytes = some f → x.backCount < 3 →
       let d := (f.count - x.expected).toNat
       let pairs := block48 f.samples
       let y := { x with
         expected := f.count + 1, gapWait := 0, backCount := x.backCount + 1, reportAlert := f.alert
         reportClass := f.cls, reportFiller := f.filler, reportLineUp := f.lineUp }
       let fed (z : SiteEnd) : SiteEnd := { z with
         lastFrame := pairs, lossRun := 0, levels := f.levels
         status := Vector.ofFn fun i => (Tab.at x.status i).sample (levels.getD i.val false) }
       (x.state = .noFeed → 48 < s.settings.targetDepth → out = .next { s with
         cp := s.cp.post ⟨.feedState, s.clock.blockCount, [word 0, word 1, word 0]⟩
         site := { fed y with state := .locking, lockingOrigin := .noFeed, buffer := pairs } })
       ∧ (x.state ≠ .noFeed → 65472 ≤ d → out = .next { s with site := { x with
         lates := min 65535 (x.lates + 1), backCount := x.backCount + 1 } })
       ∧ (x.state = .feeding → d = 0 → x.buffer.length ≤ 2000 → out = .next { s with
         site := { fed y with buffer := x.buffer ++ pairs } })
       ∧ (1 ≤ d → d ≤ 32 → x.lossRun + d < 32 → x.buffer.length + 48 * (d + 1) ≤ 2048 → x.lastFrame.length = 48 →
         x.state = .feeding ∨ (x.state = .locking ∧ x.buffer.length + 48 * (d + 1) < s.settings.targetDepth) →
         out = .next { s with site := { fed y with
           validRun := 0
           buffer := x.buffer
             ++ (if x.lossRun = 0 then x.lastFrame.map (fun p => (p.1 / 2, p.2 / 2)) else silence)
             ++ (List.replicate (d - 1) silence).flatten ++ pairs } })
       ∧ (x.state = .feeding → d ≤ 32 → x.lossRun < 32 → 32 ≤ x.lossRun + d →
         x.buffer.length + 48 * (32 - x.lossRun) ≤ 2048 → x.filler.state ≠ .off → out = .next { s with
           cp := s.cp.post ⟨.feedState, s.clock.blockCount, [word 2, word 3, word 2]⟩
           site := { y with
             state := .filling, buffer := [], validRun := 1, lossRun := 32, levels := s.settings.safeLevels
             alerts := x.alerts.map fun r => { r with aired := false }
             filler := { x.filler with state := .fadingIn, gain := x.filler.gain.giveEnvelope 4096 16 } } })
       ∧ (x.state = .filling → 1 ≤ d → d ≤ 32 → out = .next { s with site := { y with validRun := 1 } })
       ∧ (x.state = .feeding → 32 < d → d < 65472 → x.buffer.length ≤ 2000 → out = .next { s with
         site := { fed y with breaks := min 65535 (x.breaks + 1), buffer := x.buffer ++ pairs } })
       ∧ (x.state = .feeding → d = 0 → 2000 < x.buffer.length → x.overflowTold = false → out = .next { s with
         cp := s.cp.post ⟨.feedOverflow, s.clock.blockCount, []⟩
         site := { fed y with
           buffer := x.buffer ++ pairs.take (2048 - x.buffer.length)
           overflows := min 65535 (x.overflows + 1), overflowTold := true } })
       ∧ (x.state = .locking → d = 0 → x.buffer.length + 48 < s.settings.targetDepth → x.buffer.length ≤ 2000 →
         out = .next { s with site := { fed y with buffer := x.buffer ++ pairs } })
       ∧ (x.state = .locking → d = 0 → s.settings.targetDepth ≤ x.buffer.length + 48 → x.buffer.length ≤ 2000 →
         ∃ t, out = .next t ∧ SiteCut { s with
           cp := s.cp.post ⟨.feedState, s.clock.blockCount, [word 1, word 2, word 1]⟩
           site := { fed y with
             state := .feeding, buffer := x.buffer ++ pairs, overflowTold := false, underrunTold := false
             lastDrawn := (0, 0)
             filler := { x.filler with state := .fadingOut, gain := x.filler.gain.giveEnvelope 0 16 } } } t)
       ∧ (x.state = .filling → d = 0 → x.validRun < 255 →
         out = .next { s with site := { y with validRun := x.validRun + 1 } })
       ∧ (x.state = .filling → d = 0 → x.validRun = 255 → 48 < s.settings.targetDepth → out = .next { s with
         cp := s.cp.post ⟨.feedState, s.clock.blockCount, [word 3, word 1, word 3]⟩
         site := { fed y with validRun := 256, state := .locking, lockingOrigin := .filling, buffer := pairs } }))
  ∧ (∀ s : State, s.cp.device = .running → s.settings.roles.site = true →
       let x := s.site
       let told (a b c : Nat) : ControlPort :=
         s.cp.post ⟨.feedState, s.clock.blockCount, [word a, word b, word c]⟩
       (x.state = .noFeed ∨ x.gapWait < 2 → exec .missingEvent s = .next s)
       ∧ (x.state = .noFeed → gapTick s = s)
       ∧ (x.state ≠ .noFeed →
         exec .missingEvent { s with site := { x with gapWait := min 2 (x.gapWait + 1) } } = .next (gapTick s))
       ∧ (x.state = .filling → 2 ≤ x.gapWait → exec .missingEvent s = .next { s with site := { x with
         gapWait := 1, expected := x.expected + 1, validRun := 0 } })
       ∧ (x.state = .feeding → 2 ≤ x.gapWait → x.buffer.length ≤ 2000 → x.lossRun < 31 → x.lastFrame.length = 48 →
         exec .missingEvent s = .next { s with site := { x with
           gapWait := 1, expected := x.expected + 1, validRun := 0, lossRun := x.lossRun + 1
           buffer := x.buffer ++ if x.lossRun = 0 then x.lastFrame.map (fun p => (p.1 / 2, p.2 / 2)) else silence } })
       ∧ (let lost : SiteEnd := { x with
           gapWait := 1, expected := x.expected + 1, validRun := 0, lossRun := min 32 (x.lossRun + 1)
           buffer := x.buffer ++ if x.lossRun = 0 then x.lastFrame.map (fun p => (p.1 / 2, p.2 / 2)) else silence }
         2 ≤ x.gapWait → x.buffer.length ≤ 2000 → x.lastFrame.length = 48 →
         (x.state = .feeding ∨ (x.state = .locking ∧ x.buffer.length + 48 < s.settings.targetDepth) →
           exec .missingEvent s = exec .feedLossLimit { s with site := lost })
         ∧ (x.state = .locking → s.settings.targetDepth ≤ x.buffer.length + 48 → ∃ t, SiteCut { s with
             cp := told 1 2 1
             site := { lost with
               state := .feeding, overflowTold := false, underrunTold := false, lastDrawn := (0, 0)
               filler := { x.filler with state := .fadingOut, gain := x.filler.gain.giveEnvelope 0 16 } } } t
           ∧ exec .missingEvent s = exec .feedLossLimit t))
       ∧ (x.lossRun < 32 → exec .feedLossLimit s = .next s)
       ∧ (32 ≤ x.lossRun → x.state = .feeding → x.filler.state ≠ .off → exec .feedLossLimit s = .next { s with
         cp := told 2 3 2
         site := { x with
           state := .filling, buffer := [], validRun := 0, levels := s.settings.safeLevels
           alerts := x.alerts.map fun r => { r with aired := false }
           filler := { x.filler with state := .fadingIn, gain := x.filler.gain.giveEnvelope 4096 16 } } })
       ∧ (32 ≤ x.lossRun → x.state = .feeding → x.filler.state = .off → ∃ t, exec .feedLossLimit s = .next t
         ∧ Posted (told 2 3 2) t.cp ∧ t = { s with
           cp := t.cp
           site := { x with
             state := .filling, buffer := [], validRun := 0, levels := s.settings.safeLevels
             alerts := x.alerts.map fun r => { r with aired := false }
             filler := { x.filler with
               state := .fadingIn, gain := x.filler.gain.giveEnvelope 4096 16, underrunTold := false } } })
       ∧ (32 ≤ x.lossRun → x.state = .locking → x.lockingOrigin = .noFeed → exec .feedLossLimit s = .next { s with
         cp := told 1 0 2
         site := { x with state := .noFeed, buffer := [], validRun := 0, levels := s.settings.safeLevels } })
       ∧ (32 ≤ x.lossRun → x.state = .locking → x.lockingOrigin = .filling → exec .feedLossLimit s = .next { s with
         cp := told 1 3 2
         site := { x with
           state := .filling, buffer := [], validRun := 0, levels := s.settings.safeLevels
           alerts := x.alerts.map fun r => { r with aired := false } } })
       ∧ ∀ (bytes : List Byte) (levels : List Bool),
         (x.state ≠ .filling ∨ x.validRun < 256 → exec (.feedValidRun bytes levels) s = .next s)
         ∧ ∀ f, parseForward bytes = some f → x.state = .filling → 256 ≤ x.validRun → 48 < s.settings.targetDepth →
           exec (.feedValidRun bytes levels) s = .next { s with
             cp := told 3 1 3
             site := { x with
               state := .locking, lockingOrigin := .filling, buffer := block48 f.samples, lossRun := 0
               lastFrame := block48 f.samples, levels := f.levels
               status := Vector.ofFn fun i => (Tab.at x.status i).sample (levels.getD i.val false) } })

/-- BACK_FRAME_SEND (R174, R175, R180, R208): at 4 valid frames the trim loop runs in FEEDING, with its slip at the limit, and the
back frame carries the site's values and the relay queue's head, which leaves at its fourth sending. SITE_STATUS_ACCEPTED
(R178): after three equal samples the level changes over; the eight filters take the status inputs and the ring and loop
lines of two phone slots. The off-air peak takes the largest absolute value of the monitor slot's closing block at every site
block start (R175). The direction word of
SLIP is the model's (log entry 64), and so are the key and class bytes of a back frame without an event (log entry 100). -/
def Obligations.SiteReportsInBackFrames : Prop :=
  (∀ s : State, s.cp.device = .running → s.settings.roles.site = true →
    let x := s.site
    let L : Int := s.settings.trimLimit
    let e : Int := (x.buffer.length : Int) - s.settings.targetDepth
    let trim : Int := if x.state = .feeding then
      max (-L) (min L (x.trim + max (-16) (min 16 (e.tdiv 8)))) else x.trim
    let slips : Prop := x.state = .feeding ∧ (trim = L ∨ trim = -L) ∧ (s.settings.slipThreshold : Int) ≤ e.natAbs
    (x.backCount < 4 → exec .backFrameSend s = .next s)
    ∧ (4 ≤ x.backCount → ∃ t, exec .backFrameSend s = .next t
      ∧ t = { s with
          cp := t.cp
          site := { x with
            trim := trim, backCount := 0, frameCount := x.frameCount + 1, forwardCrc := 0, offAirPeak := 0
            relay := match x.relay with
              | [] => []
              | h :: rest => if h.sends < 3 then { h with sends := h.sends + 1 } :: rest else rest
            buffer := t.site.buffer, slips := t.site.slips, sent := t.site.sent } }
      ∧ t.site.sent = 0xA5#8 :: 0x5A#8 :: backBytes
        { count := x.frameCount, state := x.state, depth := x.buffer.length, trim := trim
          levels := Tab.each x.status Filter.level
          event := x.relay.head?.map fun h => ⟨if h.kind = .start then 1 else 3, h.key, h.cls⟩
          echo := x.reportAlert, crcCount := x.forwardCrc, peak := x.offAirPeak }
      ∧ (¬ slips → t.site.buffer = x.buffer ∧ t.site.slips = x.slips ∧ t.cp = s.cp)
      ∧ (slips → t.site.slips = min 65535 (x.slips + 1)
        ∧ t.cp = s.cp.post ⟨.slip, s.clock.blockCount, [wordFlag (decide (e < 0)), wordInt e, wordInt trim]⟩
        ∧ (0 < e → t.site.buffer = x.buffer.drop 1)
        ∧ (∀ p rest, e ≤ 0 → x.buffer = p :: rest → t.site.buffer = p :: p :: rest))))
  ∧ ∀ (i : Fin 8) (s : State), s.cp.device = .running → s.settings.roles.site = true →
    let f := Tab.at s.site.status i
    (3 ≤ f.run → exec (.siteStatusAccepted i) s
      = .next { s with site := { s.site with status := s.site.status.put i ⟨!f.level, 0, 64⟩ } })
    ∧ (f.run < 3 → exec (.siteStatusAccepted i) s = .next s)
    ∧ ContactFilter
    ∧ (∀ levels : List Bool, sampleStatus levels s = { s with site := { s.site with
        status := Vector.ofFn fun j => (Tab.at s.site.status j).sample (levels.getD j.val false) } })
    ∧ (∀ input : BlockInput, let bit (l : List Bool) (k : Nat) : Bool := l.getD k false
      statusLevels input = [bit input.status 0, bit input.status 1, bit input.status 2, bit input.status 3,
        bit input.ring 0, bit input.loop 0, bit input.ring 1, bit input.loop 1])
    ∧ ∀ input : BlockInput, ∃ n : Nat, offAirTick input s = { s with site := { s.site with offAirPeak := n } }
      ∧ s.site.offAirPeak ≤ n ∧ (∀ p ∈ tdmBlock input s.settings.offAirSlot, p.1.natAbs ≤ n ∧ p.2.natAbs ≤ n)
      ∧ (n = s.site.offAirPeak ∨ ∃ p ∈ tdmBlock input s.settings.offAirSlot, n = p.1.natAbs ∨ n = p.2.natAbs)

/-- A filler player's block (R165, R89): nothing while OFF, zeros until primed, then the next 48 frames under its trim, with
the play position round the clip; short of frames it plays those held and zeros, counts, and moves its fetch position up,
the first since OFF with FILLER_UNDERRUN.
FEED_DRAW (R173) at a site block start that opened in FEEDING: the 48 oldest frames of the elastic buffer; short of 48 the
last frame taken is repeated, the count increases, and the first of this FEEDING posts FEED_UNDERRUN; in any other state,
and at the block start that enters FEEDING (R172), the feed is zero.
SITE_OUTPUT (R176): the crossfade of feed and filler under the filler gain, the alert on top, saturated once; the block
formed before is the one now played, by every output slot that the slot map assigns PROGRAM, every other slot carrying zero;
the filler's gain and envelope advance, and a filler at rest comes to ON or OFF. -/
def Obligations.SiteDrawsFeedAndFormsOutput : Prop :=
  (∀ (e : FillerEnd) (s : State),
    let x := fillerAt e s
    let r := produceFiller e s
    let y := fillerAt e r.1
    let len := (s.settings.fillerClip.map fun c => (clipAt s c).length).getD 0
    (x.state = .off ∨ x.primed = false → r = (s, silence))
    ∧ (x.state ≠ .off → x.primed = true →
      r.2 = applyRamp (Ramp.rest x.trim) (block48 (x.buffer.take 48)) ∧ y.buffer = x.buffer.drop 48
      ∧ y.position = (if len = 0 then x.position else (x.position + 48) % len) ∧ y.state = x.state ∧ y.gain = x.gain
      ∧ (48 ≤ x.buffer.length → y.fetchPosition = x.fetchPosition ∧ y.underruns = x.underruns ∧ r.1.cp = s.cp)
      ∧ (x.buffer.length < 48 → y.fetchPosition = y.position ∧ y.underruns = min 65535 (x.underruns + 1)
        ∧ y.underrunTold = true
        ∧ r.1.cp = if x.underrunTold then s.cp else s.cp.post ⟨.fillerUnderrun, s.clock.blockCount, []⟩)))
  ∧ (∀ (feeding : Bool) (s : State), let x := s.site
    let held := x.buffer.take 48
    let last := held.getLastD x.lastDrawn
    (feeding = false ∨ x.state ≠ .feeding → drawFeed feeding s = (s, silence))
    ∧ (feeding = true → x.state = .feeding →
      (48 ≤ x.buffer.length → drawFeed feeding s
        = ({ s with site := { x with buffer := x.buffer.drop 48, lastDrawn := last } }, held))
      ∧ (x.buffer.length < 48 → drawFeed feeding s = ({ s with
          cp := if x.underrunTold then s.cp else s.cp.post ⟨.feedUnderrun, s.clock.blockCount, []⟩
          site := { x with
            buffer := [], lastDrawn := last, underruns := min 65535 (x.underruns + 1), underrunTold := true } },
        x.buffer ++ List.replicate (48 - x.buffer.length) last))))
  ∧ ∀ (feed alert : Block) (s : State),
    let f := s.site.filler
    let fill := produceFiller .site s
    let cross (g a b : Int) : Int := (a * (4096 - g) + b * g + 2048) / 4096
    let limit (v : Int) : Int := max (-8388608) (min 8388607 v)
    let out := ((f.gain.gains.zip (feed.zip (applyRamp f.envelope fill.2))).zip alert).map fun x =>
      (limit (cross x.1.1 x.1.2.1.1 x.1.2.2.1 + x.2.1), limit (cross x.1.1 x.1.2.1.2 x.1.2.2.2 + x.2.2))
    let y := fill.1.site.filler
    let gain := f.gain.advance
    let u : State := { fill.1 with site := { fill.1.site with
      playing := s.site.output, output := out
      filler := { y with gain := gain, envelope := f.envelope.advance } } }
    let t := siteOutput feed alert s
    let fadedIn : Prop := f.state = .fadingIn ∧ gain.atRest = true ∧ gain.current = 4096
    let fadedOut : Prop := f.state = .fadingOut ∧ gain.atRest = true ∧ gain.current = 0
    (∀ slot : Fin 8, (Tab.at s.settings.outMap slot = some .program → siteSlot slot s = s.site.playing)
      ∧ (Tab.at s.settings.outMap slot ≠ some .program → siteSlot slot s = List.replicate 48 (0, 0)))
    ∧ (fadedIn → t = { u with site := { u.site with filler := { u.site.filler with state := .on } } })
    ∧ (fadedOut → t = { u with
        cs := { s.cs with port := t.cs.port, waiting := t.cs.waiting, asked := 0 }
        site := { u.site with filler := { u.site.filler with
          state := .off, position := 0, fetchPosition := 0, buffer := [], primed := false, trimCopied := false } } }
      ∧ ∀ g ∈ t.cs.waiting, g.reader = .siteFiller → g.live = false)
    ∧ (¬ fadedIn → ¬ fadedOut → t = u)

/-- The site's alert receiver (R179, R180): a BEGIN with a new key is relayed and admitted, in a full list in the place of the
lowest-ranked record that is not airing and ranks below it, or not at all, each with SITE_ALERT; a CANCEL is relayed and
removes its record, a known or recent key is disregarded, an END has no effect, and a failed message is counted; a record
whose duration runs out is removed. A removal cuts the record's airing (R150, R181). At a site block start every record's age
and minute count increase, and a whole minute takes 1 from the duration; a message still incomplete at the 16th block start
after its start byte is counted (log entry 122). The kinds of SITE_ALERT are the model's
codes (log entry 20), the class of a relayed CANCEL without a record is free (log entry 23), and a record counts as airing
until the player is IDLE by log entry 98. -/
def Obligations.SiteAlertsAdmittedAndRemoved : Prop :=
  (∀ (key : Word) (s : State), s.cp.device = .running → s.settings.roles.site = true → s.site.framer = .hunt → key ≠ 0 →
    let x := { s.site with framerBlocks := 0 }
    let s' : State := { s with site := x }
    let told (c : AlertClass) (k : Nat) (cp : ControlPort) : ControlPort :=
      cp.post ⟨.siteAlert, s.clock.blockCount, [key, word c.ctorIdx, word k]⟩
    let cancel := exec (.siteReceiverCancel (receiverFrame 3 (be32 key))) s
    exec (.siteReceiverEnd (receiverFrame 2 (be32 key))) s = .next s'
    ∧ (key ∈ x.recent → cancel = .next s')
    ∧ (key ∉ x.recent → (∀ r ∈ x.alerts, r.key ≠ key) → x.relay.length < 4 → ∃ c : AlertClass,
      cancel = .next { s with site := { x with relay := x.relay ++ [⟨.cancel, key, c, 0⟩] } })
    ∧ (∀ r, key ∉ x.recent → siteAlertOf s key = some r → x.relay.length < 4 →
      let u : State := { s with site := { x with
        relay := x.relay ++ [⟨.cancel, key, r.cls, 0⟩], alerts := x.alerts.filter fun r => r.key != key
        recent := (x.recent ++ [key]).drop (x.recent.length + 1 - 4) } }
      (x.player.key ≠ some key → cancel = .next { u with cp := told r.cls 3 s.cp })
      ∧ (x.player.key = some key → ∃ t, SiteCut u t ∧ cancel = .next { t with cp := told r.cls 3 t.cp }))
    ∧ ∀ (a : AlertClass) (duration : Half) (repeats : Byte),
      let begin' := exec (.siteReceiverBegin
        (receiverFrame 1 (be32 key ++ [BitVec.ofNat 8 a.ctorIdx] ++ be16 duration ++ [repeats]))) s
      let r : SiteAlert := ⟨key, a, max 1 (min 1440 duration.toNat), 0, 0, false⟩
      (key ∈ x.recent ∨ (∃ r ∈ x.alerts, r.key = key) → begin' = .next s')
      ∧ (key ∉ x.recent → (∀ r ∈ x.alerts, r.key ≠ key) → x.alerts.length < 4 →
        (x.relay.length < 4 → begin' = .next { s with
          cp := told a 0 s.cp
          site := { x with relay := x.relay ++ [⟨.start, key, a, 0⟩], alerts := x.alerts ++ [r] } })
        ∧ (4 ≤ x.relay.length → begin' = .next { s with
          cp := told a 0 (told a 4 s.cp), site := { x with alerts := x.alerts ++ [r] } }))
      ∧ (key ∉ x.recent → (∀ r ∈ x.alerts, r.key ≠ key) → 4 ≤ x.alerts.length → x.relay.length < 4 →
        let airs (y : SiteAlert) : Prop := x.player.state ≠ .idle ∧ x.player.key = some y.key
        ((∀ y ∈ x.alerts, airs y ∨ y.cls.ctorIdx < a.ctorIdx ∨ (y.cls = a ∧ (0 < y.age ∨ y.key.toNat < key.toNat))) →
          begin' = .next { s with
            cp := told a 1 s.cp, site := { x with relay := x.relay ++ [⟨.start, key, a, 0⟩] } })
        ∧ ∀ y ∈ x.alerts, ¬ airs y → (∀ z ∈ x.alerts, airs z ∨ z = y ∨ z.above y = true) →
          a.ctorIdx < y.cls.ctorIdx ∨ (y.cls = a ∧ y.age = 0 ∧ key.toNat < y.key.toNat) → begin' = .next { s with
            cp := told a 0 (s.cp.post ⟨.siteAlert, s.clock.blockCount, [y.key, word y.cls.ctorIdx, word 2]⟩)
            site := { x with
              relay := x.relay ++ [⟨.start, key, a, 0⟩], alerts := (x.alerts.filter fun z => z.key != y.key) ++ [r] } }))
  ∧ (∀ (type length sum : Byte) (body : List Byte) (s : State), s.cp.device = .running →
    s.settings.roles.site = true → s.site.framer = .hunt → body.length = length.toNat →
    (body.foldl (· + ·) (type + length + sum) ≠ 0 ∨ wordAt body 0 = 0
      ∨ (type.toNat, length.toNat) ∉ [(1, 8), (2, 4), (3, 4)] ∨ (type.toNat = 1 ∧ 3 < (byteAt body 4).toNat)) →
    let n := min 65535 (s.site.errors + 1)
    exec (.siteReceiverError ([0x7E#8, type, length] ++ body ++ [sum])) s = .next { s with
      cp := if s.site.errorTold then s.cp else s.cp.post ⟨.receiverError, s.clock.blockCount, [word n]⟩
      site := { s.site with framerBlocks := 0, errors := n, errorTold := true } })
  ∧ ∀ (r : SiteAlert) (s : State), s.cp.device = .running → s.settings.roles.site = true →
    siteAlertOf s r.key = some r →
    let u : State := { s with site := { s.site with
      alerts := s.site.alerts.filter fun y => y.key != r.key
      recent := (s.site.recent ++ [r.key]).drop (s.site.recent.length + 1 - 4) } }
    let told (cp : ControlPort) : ControlPort :=
      cp.post ⟨.siteAlert, s.clock.blockCount, [r.key, word r.cls.ctorIdx, word 3]⟩
    (∀ a b : SiteAlert, a.above b = true ↔ a.cls.ctorIdx < b.cls.ctorIdx
      ∨ (a.cls = b.cls ∧ (b.age < a.age ∨ (a.age = b.age ∧ a.key.toNat < b.key.toNat))))
    ∧ (60000 ≤ r.minuteCount → r.duration ≤ 1 →
      (s.site.player.key ≠ some r.key → exec (.siteAlertExpiry r.key) s = .next { u with cp := told s.cp })
      ∧ (s.site.player.key = some r.key → ∃ t, SiteCut u t
        ∧ exec (.siteAlertExpiry r.key) s = .next { t with cp := told t.cp }))
    ∧ (r.minuteCount < 60000 ∨ 1 < r.duration → exec (.siteAlertExpiry r.key) s = .next s)
    ∧ exec (.siteAlertExpiry r.key) s = .next (expireSiteAlert r.key s)
    ∧ siteAlertTick s = forEach (s.site.alerts.map SiteAlert.key) expireSiteAlert
      { s with site := { s.site with alerts := s.site.alerts.map SiteAlert.tick } }
    ∧ (let counted := { r with age := min 4294967295 (r.age + 1) }
      (r.minuteCount + 1 < 60000 ∨ r.duration ≤ 1 → r.tick = { counted with minuteCount := r.minuteCount + 1 })
      ∧ (60000 ≤ r.minuteCount + 1 → 1 < r.duration →
        r.tick = { counted with minuteCount := 0, duration := r.duration - 1 }))
    ∧ (s.site.framer = .hunt → siteFramerTick s = s)
    ∧ (s.site.framer ≠ .hunt → s.site.framerBlocks < 15 →
      siteFramerTick s = { s with site := { s.site with framerBlocks := s.site.framerBlocks + 1 } })
    ∧ (s.site.framer ≠ .hunt → 15 ≤ s.site.framerBlocks → let n := min 65535 (s.site.errors + 1)
      siteFramerTick s = { s with
        cp := if s.site.errorTold then s.cp else s.cp.post ⟨.receiverError, s.clock.blockCount, [word n]⟩
        site := { s.site with framer := .hunt, framerBlocks := 0, errors := n, errorTold := true } })

/-- The site's local airing (R181): away from FEEDING an IDLE player starts the highest-ranked record not yet aired, with
voice 0 and the filler fading under it; ATTENTION, GAP and MESSAGE follow; without a clip the airing completes at the end
of GAP and the record is aired; a cut that has faded out gives voice 0 back and the filler returns.
The player's block at a site block start (R147, R148, R150, R181): the voice's samples in ATTENTION, zeros in GAP and while
IDLE, the clip's next 48 frames in MESSAGE, the same on both sides, under the player's envelope, which advances with every
block; each block of ATTENTION and GAP counts before the phase may end; the block with the clip's last frame completes the
airing and sets the record's aired flag. The one sample of a clip frame whose sides differ is free (log entry 24), a block
short of frames plays those it has (log entry 57), and what an IDLE player holds is the model's (log entry 85). The kinds of
SITE_ALERT are the model's codes (log entry 20), SITE_ALERT of kind CUT comes at the end of the cut (log entry 38), and that an
underrun of this player is neither counted nor told is the model's too (log entry 95).
A cut (R150, R181), which the entry to FEEDING and the removal of the record bring, stops a player that has handed no block at
once, lets one that has fade over 8 blocks, and leaves a fade and an IDLE player. -/
def Obligations.SiteAiringRunsThroughItsPhases : Prop :=
  ∀ s : State, s.cp.device = .running → s.settings.roles.site = true →
    let x := s.site
    let p := x.player
    let told (key : Word) (c : AlertClass) (k : Nat) : ControlPort :=
      s.cp.post ⟨.siteAlert, s.clock.blockCount, [key, word c.ctorIdx, word k]⟩
    let made := produceSiteAlert s
    let h := if p.state = .fading then p.cutFrom else p.state
    let runsOut (c : Fin 256) : Prop :=
      (clipAt s c).length ≤ p.position + 48 ∨ (p.fetchedAll = true ∧ p.buffer.length ≤ 48)
    let out : Prop := p.envelope.atRest = true ∨ (p.cutFrom = .message ∧ ∃ c, p.clip = some c
      ∧ ((clipAt s c).length ≤ p.position ∨ (p.fetchedAll = true ∧ p.buffer = [])))
    let standing (y : SitePlayer) : State := { s with site := { x with player := y } }
    let advanced (y : SitePlayer) : SitePlayer := { y with envelope := y.envelope.advance }
    let played (c : Fin 256) : SitePlayer :=
      let position := min (clipAt s c).length (p.position + 48)
      { p with
        handed := true
        buffer := p.buffer.drop 48
        position := position
        fetchPosition := if p.buffer.length < 48 ∧ p.fetchedAll = false ∧ p.fetchPosition < (clipAt s c).length then
          max p.fetchPosition position else p.fetchPosition }
    SiteCut s (cutSiteAiring s)
    ∧ (x.state = .feeding ∨ p.state ≠ .idle ∨ (∀ r ∈ x.alerts, r.aired = true) → exec .siteAlertAiring s = .next s)
    ∧ (x.state ≠ .feeding → p.state = .idle → (∃ r ∈ x.alerts, r.aired = false) → ∃ r ∈ x.alerts, r.aired = false
      ∧ (∀ y ∈ x.alerts, y.aired = false → y.above r = false)
      ∧ exec .siteAlertAiring s = .next { s with
        cp := told r.key r.cls 5
        site := { x with
          player := { SitePlayer.reset with state := .tone, key := some r.key, cls := r.cls }
          filler := { x.filler with envelope := x.filler.envelope.giveEnvelope 0 8 } }
        tg := { s.tg with voices := s.tg.voices.put 0 (grantedVoice .alertUnit true s.settings.attentionF1
          s.settings.attentionF2 s.settings.attentionLevel) } })
    ∧ (p.state = .tone → s.settings.attentionLength ≤ p.phaseCount → exec .siteAttentionEnd s = .next { s with
      cs := { s.cs with asked := 0 }
      site := { x with player := { p with
        state := .silent, phaseCount := 0, position := 0, fetchPosition := 0, buffer := []
        clip := match s.settings.siteAlertClip with
          | none => none
          | some c => if (clipAt s c).state = .ready ∧ 0 < (clipAt s c).length then some c else none } }
      tg := { s.tg with voices := s.tg.voices.put 0 (Tab.at s.tg.voices 0).release } })
    ∧ (p.state = .tone → p.phaseCount < s.settings.attentionLength → exec .siteAttentionEnd s = .next s)
    ∧ (∀ c, p.state = .silent → 500 ≤ p.phaseCount → p.clip = some c → exec .siteGapEnd s = .next { s with
      site := { x with player := { p with state := .message, envelope := p.envelope.giveEnvelope 4096 0 } } })
    ∧ (p.state = .silent → p.phaseCount < 500 → exec .siteGapEnd s = .next s)
    ∧ (∀ key, p.key = some key →
      let done (e : Ramp) (t : State) (k : Nat) : Prop :=
        t = { s with
          cp := told key p.cls k
          cs := { s.cs with port := t.cs.port, waiting := t.cs.waiting, asked := 0 }
          site := { x with
            alerts := t.site.alerts
            player := { SitePlayer.reset with envelope := e }
            filler := { x.filler with envelope := x.filler.envelope.giveEnvelope 4096 8 } }
          tg := { s.tg with voices := t.tg.voices } }
        ∧ (Tab.at t.tg.voices 0).holder ≠ some .alertUnit
        ∧ ∀ v, v ≠ 0 → Tab.at t.tg.voices v = Tab.at s.tg.voices v
      (p.state = .silent → 500 ≤ p.phaseCount → p.clip = none → ∃ t, exec .siteGapEnd s = .next t ∧ done p.envelope t 6
        ∧ t.site.alerts = x.alerts.map fun r => if r.key = key then { r with aired := true } else r)
      ∧ (p.state = .fading → out → ∃ t, exec .siteAlertCutDone s = .next t ∧ done p.envelope t 7
        ∧ t.site.alerts = x.alerts)
      ∧ (∀ c, p.state = .message → p.clip = some c → runsOut c → done p.envelope.advance made.1 6
        ∧ made.1.site.alerts = x.alerts.map fun r => if r.key = key then { r with aired := true } else r))
    ∧ (p.state = .fading → ¬ out → (p.cutFrom = .message → p.clip ≠ none) → exec .siteAlertCutDone s = .next s)
    ∧ (p.state = .idle → made = (s, silence))
    ∧ (h = .tone → made.2 = applyRamp p.envelope (voiceBlock 0 s))
    ∧ (h = .silent → made.2 = silence)
    ∧ (h = .message → (∀ f ∈ made.2, f.1 = f.2) ∧ ((∀ f ∈ p.buffer.take 48, f.1 = f.2) →
      made.2 = applyRamp p.envelope (block48 (p.buffer.take 48))))
    ∧ (p.state = .tone → ∃ t, exec .siteAttentionEnd (standing { p with handed := true, phaseCount := p.phaseCount + 1 }) = .next t
      ∧ made.1 = { t with site := { t.site with player := advanced t.site.player } })
    ∧ (p.state = .silent → ∃ t, exec .siteGapEnd (standing { p with handed := true, phaseCount := p.phaseCount + 1 }) = .next t
      ∧ made.1 = { t with site := { t.site with player := advanced t.site.player } })
    ∧ (∀ c, p.state = .message → p.clip = some c → ¬ runsOut c → made.1 = standing (advanced (played c)))
    ∧ (p.state = .fading → p.cutFrom ≠ .message →
      exec .siteAlertCutDone (standing (advanced { p with handed := true })) = .next made.1)
    ∧ (∀ c, p.state = .fading → p.cutFrom = .message → p.clip = some c →
      exec .siteAlertCutDone (standing (advanced (played c))) = .next made.1)

/-! ## Tones and status inputs -/

/-- The tone voices at a block start (R183, R184): a voice with a holder forms 48 samples, each from the sine table at the
phases before the increments, in DUAL the mean of the two rounded down, under its level, and its phases run on; one without
a holder forms nothing. A grant clamps what it is given, takes the increments from the frequencies and starts at phase 0.
Every entry of the sine table is the integer nearest to 8,388,607 × sin(2πi / 256). The lamps at a block start (R188): each by
its condition, mode and blink count; a lamp output is driven as its lamp stands, and at a SITE node by the remote level applied,
v, on for the first floor(v × 48 / 255) sample periods of a block and off for the rest (R177). -/
def Obligations.TonesAndLampsAtBlockStart : Prop :=
  (∀ (v : Fin 4) (s : State),
    let x := Tab.at s.tg.voices v
    let t := formVoices s
    let y := Tab.at t.tg.voices v
    let entry (p : Word) (i k : Nat) : Int := sineEntry ((p.toNat + k * i) % 4294967296 / 16777216)
    let raw (k : Nat) : Int := if x.dual then (entry x.p1 x.i1 k + entry x.p2 x.i2 k) / 2 else entry x.p1 x.i1 k
    t = { s with tg := { s.tg with voices := t.tg.voices } }
    ∧ (x.holder = none → y = { x with block := [] })
    ∧ (x.holder ≠ none → y.block.length = 48 ∧ (∀ k, k < 48 → y.block[k]?
        = some (max (-8388608) (min 8388607 ((raw k * x.level + 2048) / 4096))))
      ∧ y = { x with
          block := y.block, p1 := x.p1 + BitVec.ofNat 32 (48 * x.i1)
          p2 := if x.dual then x.p2 + BitVec.ofNat 32 (48 * x.i2) else x.p2 }))
  ∧ (∀ (h : Holder) (dual : Bool) (f1 f2 level : Nat), let v := grantedVoice h dual f1 f2 level
    v.holder = some h ∧ v.dual = dual ∧ v.p1 = 0 ∧ v.p2 = 0 ∧ v.level = min 8192 level
    ∧ v.f1 = max 20 (min 20000 f1) ∧ v.f2 = max 20 (min 20000 f2)
    ∧ v.i1 = (v.f1 * 8589934592 + 48000) / 96000 ∧ (dual = true → v.i2 = (v.f2 * 8589934592 + 48000) / 96000))
  ∧ (sineEntry 0 = 0 ∧ sineEntry 64 = 8388607 ∧ sineEntry 192 = -8388607
    ∧ (∀ i, i < 128 → sineEntry (i + 128) = -sineEntry i) ∧ (∀ i, i ≤ 64 → sineEntry (128 - i) = sineEntry i)
    ∧ (∀ i, i < 64 → sineEntry i < sineEntry (i + 1))
    ∧ ∀ i : Nat, i < 256 → |(sineEntry i : ℝ) - 8388607 * Real.sin (2 * Real.pi * i / 256)| ≤ 1 / 2)
  ∧ (∀ (i : Fin 4) (k : Nat) (s : State),
    (s.cp.device = .running → s.settings.roles.site = true → let v := Tab.at s.site.levels i
      (lampOutput i k s = true ↔ k < v * 48 / 255)
      ∧ (v = 0 → lampOutput i k s = false) ∧ (v = 255 → k < 48 → lampOutput i k s = true))
    ∧ (s.cp.device ≠ .running ∨ s.settings.roles.site = false → lampOutput i k s = (Tab.at s.tg.lamps i).lit))
  ∧ ∀ (i : Fin 4) (s : State),
    let a := Tab.at s.settings.lamps i
    let x := Tab.at s.tg.lamps i
    let t := updateLamps s
    let y := Tab.at t.tg.lamps i
    let onAir (slot : Fin 8) : Prop := ∃ e, findEntry s.settings.nodeId slot s.cu.table = some e ∧ e.own = true
      ∧ e.air = true ∧ (e.presence = .present ∨ e.presence = .concealed)
    let holds : Prop := match a.condition with
      | .none => False
      | .micLive => s.cu.inForce = some .live ∧ ((onAir 0 ∧ s.tg.lineUp ≠ .on) ∨ onAir 1)
      | .callerWaiting => s.ku.airQueue ≠ []
      | .alertHeld => s.au.table ≠ []
      | .linkFault => (s.settings.roles.link = true ∧ s.link.state ≠ .up)
          ∨ (s.settings.roles.link = false ∧ ∃ k, (Tab.at s.peers k).roles.link = true ∧
            ((Tab.at s.peers k).state = .lost ∨ ((Tab.at s.peers k).state = .present
              ∧ (Tab.at s.peers k).body.map AnnounceBody.link ≠ some .up)))
      | .seatHolding => s.pu.seat = .holding
    let airing : Prop := ∃ r ∈ s.au.table, r.state = .airing
    t = { s with tg := { s.tg with lamps := t.tg.lamps } }
    ∧ (¬ holds → y = ⟨false, 0⟩)
    ∧ (∀ h, holds → a.mode = .blink h →
      y = ⟨decide (x.blink < h), if x.blink + 1 < 2 * h then x.blink + 1 else 0⟩)
    ∧ (holds → a.mode = .steady → y.blink = (if x.blink + 1 < 256 then x.blink + 1 else 0)
      ∧ (a.condition = .alertHeld → airing → y.lit = decide (x.blink < 128))
      ∧ (a.condition ≠ .alertHeld ∨ ¬ airing → y.lit = true))

/-- LINE-UP ON and LINE-UP OFF (R186, R187, R48): an OFF line-up asks for a pool voice, granted at once or waited for, and
one that is not OFF only takes the route; OFF withdraws the request or gives the voice back, to the oldest waiting
request, and a slot 0 that produced and does not then produce owes its END block.
INPUT_CHANGE (R189, R190): after three equal samples an input's level changes over with its notice, and its action
follows: COUGH ramps the desk gain to 0 and back over 2 blocks, AIR_TOGGLE changes the AIR flag at a rising edge, and
REMOTE_START makes the first WAITING or LOADED entry in list order not yet due come due, starting at once on a LOADED player
(R92), or posts START_IGNORED (R91). At a block start each of the four filters takes its sample, and the acceptances follow in
ascending order (log entry 83); the filter's hold-off counts down and leaves the run at 0, a sample that differs lengthens the
run, and one that is equal clears it (R178). The
words of a level (log entry 75), the due-since count's start from 0 (log entry 73) and the order of the refusals of LINE-UP ON
(log entry 99) are the model's. -/
def Obligations.LineUpAndInputs : Prop :=
  ((∀ (w : Word) (m : CommandMessage) (s : State), Running s (.lineUpOn w) m →
     (s.settings.roles.site = true → exec (.lineUpOn w) s = .next (answer m .notRole [] s))
     ∧ (s.settings.roles.site = false → (2 ≤ w.toNat → exec (.lineUpOn w) s = .next (answer m .badParam [] s))
       ∧ ∀ r : Route, w.toNat = r.ctorIdx →
         (s.tg.lineUp ≠ .off → exec (.lineUpOn w) s = .next (answer m .ok [word s.tg.lineUp.ctorIdx, w]
           { s with tg := { s.tg with route := r } }))
         ∧ (∀ v : Fin 4, s.tg.lineUp = .off → s.tg.waitList = [] → 1 ≤ v.val → (Tab.at s.tg.voices v).holder = none →
           (∀ u : Fin 4, 1 ≤ u.val → u < v → (Tab.at s.tg.voices u).holder ≠ none) →
           exec (.lineUpOn w) s = .next (answer m .ok [word 2, w] { s with tg := { s.tg with
             route := r, lineUp := .on, voices := s.tg.voices.put v (grantedVoice .lineUp false 1000 20 516) } }))
         ∧ (s.tg.lineUp = .off →
           s.tg.waitList ≠ [] ∨ (∀ u : Fin 4, 1 ≤ u.val → (Tab.at s.tg.voices u).holder ≠ none) →
           exec (.lineUpOn w) s = .next (answer m .ok [word 1, w] { s with tg := { s.tg with
             route := r, lineUp := .waiting, waitList := s.tg.waitList ++ [.lineUp] } }))))
   ∧ ∀ (m : CommandMessage) (s : State), Running s .lineUpOff m →
     (s.settings.roles.site = true → exec .lineUpOff s = .next (answer m .notRole [] s))
     ∧ (s.settings.roles.site = false → let data := [word 0, word s.tg.route.ctorIdx]
       (s.tg.lineUp = .off → exec .lineUpOff s = .next (answer m .ok data s))
       ∧ (s.tg.lineUp = .waiting → exec .lineUpOff s = .next (answer m .ok data { s with tg := { s.tg with
         lineUp := .off, waitList := s.tg.waitList.filter fun h => h != .lineUp } }))
       ∧ ∀ v : Fin 4, s.tg.lineUp = .on → 1 ≤ v.val → (Tab.at s.tg.voices v).holder = some .lineUp →
         (∀ u : Fin 4, 1 ≤ u.val → u < v → (Tab.at s.tg.voices u).holder ≠ some .lineUp) →
         let x := Tab.at s.me.desk 0
         let stops := Tab.at s.me.produced 0 && !(s.settings.roles.desk && (x.air || x.cue))
         let me := { s.me with endOwed := if stops then s.me.endOwed.put 0 true else s.me.endOwed }
         (s.tg.waitList = [] → exec .lineUpOff s = .next (answer m .ok data { s with
           me := me
           tg := { s.tg with lineUp := .off, voices := s.tg.voices.put v (Tab.at s.tg.voices v).release } }))
         ∧ (∀ l rest, s.tg.waitList = .line l :: rest → exec .lineUpOff s = .next (answer m .ok data { s with
           me := me
           tg := { s.tg with
             lineUp := .off, waitList := rest
             voices := s.tg.voices.put v
               (grantedVoice (.line l) false s.settings.checkFrequency 20 s.settings.checkLevel) }
           ku := { s.ku with lines := s.ku.lines.put l { lineAt s l with voice := .held v } } }))))
  ∧ (∀ (i : Fin 4) (s : State), s.cp.device = .running → s.settings.roles.site = false →
       let f := Tab.at s.tg.inputs i
       let code : InputAction → Nat
         | .none => 0
         | .remoteStart => 1
         | .cough d => 2 + d
         | .airToggle d => 4 + d
       let a := Tab.at s.settings.inputs i
       let s' : State := { s with
         cp := s.cp.post ⟨.inputChange, s.clock.blockCount, [word (i.val + 1), wordName (!f.level), word (code a)]⟩
         tg := { s.tg with inputs := s.tg.inputs.put i ⟨!f.level, 0, 64⟩ } }
       let out := exec (.inputChange i) s
       (f.run < 3 → out = .next s)
       ∧ (3 ≤ f.run →
         (a = .none → out = .next s')
         ∧ (∀ d, a = .cough d → let n := Tab.at s.tg.coughs d
           let x := Tab.at s.me.desk d
           let counted (k : Nat) : Tones := { s'.tg with coughs := s.tg.coughs.put d k }
           (s.settings.roles.desk = false → out = .next s')
           ∧ (s.settings.roles.desk = true →
             (f.level = false → n = 0 → out = .next { s' with
               tg := counted 1
               me := { s.me with desk := s.me.desk.put d { x with cough := true, gain := x.gain.giveGain 0 2 } } })
             ∧ (f.level = false → 0 < n → out = .next { s' with tg := counted (n + 1) })
             ∧ (f.level = true → n = 1 → out = .next { s' with
               tg := counted 0
               me := { s.me with
                 desk := s.me.desk.put d { x with cough := false, gain := x.gain.giveGain x.level 2 } } })
             ∧ (f.level = true → 1 < n → out = .next { s' with tg := counted (n - 1) })))
         ∧ (∀ d, a = .airToggle d →
           (s.settings.roles.desk = false ∨ f.level = true → out = .next s')
           ∧ (s.settings.roles.desk = true → f.level = false → ∃ t, out = .next t ∧ t = { s' with me := { s.me with
               desk := s.me.desk.put d { Tab.at s.me.desk d with air := !(Tab.at s.me.desk d).air }
               endOwed := t.me.endOwed } }
             ∧ ∀ k, Tab.at t.me.endOwed k = true ↔ Tab.at s.me.endOwed k = true
               ∨ (k.val = d.val ∧ Tab.at s.me.produced k = true ∧ slotFlags k t = none)))
         ∧ (a = .remoteStart → (f.level = true → out = .next s')
           ∧ (f.level = false →
             let waits (e : CueEntry) : Prop := (e.state = .waiting ∨ e.state = .loaded) ∧ e.due = false
             (firstToPlay s = none ↔ ∀ e ∈ s.pu.cues, ¬ waits e)
             ∧ (∀ e, firstToPlay s = some e ↔ ∃ before after, s.pu.cues = before ++ e :: after ∧ waits e
               ∧ ∀ x ∈ before, ¬ waits x)
             ∧ (firstToPlay s = none ∨ s.settings.roles.playout = false → out = .next { s' with
               cp := s'.cp.post ⟨.startIgnored, s.clock.blockCount, []⟩ })
             ∧ (∀ e, firstToPlay s = some e → s.settings.roles.playout = true → ∃ t, out = .next t
               ∧ ComesDue e.tag s' t))))
       ∧ out = .next (acceptInput i s))
  ∧ (∀ (input : BlockInput) (s : State),
       inputTick input s = forEach [0, 1, 2, 3] acceptInput { s with tg := { s.tg with
         inputs := Vector.ofFn fun i => (Tab.at s.tg.inputs i).count (input.status.getD i.val false) } })
  ∧ ContactFilter
end

