-- ==== Sys2Proof/Laws/Memory.lean ====
section
/-! SUPPORT. DRAM: reads after writes, and the canonical form that every operation keeps. -/

namespace Sys2Proof.Machine

/-- Every listed address is above `a`. -/
def Above (a : Nat) (m : List Host.Cell) : Prop := ∀ c ∈ m, a < c.1

theorem wf_cons_iff (c : Host.Cell) (m : List Host.Cell) :
    Memory.wf (c :: m) = true ↔ c.2 ≠ dramUnwritten ∧ Above c.1 m ∧ Memory.wf m = true := by
  induction m generalizing c with
  | nil => simp [Memory.wf, Above]
  | cons d rest ih =>
    simp only [Memory.wf, Bool.and_eq_true, bne_iff_ne, decide_eq_true_eq, ih d]
    constructor
    · rintro ⟨⟨h1, h2⟩, h3, h4, h5⟩
      refine ⟨h1, ?_, h3, h4, h5⟩
      intro x hx
      rcases List.mem_cons.1 hx with rfl | hx
      · exact h2
      · exact Nat.lt_trans h2 (h4 x hx)
    · rintro ⟨h1, h2, h3, h4, h5⟩
      exact ⟨⟨h1, h2 d (by simp)⟩, h3, h4, h5⟩

theorem memRead_above {m : List Host.Cell} {a : Nat} (h : Above a m) : memRead m a = dramUnwritten := by
  induction m with
  | nil => rfl
  | cons c rest ih =>
    have hc := h c (by simp)
    have hne : c.1 ≠ a := by omega
    simp only [memRead, if_neg hne]
    exact ih fun x hx => h x (by simp [hx])

theorem above_memWrite {m : List Host.Cell} {k a : Nat} {b : Byte} (hk : k < a) (h : Above k m) :
    Above k (memWrite m a b) := by
  induction m with
  | nil => simp only [memWrite]; split <;> simp [Above, hk]
  | cons c rest ih =>
    have hr : Above k rest := fun x hx => h x (by simp [hx])
    have hc := h c (by simp)
    simp only [memWrite]
    repeat' split
    · exact h
    · intro x hx
      rcases List.mem_cons.1 hx with rfl | hx
      · exact hk
      · exact h x hx
    · exact hr
    · intro x hx
      rcases List.mem_cons.1 hx with rfl | hx
      · exact hk
      · exact hr x hx
    · intro x hx
      rcases List.mem_cons.1 hx with rfl | hx
      · exact hc
      · exact ih hr x hx

/-- A write keeps the canonical form. -/
theorem memWrite_wf {m : List Host.Cell} (a : Nat) (b : Byte) (h : Memory.wf m = true) :
    Memory.wf (memWrite m a b) = true := by
  induction m with
  | nil => by_cases hb : b = dramUnwritten <;> simp [memWrite, hb, Memory.wf]
  | cons c rest ih =>
    obtain ⟨h1, h2, h3⟩ := (wf_cons_iff c rest).1 h
    simp only [memWrite]
    repeat' split
    · exact h
    · rename_i hlt hb
      exact (wf_cons_iff _ _).2 ⟨hb, fun x hx => by
        rcases List.mem_cons.1 hx with rfl | hx
        · exact hlt
        · exact Nat.lt_trans hlt (h2 x hx), h⟩
    · exact h3
    · rename_i heq hb
      exact (wf_cons_iff _ _).2 ⟨hb, by simpa [heq] using h2, h3⟩
    · rename_i hlt hne
      exact (wf_cons_iff _ _).2 ⟨h1, above_memWrite (by omega) h2, ih h3⟩

/-- A read after a write: the byte written at its address, and every other address as before. -/
theorem memRead_memWrite {m : List Host.Cell} (a k : Nat) (b : Byte) (h : Memory.wf m = true) :
    memRead (memWrite m a b) k = if k = a then b else memRead m k := by
  induction m with
  | nil =>
    by_cases hb : b = dramUnwritten
    · subst hb; simp [memWrite, memRead]
    · by_cases hk : k = a
      · subst hk; simp [memWrite, memRead, hb]
      · simp [memWrite, memRead, hb, hk, Ne.symm hk]
  | cons c rest ih =>
    obtain ⟨h1, h2, h3⟩ := (wf_cons_iff c rest).1 h
    by_cases hlt : a < c.1
    · simp only [memWrite, if_pos hlt]
      have hab : Above a (c :: rest) := fun x hx => by
        rcases List.mem_cons.1 hx with rfl | hx
        · exact hlt
        · exact Nat.lt_trans hlt (h2 x hx)
      by_cases hb : b = dramUnwritten
      · by_cases hk : k = a
        · subst hk; simp [hb, memRead_above hab]
        · simp [hb, hk]
      · by_cases hk : k = a
        · subst hk; simp [hb, memRead]
        · simp [hb, memRead, hk, Ne.symm hk]
    · by_cases heq : a = c.1
      · simp only [memWrite, if_neg hlt, if_pos heq]
        by_cases hb : b = dramUnwritten
        · by_cases hk : k = a
          · subst hk; subst heq; simp [hb, memRead_above h2]
          · have : c.1 ≠ k := fun e => hk (by omega)
            simp [hb, hk, memRead, this]
        · by_cases hk : k = a
          · subst hk; simp [hb, memRead]
          · have : c.1 ≠ k := fun e => hk (by omega)
            simp [hb, hk, memRead, this, Ne.symm hk]
      · simp only [memWrite, if_neg hlt, if_neg heq, memRead, ih h3]
        by_cases hk : k = a
        · subst hk
          have : c.1 ≠ k := fun e => heq e.symm
          simp [this]
        · simp [hk]

/-- Any run of writes keeps the canonical form. -/
theorem memWriteAll_wf (l : List (Nat × Byte)) {m : List Host.Cell} (h : Memory.wf m = true) :
    Memory.wf (memWriteAll m l) = true := by
  induction l generalizing m with
  | nil => exact h
  | cons p rest ih => exact ih (memWrite_wf p.1 p.2 h)

/-- A run of writes leaves every address outside it as before. -/
theorem memRead_memWriteAll (l : List (Nat × Byte)) {m : List Host.Cell} (h : Memory.wf m = true) (k : Nat)
    (hk : ∀ p ∈ l, p.1 ≠ k) : memRead (memWriteAll m l) k = memRead m k := by
  induction l generalizing m with
  | nil => rfl
  | cons p rest ih =>
    simp only [memWriteAll]
    rw [ih (memWrite_wf p.1 p.2 h) fun q hq => hk q (by simp [hq]), memRead_memWrite p.1 k p.2 h,
      if_neg (Ne.symm (hk p (by simp)))]

/-- At reset nothing is listed, which is canonical. -/
theorem reset_dram_wf : Memory.wf State.reset.dram = true := rfl

end Sys2Proof.Machine
end

