-- ==== Sys2Proof/Laws/Steady.lean ====
section
/-! SUPPORT. The frame that nearly every operation keeps: the queue, the clock and the settings stay, the Control
Port changes only by notices posted, and DRAM keeps its canonical form. -/

namespace Sys2Proof.Machine

/-- The frame, on the fields it speaks of, against a state `b`. -/
structure SteadyOf (b : State) (pending : List Instr) (clock : Clock) (settings : Settings) (cp : ControlPort)
    (dram : List Host.Cell) : Prop where
  pending : pending = b.pending
  clock : clock = b.clock
  settings : settings = b.settings
  posted : Posted b.cp cp
  dram : Memory.wf b.dram = true → Memory.wf dram = true

/-- `s` keeps the frame of `b`. -/
abbrev Steady (b s : State) : Prop := SteadyOf b s.pending s.clock s.settings s.cp s.dram

/-! ## Notices -/

theorem Posted.refl (cp : ControlPort) : Posted cp cp :=
  ⟨rfl, List.prefix_refl _, fun h => ⟨Nat.le_refl _, h⟩, id⟩

theorem Posted.trans {a b c : ControlPort} (h : Posted a b) (k : Posted b c) : Posted a c := by
  refine ⟨?_, h.grows.trans k.grows, fun x => ?_, fun x => k.sound (h.sound x)⟩
  · have e := k.same
    rw [h.same] at e
    exact e
  · have y := h.counts x
    have z := k.counts y.2
    exact ⟨Nat.le_trans y.1 z.1, z.2⟩

/-- A post keeps the port's legal states. -/
theorem PortOk.post {cp : ControlPort} (n : Notice) (h : PortOk cp) : PortOk (cp.post n) := by
  unfold ControlPort.post
  split
  · rename_i hl
    exact ⟨by simp; omega, h.dropped, rfl, h.rdy, h.response, h.slot, h.busy⟩
  · exact ⟨h.queue, Nat.min_le_left _ _, h.ints, h.rdy, h.response, h.slot, h.busy⟩

theorem bump_ge {top n : Nat} (h : n ≤ top) : n ≤ bump top n := by unfold bump; omega

/-- A notice posted is a change by notices alone. -/
theorem Posted.post (cp : ControlPort) (n : Notice) : Posted cp (cp.post n) := by
  refine ⟨?_, ?_, ?_, PortOk.post n⟩ <;> unfold ControlPort.post <;> split
  · rfl
  · rfl
  · exact List.prefix_append _ _
  · exact List.prefix_refl _
  · exact fun h => ⟨Nat.le_refl _, h⟩
  · intro h
    unfold bump
    simp only
    omega

/-! ## The frame -/

theorem Steady.refl (s : State) : Steady s s := ⟨rfl, rfl, rfl, Posted.refl _, id⟩

variable {base : State}

@[simp] theorem steady_mk (cp settings clock lu tx counters peers cu me cs dram pu ku au link site tg pending) :
    Steady base ⟨cp, settings, clock, lu, tx, counters, peers, cu, me, cs, dram, pu, ku, au, link, site, tg, pending⟩ ↔
      SteadyOf base pending clock settings cp dram := Iff.rfl

@[simp] theorem post_steady (k : NoticeKind) (items : List Word) {s : State} (h : Steady base s) :
    Steady base (post k items s) :=
  ⟨h.pending, h.clock, h.settings, h.posted.trans (Posted.post _ _), h.dram⟩

@[simp] theorem postIf_steady (c : Bool) (k : NoticeKind) (items : List Word) {s : State} (h : Steady base s) :
    Steady base (postIf c k items s) := by
  unfold postIf
  split
  · exact post_steady k items h
  · exact h

@[simp] theorem refuse_fst (c : ResultCode) (s : State) : (refuse c s).1 = s := rfl

@[simp] theorem reading_fst (f : State → Reply) (s : State) : (reading f s).1 = s := rfl

theorem ite_steady {c : Prop} [Decidable c] {s t : State} (hs : Steady base s) (ht : Steady base t) :
    Steady base (if c then s else t) := by
  split
  · exact hs
  · exact ht

theorem foldl_steady {α : Type} (l : List α) (f : State → α → State)
    (hf : ∀ s a, Steady base s → Steady base (f s a)) {s : State} (h : Steady base s) : Steady base (l.foldl f s) := by
  induction l generalizing s with
  | nil => exact h
  | cons a rest ih => exact ih (hf s a h)

theorem forEach_steady {α : Type} (l : List α) (f : α → State → State)
    (hf : ∀ a s, Steady base s → Steady base (f a s)) {s : State} (h : Steady base s) : Steady base (forEach l f s) :=
  foldl_steady l _ (fun s a => hf a s) h

end Sys2Proof.Machine
end

