-- ==== Sys2Proof/Laws/Tab.lean ====
section
/-! SUPPORT. Tables, indexes, limits and byte order: one lemma for each operation. -/

namespace Sys2Proof

@[simp] theorem Tab.at_put {α : Type} {n : Nat} (v : Tab α n) (i j : Fin n) (x : α) :
    Tab.at (Tab.put v i x) j = if i = j then x else Tab.at v j := by
  simp only [Tab.at, Tab.put, Vector.getElem_set, Fin.ext_iff]

theorem Tab.at_put_ne {α : Type} {n : Nat} (v : Tab α n) {i j : Fin n} (x : α) (h : j ≠ i) :
    Tab.at (Tab.put v i x) j = Tab.at v j := by
  rw [Tab.at_put, if_neg (fun he => h he.symm)]

@[simp] theorem Tab.put_put {α : Type} {n : Nat} (v : Tab α n) (i : Fin n) (x y : α) : (v.put i x).put i y = v.put i y := by
  simp [Tab.put]

@[simp] theorem Tab.put_at {α : Type} {n : Nat} (v : Tab α n) (i : Fin n) : v.put i (v.at i) = v := by
  simp [Tab.put, Tab.at]

@[simp] theorem Tab.at_each {α β : Type} {n : Nat} (v : Tab α n) (f : α → β) (i : Fin n) :
    Tab.at (Tab.each v f) i = f (Tab.at v i) := by
  simp [Tab.at, Tab.each]

@[simp] theorem Tab.at_ofFn {α : Type} {n : Nat} (f : Fin n → α) (i : Fin n) :
    Tab.at (Vector.ofFn f) i = f i := by
  simp [Tab.at]

@[simp] theorem Tab.at_replicate {α : Type} {n : Nat} (x : α) (i : Fin n) :
    Tab.at (Vector.replicate n x) i = x := by
  simp [Tab.at]

theorem Tab.ext {α : Type} {n : Nat} {v w : Tab α n} (h : ∀ i, Tab.at v i = Tab.at w i) : v = w := by
  apply Vector.ext
  intro i hi
  exact h ⟨i, hi⟩

theorem index?_eq_some {n k : Nat} {i : Fin n} : index? n k = some i ↔ i.val = k := by
  unfold index?
  split
  · rename_i h
    simp [Fin.ext_iff, eq_comm]
  · rename_i h
    simp only [reduceCtorEq, false_iff]
    exact fun e => h (e ▸ i.isLt)

@[simp] theorem index?_val {n : Nat} (i : Fin n) : index? n i.val = some i := index?_eq_some.2 rfl

theorem index?_eq_none {n k : Nat} : index? n k = none ↔ n ≤ k := by
  unfold index?
  split <;> simp <;> omega

namespace Machine

theorem sat24_range (x : Int) : -8388608 ≤ sat24 x ∧ sat24 x ≤ 8388607 := by unfold sat24; omega

theorem sat24_id {x : Int} (h : -8388608 ≤ x) (k : x ≤ 8388607) : sat24 x = x := by unfold sat24; omega

theorem clampNat_range {lo hi : Nat} (h : lo ≤ hi) (v : Nat) : lo ≤ clampNat lo hi v ∧ clampNat lo hi v ≤ hi := by
  unfold clampNat; omega

theorem bump_le {top n : Nat} : bump top n ≤ top := by unfold bump; omega

theorem halfAt_be16 (h : Half) (rest : List Byte) : halfAt (be16 h ++ rest) 0 = h := by
  simp only [halfAt, byteAt, be16, List.cons_append, List.nil_append, List.getD_cons_zero, List.getD_cons_succ]
  rw [BitVec.extractLsb'_append_extractLsb'_eq_extractLsb' (by rfl)]
  simp

theorem be32_join (w : Word) : (w.extractLsb' 24 8 ++ w.extractLsb' 16 8) ++
    (w.extractLsb' 8 8 ++ w.extractLsb' 0 8) = w := by
  rw [BitVec.extractLsb'_append_extractLsb'_eq_extractLsb' (by rfl),
    BitVec.extractLsb'_append_extractLsb'_eq_extractLsb' (by rfl),
    BitVec.extractLsb'_append_extractLsb'_eq_extractLsb' (by rfl)]
  simp

theorem wordAt_be32 (w : Word) (rest : List Byte) : wordAt (be32 w ++ rest) 0 = w := by
  simp only [wordAt, halfAt, byteAt, be32, List.cons_append, List.nil_append, List.getD_cons_zero,
    List.getD_cons_succ, Nat.zero_add]
  exact be32_join w

theorem wordsOf_be32 (ws : List Word) : wordsOf (ws.flatMap be32) = some ws := by
  induction ws with
  | nil => rfl
  | cons w rest ih =>
    simp only [List.flatMap_cons, be32, List.cons_append, List.nil_append, wordsOf, Option.map_eq_some_iff]
    exact ⟨rest, ih, by rw [be32_join]⟩

end Machine

end Sys2Proof
end

