-- ==== Sys2Proof/Laws/AlertEnd.lean ====
section
/-! SUPPORT. What the cut of an airing and the end of an own-origin record do: `cutAiring` satisfies `AiringCut`, and
`endAlert` satisfies `AlertEnded`. -/

namespace Sys2Proof.Machine

/-- What handing a control frame may change: the queue, and with a full queue the dropped frame's notices, its request
and the mark on its record. -/
structure Handed (s t : State) : Prop where
  frame : t = { s with cp := t.cp, tx := t.tx, ku := { s.ku with requests := t.ku.requests }
                       au := { s.au with table := t.au.table } }
  ids : t.au.table.map Alert.id = s.au.table.map Alert.id
  clips : t.au.table.map Alert.clip = s.au.table.map Alert.clip

theorem Handed.refl (s : State) : Handed s s := ⟨rfl, rfl, rfl⟩

theorem Handed.trans {a b c : State} (h : Handed a b) (k : Handed b c) : Handed a c :=
  ⟨by rw [k.frame, h.frame], by rw [k.ids, h.ids], by rw [k.clips, h.clips]⟩

theorem handed_end (tag : Half) (o : RequestOutcome) (after : Option Nat) (s : State) :
    Handed s (endRequest tag o after s) := by
  unfold endRequest
  split
  · exact Handed.refl s
  · exact ⟨rfl, rfl, rfl⟩

theorem handed_owe (id : Nat) (s : State) : Handed s (oweAlertFrame id s) := by
  refine ⟨rfl, ?_, ?_⟩ <;>
  · simp only [oweAlertFrame, List.map_map]
    refine List.map_congr_left fun a _ => ?_
    simp only [Function.comp]; split <;> rfl

theorem handed_drop (f : ControlFrame) (why : DropReason) (s : State) : Handed s (dropFrame f why s) := by
  unfold dropFrame
  dsimp only
  have h : Handed s (post .controlDropped [word (controlKind f.body), wordOpt f.tag?, word why.ctorIdx] s) := ⟨rfl, rfl, rfl⟩
  split
  · exact h.trans (handed_end _ _ _ _)
  · split
    · exact h
    · exact h.trans (handed_owe _ _)
  · exact h

theorem handed_control (b : ControlBody) (s : State) : Handed s (handControl b s) := by
  unfold handControl
  split
  · exact ⟨rfl, rfl, rfl⟩
  · split
    · exact ⟨rfl, rfl, rfl⟩
    · split
      · refine Handed.trans (b := queueControl b { s with tx := { s.tx with control := s.tx.control.dropLast } }) ⟨rfl, rfl, rfl⟩ (handed_drop _ _ _)
      · exact handed_drop _ _ _

theorem handed_ended (r : Alert) (reason : EndReason) (s : State) : Handed s (handEnded r reason s) := by
  unfold handEnded; split
  · exact handed_control _ _
  · exact Handed.refl s

/-- What letting an airing and its clip go may change. -/
structure LetGo (s t : State) : Prop where
  frame : t = { s with au := { s.au with player := t.au.player }, cs := t.cs
                       me := { s.me with alertEnvelope := t.me.alertEnvelope }, tg := { s.tg with voices := t.tg.voices } }

theorem LetGo.trans {a b c : State} (h : LetGo a b) (k : LetGo b c) : LetGo a c := ⟨by rw [k.frame, h.frame]⟩

theorem letGo_release (c : Fin 256) (s : State) : LetGo s (releaseCapture c s) := ⟨rfl⟩

theorem letGo_idle (s : State) : LetGo s (idleAlertPlayer s) := by
  have h : ∀ (p : Prop) [Decidable p] (a b t : State), LetGo t a → LetGo t b → LetGo t (if p then a else b) := by
    intro p _ a b t ha hb; split <;> assumption
  unfold idleAlertPlayer
  dsimp only
  split
  · refine h _ _ _ _ ?_ ?_
    · refine LetGo.trans ?_ (letGo_release _ _)
      exact h _ _ _ _ ⟨rfl⟩ ⟨rfl⟩
    · exact h _ _ _ _ ⟨rfl⟩ ⟨rfl⟩
  · exact h _ _ _ _ ⟨rfl⟩ ⟨rfl⟩

/-- The state in which the alert player has become IDLE, before its clip is let go. -/
def voiceGiven (s : State) : State :=
  let t := disownFetch .alert (setAlertPlayer { AlertPlayer.reset with underruns := s.au.player.underruns } s)
  if (Tab.at t.tg.voices 0).holder = some .alertUnit then releaseAttentionVoice t else t

theorem voiceGiven_keeps (s : State) : (voiceGiven s).cs.directory = s.cs.directory ∧ (voiceGiven s).cs.fill = s.cs.fill
    ∧ (voiceGiven s).au = { s.au with player := { AlertPlayer.reset with underruns := s.au.player.underruns } }
    ∧ (voiceGiven s).me = s.me ∧ (Tab.at (voiceGiven s).tg.voices 0).holder ≠ some .alertUnit
    ∧ ∀ v, v ≠ 0 → Tab.at (voiceGiven s).tg.voices v = Tab.at s.tg.voices v := by
  unfold voiceGiven
  dsimp only
  split
  · refine ⟨rfl, rfl, rfl, rfl, ?_, fun v hv => ?_⟩
    · simp [releaseAttentionVoice, Voice.release]
    · simp [releaseAttentionVoice, Ne.symm hv, disownFetch, setAlertPlayer]
  · rename_i h
    exact ⟨rfl, rfl, rfl, rfl, h, fun _ _ => rfl⟩

theorem idleAlertPlayer_none {s : State} (h : s.au.player.clip = none) : idleAlertPlayer s = voiceGiven s := by
  simp only [idleAlertPlayer, h]; rfl

theorem idleAlertPlayer_some {s : State} {c : Fin 256} (h : s.au.player.clip = some c) : idleAlertPlayer s
    = if isCapture c && !clipNamed c s then releaseCapture c (voiceGiven s) else voiceGiven s := by
  have e : clipNamed c (voiceGiven s) = clipNamed c s := by simp only [clipNamed, (voiceGiven_keeps s).2.2.1]
  rw [← e]
  simp only [idleAlertPlayer, h]; rfl

/-- What the alert player's becoming IDLE leaves of the player, the envelope and the voices (R149, R150). -/
theorem idleAlertPlayer_leaves (s : State) :
    (idleAlertPlayer s).au = { s.au with player := { AlertPlayer.reset with underruns := s.au.player.underruns } }
    ∧ (idleAlertPlayer s).me = s.me ∧ (Tab.at (idleAlertPlayer s).tg.voices 0).holder ≠ some .alertUnit
    ∧ ∀ v, v ≠ 0 → Tab.at (idleAlertPlayer s).tg.voices v = Tab.at s.tg.voices v := by
  have k := (voiceGiven_keeps s).2.2
  cases h : s.au.player.clip with
  | none => rw [idleAlertPlayer_none h]; exact k
  | some c => rw [idleAlertPlayer_some h]; split <;> exact k

theorem letGo_cut (id : Nat) (s : State) : LetGo s (cutAiring id s) := by
  unfold cutAiring
  dsimp only
  split
  · split
    · exact letGo_idle s
    · split
      · exact ⟨rfl⟩
      · exact ⟨rfl⟩
  · exact ⟨rfl⟩

theorem letGo_clip (c : Option (Fin 256)) (s : State) : LetGo s (dropRecordClip c s) := by
  unfold dropRecordClip
  split
  · exact ⟨rfl⟩
  · split
    · split
      · exact ⟨rfl⟩
      · exact letGo_release _ _
    · split
      · exact ⟨rfl⟩
      · exact ⟨rfl⟩

theorem dropClip_keeps (c : Option (Fin 256)) (s : State) : (dropRecordClip c s).au.player = s.au.player
    ∧ (dropRecordClip c s).me = s.me ∧ (dropRecordClip c s).tg = s.tg := by
  unfold dropRecordClip
  split
  · exact ⟨rfl, rfl, rfl⟩
  · split
    · split <;> exact ⟨rfl, rfl, rfl⟩
    · split <;> exact ⟨rfl, rfl, rfl⟩

theorem alertOf_sole {r : Alert} {s : State} (h : Sole r s) : alertOf s r.id = some r := by
  unfold alertOf
  cases hf : s.au.table.find? (fun x => x.id == r.id) with
  | none =>
    have := List.find?_eq_none.mp hf r h.1
    simp at this
  | some x =>
    have h1 := List.find?_some hf
    have h2 := List.mem_of_find?_eq_some hf
    rw [h.2 x h2 (by simpa using h1)]

theorem releaseCapture_at (c : Fin 256) (s : State) : clipAt (releaseCapture c s) c = { Clip.empty with
    map := (clipAt s c).map, capacity := (clipAt s c).capacity, length := (clipAt s c).capacity } := by
  simp [releaseCapture, clipAt, drainHead, setClip]

theorem releaseCapture_other {c d : Fin 256} (h : d ≠ c) (s : State) : clipAt (releaseCapture c s) d = clipAt s d := by
  simp [releaseCapture, clipAt, drainHead, setClip, Ne.symm h]

/-- `cutAiring` is the cut of R150. -/
theorem airingCut (id : Nat) (s : State) : AiringCut id s (cutAiring id s) := by
  have stop : s.au.player.alert = some id → s.au.player.handed = false → s.au.player.state ≠ .idle →
      cutAiring id s = idleAlertPlayer s := by
    intro h1 h2 h3; simp [cutAiring, h1, h2, h3]
  refine ⟨(letGo_cut id s).frame, ?_, ?_, ?_, ?_⟩
  · rintro (h | h | ⟨h, h'⟩)
    · simp [cutAiring, h]
    · simp [cutAiring, h]
    · simp [cutAiring, h, h']
  · intro h1 h2 h3
    simp only [List.mem_cons, List.not_mem_nil, or_false] at h3
    rcases h3 with h3 | h3 | h3 <;> simp [cutAiring, h1, h2, h3, giveAlertEnvelope, setAlertPlayer]
  · intro h1 h2 h3
    rw [stop h1 h2 h3]
    obtain ⟨a, b, c, d⟩ := idleAlertPlayer_leaves s
    exact ⟨by rw [a], b, c, d⟩
  · intro h1 h2 h3
    rw [stop h1 h2 h3]
    obtain ⟨k1, k2, _⟩ := voiceGiven_keeps s
    refine ⟨fun h => ?_, fun c h => ⟨fun hn => ?_, fun hc hn => ?_⟩⟩
    · rw [idleAlertPlayer_none h]; exact ⟨k1, k2⟩
    · have : (isCapture c && !clipNamed c s) = false := by
        rcases hn with hn | ⟨r, hr, hrc⟩
        · have : isCapture c = false := by simp [isCapture, isProtected]; omega
          simp [this]
        · have : clipNamed c s = true := by simp only [clipNamed, List.any_eq_true, beq_iff_eq]; exact ⟨r, hr, hrc⟩
          simp [this]
      rw [idleAlertPlayer_some h, this]; exact ⟨k1, k2⟩
    · have : (isCapture c && !clipNamed c s) = true := by
        have h1 : isCapture c = true := by simp [isCapture, isProtected]; omega
        have h2 : clipNamed c s = false := by
          rw [Bool.eq_false_iff]; intro hx
          simp only [clipNamed, List.any_eq_true, beq_iff_eq] at hx
          obtain ⟨r, hr, hrc⟩ := hx; exact hn r hr hrc
        simp [h1, h2]
      rw [idleAlertPlayer_some h, this, if_pos rfl, releaseCapture_at]
      simp only [clipAt, k1]

theorem alertEnded (r : Alert) (reason : EndReason) (s : State) (h : Sole r s) :
    AlertEnded r reason s (endAlert r.id reason s) := by
  let a : State := { s with au := { s.au with
    table := s.au.table.filter fun x => x.id != r.id
    recent := if keepsKey reason then joinRecent s.au.recent r.key else s.au.recent } }
  let b := handEnded r reason a
  let c := if r.state = .airing then cutAiring r.id b else b
  let d := dropRecordClip r.clip c
  let e := post .alertEnded [word r.id, r.key, word (reasonCode (some reason))] d
  have he : endAlert r.id reason s = postIf ((reason == .complete || reason == .expired) && !r.confirmed) .alertUnconfirmed [word r.id] e := by
    simp only [endAlert, alertOf_sole h]; rfl
  have hab : Handed a b := handed_ended r reason a
  have hbc : LetGo b c := by simp only [c]; split; exact letGo_cut _ _; exact ⟨rfl⟩
  have hcd : LetGo c d := letGo_clip _ _
  have hbd := hbc.trans hcd
  have hp : ∀ (q : Bool) k l (s : State), postIf q k l s = { s with cp := (postIf q k l s).cp } := by
    intro q k l s; unfold postIf; split <;> rfl
  have hde : e = { d with cp := e.cp } := rfl
  have hbd' := hbd.frame
  have hab' := hab.frame
  have tab : (endAlert r.id reason s).au.table = b.au.table := by rw [he, hp, hde, hbd']
  have room : FrameRoom s → b = if s.lu.state = .joined then queueControl (.alert (alertBody r (some reason))) a else a := by
    intro hr
    simp only [b, handEnded, joined]
    have : (a.lu.state == .joined) = decide (s.lu.state = .joined) := by simp [a]; rfl
    by_cases hj : s.lu.state = .joined
    · have h8 : a.tx.control.length < 8 := hr hj
      simp [this, hj, handControl, h8]
    · simp [this, hj]
  have cpd : d.cp = b.cp := by rw [hbd']
  have clk : d.clock = s.clock := by rw [hbd', hab']
  refine ⟨?_, ?_, ?_, ?_, ?_, ?_, ?_, ?_, ?_, ?_, ?_, ?_, ?_⟩
  · rw [he, hp, hde, hbd', hab']
  · intro x hx
    rw [tab] at hx
    have : x.id ∈ b.au.table.map Alert.id := List.mem_map_of_mem hx
    rw [hab.ids] at this
    simp only [a, List.mem_map, List.mem_filter] at this
    obtain ⟨y, ⟨_, hy⟩, hxy⟩ := this
    rw [← hxy]; simpa using hy
  · have : (endAlert r.id reason s).au.recent = a.au.recent := by rw [he, hp, hde, hbd', hab']
    rw [this]
    cases reason <;> simp [a, keepsKey, joinRecent]
  · intro hr
    have hb := room hr
    refine ⟨?_, ?_, ?_⟩
    · rw [tab, hb]; split <;> rfl
    · have : (endAlert r.id reason s).ku = b.ku := by rw [he, hp, hde, hbd']
      rw [this, hb]; split <;> rfl
    · have : (endAlert r.id reason s).tx = b.tx := by rw [he, hp, hde, hbd']
      rw [this, hb]; split <;> rfl
  · intro hr
    have hb := room hr
    have hcp : b.cp = s.cp := by rw [hb]; split <;> rfl
    have : (endAlert r.id reason s).cp = (postIf ((reason == .complete || reason == .expired) && !r.confirmed) .alertUnconfirmed [word r.id] e).cp := by rw [he]
    rw [this]
    have hecp : e.cp = s.cp.post ⟨.alertEnded, s.clock.blockCount, [word r.id, r.key, word (reason.ctorIdx + 1)]⟩ := by
      simp only [e, post, cpd, hcp, clk, reasonCode]; rfl
    have heck : e.clock = s.clock := clk
    cases reason <;> cases hc : r.confirmed <;> simp [postIf, hecp, post, heck]
  · intro hn
    have hc : c = b := by simp [c, hn]
    have h1 : (endAlert r.id reason s).au.player = b.au.player := by
      rw [he, hp, hde]; show d.au.player = _; simp only [d, hc]; exact (dropClip_keeps _ _).1
    have h2 : (endAlert r.id reason s).me = b.me := by
      rw [he, hp, hde]; show d.me = _; simp only [d, hc]; exact (dropClip_keeps _ _).2.1
    have h3 : (endAlert r.id reason s).tg = b.tg := by
      rw [he, hp, hde]; show d.tg = _; simp only [d, hc]; exact (dropClip_keeps _ _).2.2
    rw [h1, h2, h3, hab']
    exact ⟨rfl, rfl, rfl⟩
  · intro hn h1 h2 h3
    have hbp : b.au.player = s.au.player := by rw [hab']
    have hbm : b.me = s.me := by rw [hab']
    have hbt : b.tg = s.tg := by rw [hab']
    have hc : c = giveAlertEnvelope 0 8 (setAlertPlayer { b.au.player with cutFrom := b.au.player.state, state := .fading } b) := by
      simp only [c, hn, if_true, cutAiring, hbp, h1, h2]
      simp only [List.mem_cons, List.not_mem_nil, or_false] at h3
      rcases h3 with h3 | h3 | h3 <;> simp [h3]
    have k := dropClip_keeps r.clip c
    have e1 : (endAlert r.id reason s).au.player = c.au.player := by rw [he, hp, hde]; exact k.1
    have e2 : (endAlert r.id reason s).me = c.me := by rw [he, hp, hde]; exact k.2.1
    have e3 : (endAlert r.id reason s).tg = c.tg := by rw [he, hp, hde]; exact k.2.2
    rw [e1, e2, e3, hc]
    simp [giveAlertEnvelope, setAlertPlayer, hbp, hbm, hbt]
  · intro hn h1 h2 h3
    have hbp : b.au.player = s.au.player := by rw [hab']
    have hc : c = cutAiring r.id b := by simp only [c, hn, if_true]
    have cut := airingCut r.id b
    rw [← hc] at cut
    obtain ⟨p1, p2, p3, p4⟩ := cut.stops (by rw [hbp]; exact h1) (by rw [hbp]; exact h2) (by rw [hbp]; exact h3)
    have k := dropClip_keeps r.clip c
    have e1 : (endAlert r.id reason s).au.player = c.au.player := by rw [he, hp, hde]; exact k.1
    have e2 : (endAlert r.id reason s).me = c.me := by rw [he, hp, hde]; exact k.2.1
    have e3 : (endAlert r.id reason s).tg = c.tg := by rw [he, hp, hde]; exact k.2.2
    rw [e1, e2, e3, p1, p2, hbp]
    refine ⟨rfl, by rw [hab'], p3, fun v hv => by rw [p4 v hv, hab'], fun cl hcl h252 => ?_⟩
    have hcs : (endAlert r.id reason s).cs = d.cs := by rw [he, hp, hde]
    have hcap : isCapture cl = true := by simp [isCapture, isProtected]; omega
    have hcp : c.au.player.clip = none := by rw [p1]; rfl
    have hd : d = releaseCapture cl c := by
      simp only [d, hcl, dropRecordClip, hcap, if_true, hcp]; simp
    have hat : clipAt (endAlert r.id reason s) cl = clipAt d cl := by simp only [clipAt, hcs]
    rw [hat, hd, releaseCapture_at]
    have hbs : clipAt b cl = clipAt s cl := by simp only [clipAt]; rw [hab']
    have hm : (clipAt c cl).map = (clipAt b cl).map ∧ (clipAt c cl).capacity = (clipAt b cl).capacity := by
      have hci : c = idleAlertPlayer b := by rw [hc]; simp [cutAiring, hbp, h1, h2, h3]
      have kd := (voiceGiven_keeps b).1
      have kv : ∀ x, clipAt (voiceGiven b) x = clipAt b x := by intro x; simp only [clipAt, kd]
      rw [hci]
      cases hpc : b.au.player.clip with
      | none => rw [idleAlertPlayer_none hpc, kv]; exact ⟨rfl, rfl⟩
      | some x =>
        rw [idleAlertPlayer_some hpc]
        split
        · by_cases hx : cl = x
          · subst hx; rw [releaseCapture_at, kv]; exact ⟨rfl, rfl⟩
          · rw [releaseCapture_other hx, kv]; exact ⟨rfl, rfl⟩
        · rw [kv]; exact ⟨rfl, rfl⟩
    rw [hm.1, hm.2, hbs]
  · intro hn h
    have hbp : b.au.player = s.au.player := by rw [hab']
    have hc : c = b := by
      have : c = cutAiring r.id b := by simp only [c, hn, if_true]
      rw [this]; exact (airingCut r.id b).left (by rw [hbp]; exact h)
    have k := dropClip_keeps r.clip c
    have e1 : (endAlert r.id reason s).au.player = c.au.player := by rw [he, hp, hde]; exact k.1
    have e2 : (endAlert r.id reason s).me = c.me := by rw [he, hp, hde]; exact k.2.1
    have e3 : (endAlert r.id reason s).tg = c.tg := by rw [he, hp, hde]; exact k.2.2
    rw [e1, e2, e3, hc, hab']; exact ⟨rfl, rfl, rfl⟩
  · intro cl hn hh hcl h252 hpl
    have hbp : b.au.player = s.au.player := by rw [hab']
    have hcap : isCapture cl = true := by simp [isCapture, isProtected]; omega
    have hcs : (endAlert r.id reason s).cs = d.cs := by rw [he, hp, hde]
    have hbcs : b.cs = s.cs := by rw [hab']
    have hc : c.cs = b.cs ∧ c.au.player.clip = some cl := by
      have : c = cutAiring r.id b := by simp only [c, hn, if_true]
      rw [this]
      unfold cutAiring
      dsimp only
      rw [hbp, hh]
      split
      · simp only [Bool.true_eq_false, if_false]
        split
        · exact ⟨rfl, by rw [hbp]; exact hpl⟩
        · exact ⟨rfl, hpl⟩
      · exact ⟨rfl, by rw [hbp]; exact hpl⟩
    rw [hcs]
    have hd : d = c := by simp only [d, hcl, dropRecordClip, hcap, if_true, hc.2]
    rw [hd, hc.1, hbcs]
  · intro hn hcl
    have hc : c = b := by simp [c, hn]
    have : (endAlert r.id reason s).cs = d.cs := by rw [he, hp, hde]
    rw [this]
    simp only [d, hcl, dropRecordClip, hc]
    rw [hab']
  · intro cl hn hcl h252
    have hc : c = b := by simp [c, hn]
    have hcs : (endAlert r.id reason s).cs = d.cs := by rw [he, hp, hde]
    have hcap : isCapture cl = false := by simp [isCapture, isProtected]; omega
    have hbcs : b.cs = s.cs := by rw [hab']
    have hnamed : clipNamed cl b = true ↔ ∃ x ∈ s.au.table, x.id ≠ r.id ∧ x.clip = some cl := by
      have : clipNamed cl b = decide (some cl ∈ b.au.table.map Alert.clip) := by
        simp only [clipNamed, List.mem_map]
        rw [Bool.eq_iff_iff]; simp
      rw [this, hab.clips]
      simp [a, and_assoc]
    refine ⟨fun h => ?_, fun h => ?_⟩
    · rw [hcs]; simp only [d, hcl, dropRecordClip, hcap, hc]
      simp [hnamed.mpr h, hbcs]
    · have : clipNamed cl b = false := by
        cases hh : clipNamed cl b with
        | false => rfl
        | true =>
          obtain ⟨x, h1, h2, h3⟩ := hnamed.mp hh
          exact absurd h3 (h x h1 h2)
      rw [hcs]; simp only [d, hcl, dropRecordClip, hcap, hc]
      simp [this, setClip, clipAt, hbcs]
  · intro cl hn hcl h252 hpl
    have hc : c = b := by simp [c, hn]
    have hcs : (endAlert r.id reason s).cs = d.cs := by rw [he, hp, hde]
    have hcap : isCapture cl = true := by simp [isCapture, isProtected]; omega
    have hbcs : b.cs = s.cs := by rw [hab']
    have hbp : b.au.player = s.au.player := by rw [hab']
    have hd : d = releaseCapture cl b := by
      simp only [d, hcl, dropRecordClip, hcap, hc, if_true, hbp, hpl, if_false]
    have hat : ∀ x, clipAt (endAlert r.id reason s) x = clipAt d x := by intro x; simp only [clipAt, hcs]
    refine ⟨?_, fun x hx => ?_, ?_, ?_⟩
    · rw [hat, hd]
      simp [releaseCapture, clipAt, drainHead, setClip, hbcs]
    · rw [hat, hd]
      simp [releaseCapture, clipAt, drainHead, setClip, hbcs, Ne.symm hx]
    · rw [hcs, hd]; simp [releaseCapture, drainHead, setClip, hbcs]
    · rw [hcs, hd]; simp [releaseCapture, drainHead, setClip, hbcs]
end Sys2Proof.Machine
end

