-- ==== Sys2Proof/Laws/State.lean ====
section
/-! SUPPORT. What each small update of the state leaves and changes: one lemma for each field it touches, true by
unfolding; and what posting a notice and answering a command do. -/

namespace Sys2Proof.Machine

/-! ## Records of the units -/

@[simp] theorem setPlayer_at (p q : Fin 2) (x : Player) (s : State) :
    playerAt (setPlayer p x s) q = if p = q then x else playerAt s q := Tab.at_put _ _ _ _

@[simp] theorem setPlayer_cues (p : Fin 2) (x : Player) (s : State) : (setPlayer p x s).pu.cues = s.pu.cues := rfl

@[simp] theorem setPlayer_me (p : Fin 2) (x : Player) (s : State) : (setPlayer p x s).me = s.me := rfl

@[simp] theorem setPlayer_cs (p : Fin 2) (x : Player) (s : State) : (setPlayer p x s).cs = s.cs := rfl

@[simp] theorem setLine_at (l k : Fin 3) (x : CallLine) (s : State) :
    lineAt (setLine l x s) k = if l = k then x else lineAt s k := Tab.at_put _ _ _ _

@[simp] theorem setLine_airQueue (l : Fin 3) (x : CallLine) (s : State) :
    (setLine l x s).ku.airQueue = s.ku.airQueue := rfl

@[simp] theorem setLine_tg (l : Fin 3) (x : CallLine) (s : State) : (setLine l x s).tg = s.tg := rfl

@[simp] theorem setClip_at (c d : Fin 256) (x : Clip) (s : State) :
    clipAt (setClip c x s) d = if c = d then x else clipAt s d := Tab.at_put _ _ _ _

@[simp] theorem setClip_owner (c : Fin 256) (x : Clip) (s : State) : (setClip c x s).cs.owner = s.cs.owner := rfl

@[simp] theorem setClip_fill (c : Fin 256) (x : Clip) (s : State) : (setClip c x s).cs.fill = s.cs.fill := rfl

@[simp] theorem setClip_dram (c : Fin 256) (x : Clip) (s : State) : (setClip c x s).dram = s.dram := rfl

@[simp] theorem setDesk_desk (d : Fin 2) (x : DeskSource) (s : State) :
    (setDesk d x s).me.desk = s.me.desk.put d x := rfl

@[simp] theorem setCallerSource_caller (l : Fin 3) (x : CallerSource) (s : State) :
    (setCallerSource l x s).me.caller = s.me.caller.put l x := rfl

@[simp] theorem setPeer_peers (k : Fin 8) (p : Peer) (s : State) : (setPeer k p s).peers = s.peers.put k p := rfl

@[simp] theorem setAlertPlayer_player (x : AlertPlayer) (s : State) : (setAlertPlayer x s).au.player = x := rfl

@[simp] theorem setAlertPlayer_table (x : AlertPlayer) (s : State) :
    (setAlertPlayer x s).au.table = s.au.table := rfl

@[simp] theorem setSitePlayer_player (x : SitePlayer) (s : State) : (setSitePlayer x s).site.player = x := rfl

@[simp] theorem setSitePlayer_alerts (x : SitePlayer) (s : State) :
    (setSitePlayer x s).site.alerts = s.site.alerts := rfl

@[simp] theorem withQueue_pending (s : State) (q : List Instr) : (s.withQueue q).pending = q := rfl

@[simp] theorem withQueue_cp (s : State) (q : List Instr) : (s.withQueue q).cp = s.cp := rfl

/-! ## Notices -/

/-- What a notice does: it changes the Control Port alone. -/
theorem post_eq (k : NoticeKind) (items : List Word) (s : State) :
    post k items s = { s with cp := s.cp.post ⟨k, s.clock.blockCount, items⟩ } := rfl

@[simp] theorem post_clock (k : NoticeKind) (items : List Word) (s : State) : (post k items s).clock = s.clock := rfl

@[simp] theorem post_settings (k : NoticeKind) (items : List Word) (s : State) :
    (post k items s).settings = s.settings := rfl

@[simp] theorem post_lu (k : NoticeKind) (items : List Word) (s : State) : (post k items s).lu = s.lu := rfl

@[simp] theorem post_tx (k : NoticeKind) (items : List Word) (s : State) : (post k items s).tx = s.tx := rfl

@[simp] theorem post_peers (k : NoticeKind) (items : List Word) (s : State) : (post k items s).peers = s.peers := rfl

@[simp] theorem post_cu (k : NoticeKind) (items : List Word) (s : State) : (post k items s).cu = s.cu := rfl

@[simp] theorem post_me (k : NoticeKind) (items : List Word) (s : State) : (post k items s).me = s.me := rfl

@[simp] theorem post_cs (k : NoticeKind) (items : List Word) (s : State) : (post k items s).cs = s.cs := rfl

@[simp] theorem post_dram (k : NoticeKind) (items : List Word) (s : State) : (post k items s).dram = s.dram := rfl

@[simp] theorem post_pu (k : NoticeKind) (items : List Word) (s : State) : (post k items s).pu = s.pu := rfl

@[simp] theorem post_ku (k : NoticeKind) (items : List Word) (s : State) : (post k items s).ku = s.ku := rfl

@[simp] theorem post_au (k : NoticeKind) (items : List Word) (s : State) : (post k items s).au = s.au := rfl

@[simp] theorem post_link (k : NoticeKind) (items : List Word) (s : State) : (post k items s).link = s.link := rfl

@[simp] theorem post_site (k : NoticeKind) (items : List Word) (s : State) : (post k items s).site = s.site := rfl

@[simp] theorem post_tg (k : NoticeKind) (items : List Word) (s : State) : (post k items s).tg = s.tg := rfl

@[simp] theorem post_pending (k : NoticeKind) (items : List Word) (s : State) :
    (post k items s).pending = s.pending := rfl

/-- Posting a notice leaves the port's device, state, slots, flags and routing. -/
@[simp] theorem cp_post_device (cp : ControlPort) (n : Notice) : (cp.post n).device = cp.device := by
  unfold ControlPort.post; split <;> rfl

@[simp] theorem cp_post_port (cp : ControlPort) (n : Notice) : (cp.post n).port = cp.port := by
  unfold ControlPort.post; split <;> rfl

@[simp] theorem cp_post_slot (cp : ControlPort) (n : Notice) : (cp.post n).slot = cp.slot := by
  unfold ControlPort.post; split <;> rfl

@[simp] theorem cp_post_routing (cp : ControlPort) (n : Notice) : (cp.post n).routing = cp.routing := by
  unfold ControlPort.post; split <;> rfl

/-! ## Answers -/

/-- A command that the port is ACTING on is held. -/
theorem Acting.held {s : State} {i : Instr} {m : CommandMessage} (h : Acting s i m) : s.cp.held i = some m := by
  simp [ControlPort.held, h.port, h.slot, h.reads]

/-- A host command acted on by a part that has taken an image: its unit's act, answered (R192, R193). -/
theorem hostCommand_running {s : State} {i : Instr} {m : CommandMessage} (h : Running s i m)
    (act : State → State × Reply) : hostCommand i act s = answer m (act s).2.code (act s).2.data (act s).1 := by
  simp [hostCommand, h.acting.held, h.running, answer]

theorem hostRow_running {s : State} {i : Instr} {m : CommandMessage} (h : Running s i m)
    (act : State → State × Reply) : hostRow i act s = .next (answer m (act s).2.code (act s).2.data (act s).1) := by
  rw [hostRow, hostCommand_running h]

/-- Before configuration a command other than the three is refused (R193). -/
theorem hostRow_unconfigured {s : State} {i : Instr} {m : CommandMessage} (h : Acting s i m)
    (hd : s.cp.device = .unconfigured) (ht : takenUnconfigured i = false) (act : State → State × Reply) :
    hostRow i act s = .next (answer m .notConfigured [] s) := by
  simp [hostRow, hostCommand, h.held, hd, ht, answer, Reply.only]

/-- The three commands taken before configuration are acted on in every device state. -/
theorem hostRow_taken {s : State} {i : Instr} {m : CommandMessage} (h : Acting s i m)
    (ht : takenUnconfigured i = true) (act : State → State × Reply) :
    hostRow i act s = .next (answer m (act s).2.code (act s).2.data (act s).1) := by
  simp [hostRow, hostCommand, h.held, ht, answer]

/-- Where the port is not ACTING on the command there is nothing to act on. -/
theorem hostRow_idle {s : State} {i : Instr} (h : s.cp.held i = none) (act : State → State × Reply) :
    hostRow i act s = .next s := by
  simp [hostRow, hostCommand, h]

end Sys2Proof.Machine
end

