-- ==== Sys2Proof/Laws/SteadyOps.lean ====
section
/-! SUPPORT. The frame of every operation of Sys2Proof/Machine/Ops.lean (see Sys2Proof/Laws/Steady.lean). -/

namespace Sys2Proof.Machine

variable {base : State}

@[simp] theorem count_steady (c : Counter) {s : State} (hs : Steady base s) : Steady base (count c s) := by
  unfold count
  repeat' split
  all_goals simp (maxDischargeDepth := 20) [hs]

@[simp] theorem countTimes_steady (c : Counter) (n : Nat) {s : State} (h : Steady base s) :
    Steady base (countTimes c n s) := by
  induction n generalizing s with
  | zero => exact h
  | succ n ih => exact ih (count_steady c h)

end Sys2Proof.Machine
end

