-- ==== Sys2Proof/Laws/SteadyLineUnit.lean ====
section
/-! SUPPORT. The frame of every operation of Sys2Proof/Machine/LineUnit.lean (see Sys2Proof/Laws/Steady.lean). -/

namespace Sys2Proof.Machine

variable {base : State}

@[simp] theorem endRequest_steady (tag : Half) (o : RequestOutcome) (after : Option Nat)
    {s : State} (hs : Steady base s) :
    Steady base (endRequest tag o after s) := by
  unfold endRequest
  dsimp only
  repeat' split
  all_goals simp (maxDischargeDepth := 20) [hs]

@[simp] theorem oweAlertFrame_steady (id : Nat) {s : State} (hs : Steady base s) :
    Steady base (oweAlertFrame id s) := by
  unfold oweAlertFrame
  dsimp only
  simp (maxDischargeDepth := 20) [hs]

@[simp] theorem dropFrame_steady (f : ControlFrame) (why : DropReason) {s : State} (hs : Steady base s) :
    Steady base (dropFrame f why s) := by
  unfold dropFrame
  dsimp only
  repeat' split
  all_goals simp (maxDischargeDepth := 20) [hs]

@[simp] theorem queueControl_steady (b : ControlBody) {s : State} (hs : Steady base s) :
    Steady base (queueControl b s) := by
  unfold queueControl
  dsimp only
  simp (maxDischargeDepth := 20) [hs]

@[simp] theorem handControl_steady (b : ControlBody) {s : State} (hs : Steady base s) :
    Steady base (handControl b s) := by
  unfold handControl
  dsimp only
  repeat' split
  all_goals simp (maxDischargeDepth := 20) [hs]

@[simp] theorem dropAged_steady {s : State} (hs : Steady base s) : Steady base (dropAged s) := by
  unfold dropAged
  dsimp only
  simp +contextual (maxDischargeDepth := 20) [hs, forEach_steady]

@[simp] theorem ageControl_steady {s : State} (hs : Steady base s) : Steady base (ageControl s) := by
  unfold ageControl
  dsimp only
  simp (maxDischargeDepth := 20) [hs]

@[simp] theorem emptyAudio_steady {s : State} (hs : Steady base s) : Steady base (emptyAudio s) := by
  unfold emptyAudio
  dsimp only
  simp (maxDischargeDepth := 20) [hs]

@[simp] theorem queueAudio_steady (slot : Fin 8) (f : AudioFrame) {s : State} (hs : Steady base s) :
    Steady base (queueAudio slot f s) := by
  unfold queueAudio
  dsimp only
  repeat' split
  all_goals simp (maxDischargeDepth := 20) [hs]

@[simp] theorem offerFrame_steady (offset : Nat) {s : State} (hs : Steady base s) :
    Steady base (offerFrame offset s) := by
  unfold offerFrame
  dsimp only
  repeat' split
  all_goals simp (maxDischargeDepth := 20) [hs]

@[simp] theorem loseArbitration_steady {s : State} (hs : Steady base s) :
    Steady base (loseArbitration s) := by
  unfold loseArbitration
  dsimp only
  repeat' split
  all_goals simp (maxDischargeDepth := 20) [hs]

@[simp] theorem requestSent_steady (tag : Half) {s : State} (hs : Steady base s) :
    Steady base (requestSent tag s) := by
  unfold requestSent
  dsimp only
  simp (maxDischargeDepth := 20) [hs]

@[simp] theorem frameCompleted_steady (b : ControlBody) {s : State} (hs : Steady base s) :
    Steady base (frameCompleted b s) := by
  unfold frameCompleted
  dsimp only
  repeat' split
  all_goals simp (maxDischargeDepth := 20) [hs]

@[simp] theorem completeFrame_steady {s : State} (hs : Steady base s) : Steady base (completeFrame s) := by
  unfold completeFrame
  dsimp only
  repeat' split
  all_goals simp (maxDischargeDepth := 20) [hs]

@[simp] theorem truncateOwn_steady {s : State} (hs : Steady base s) : Steady base (truncateOwn s) := by
  unfold truncateOwn
  dsimp only
  repeat' split
  all_goals simp (maxDischargeDepth := 20) [hs]

@[simp] theorem mismatchOwn_steady {s : State} (hs : Steady base s) : Steady base (mismatchOwn s) := by
  unfold mismatchOwn
  dsimp only
  repeat' split
  all_goals simp (maxDischargeDepth := 20) [hs]

@[simp] theorem truncateReceived_steady (k : Nat) {s : State} (hs : Steady base s) :
    Steady base (truncateReceived k s) := by
  unfold truncateReceived
  dsimp only
  repeat' split
  all_goals simp (maxDischargeDepth := 20) [hs]

@[simp] theorem beginReceiving_steady {s : State} (hs : Steady base s) : Steady base (beginReceiving s) := by
  unfold beginReceiving
  dsimp only
  repeat' split
  all_goals simp (maxDischargeDepth := 20) [hs]

@[simp] theorem endReceiving_steady {s : State} (hs : Steady base s) : Steady base (endReceiving s) := by
  unfold endReceiving
  dsimp only
  simp (maxDischargeDepth := 20) [hs]

@[simp] theorem receiveFrame_steady (passes : Bool) (handOn : State → State)
    (hf : ∀ s, Steady base s → Steady base (handOn s)) {s : State} (h : Steady base s) :
    Steady base (receiveFrame passes handOn s) := by
  unfold receiveFrame
  repeat' split
  · exact hf _ (endReceiving_steady h)
  · exact count_steady _ (endReceiving_steady h)
  · exact h

end Sys2Proof.Machine
end

