-- ==== Sys2Proof/Laws/SteadyTones.lean ====
section
/-! SUPPORT. The frame of every operation of Sys2Proof/Machine/Tones.lean (see Sys2Proof/Laws/Steady.lean). -/

namespace Sys2Proof.Machine

variable {base : State}

@[simp] theorem formVoices_steady {s : State} (hs : Steady base s) : Steady base (formVoices s) := by
  unfold formVoices
  dsimp only
  simp (maxDischargeDepth := 20) [hs]

@[simp] theorem takeAttentionVoice_steady {s : State} (hs : Steady base s) :
    Steady base (takeAttentionVoice s) := by
  unfold takeAttentionVoice
  dsimp only
  simp (maxDischargeDepth := 20) [hs]

@[simp] theorem releaseAttentionVoice_steady {s : State} (hs : Steady base s) :
    Steady base (releaseAttentionVoice s) := by
  unfold releaseAttentionVoice
  dsimp only
  simp (maxDischargeDepth := 20) [hs]

@[simp] theorem grantVoice_steady (v : Fin 4) (h : Holder) {s : State} (hs : Steady base s) :
    Steady base (grantVoice v h s) := by
  unfold grantVoice
  dsimp only
  repeat' split
  all_goals simp (maxDischargeDepth := 20) [hs]

@[simp] theorem requestVoice_steady (h : Holder) {s : State} (hs : Steady base s) :
    Steady base (requestVoice h s) := by
  unfold requestVoice
  dsimp only
  repeat' split
  all_goals simp (maxDischargeDepth := 20) [hs]

@[simp] theorem giveBackVoice_steady (v : Fin 4) {s : State} (hs : Steady base s) :
    Steady base (giveBackVoice v s) := by
  unfold giveBackVoice
  dsimp only
  repeat' split
  all_goals simp (maxDischargeDepth := 20) [hs]

@[simp] theorem withdrawRequest_steady (h : Holder) {s : State} (hs : Steady base s) :
    Steady base (withdrawRequest h s) := by
  unfold withdrawRequest
  dsimp only
  simp (maxDischargeDepth := 20) [hs]

@[simp] theorem startLineUp_steady (route : Word) {s : State} (hs : Steady base s) :
    Steady base (startLineUp route s).1 := by
  unfold startLineUp
  dsimp only
  repeat' split
  all_goals simp (maxDischargeDepth := 20) [hs]

@[simp] theorem endLineUp_steady {s : State} (hs : Steady base s) : Steady base (endLineUp s) := by
  unfold endLineUp
  dsimp only
  repeat' split
  all_goals simp (maxDischargeDepth := 20) [hs]

end Sys2Proof.Machine
end

