-- ==== Sys2Proof/Laws/SteadyContribution.lean ====
section
/-! SUPPORT. The frame of every operation of Sys2Proof/Machine/Contribution.lean (see Sys2Proof/Laws/Steady.lean). -/

namespace Sys2Proof.Machine

variable {base : State}

@[simp] theorem changeEntry_steady (node : Fin 8) (slot : Fin 8) (f : Entry → Entry)
    {s : State} (hs : Steady base s) :
    Steady base (changeEntry node slot f s) := by
  unfold changeEntry
  dsimp only
  simp (maxDischargeDepth := 20) [hs]

@[simp] theorem addEntry_steady (e : Entry) {s : State} (hs : Steady base s) :
    Steady base (addEntry e s) := by
  unfold addEntry
  dsimp only
  simp (maxDischargeDepth := 20) [hs]

@[simp] theorem refuseChannel_steady (node : Fin 8) (slot : Fin 8) {s : State} (hs : Steady base s) :
    Steady base (refuseChannel node slot s) := by
  unfold refuseChannel
  dsimp only
  repeat' split
  all_goals simp (maxDischargeDepth := 20) [hs]

@[simp] theorem takeHeard_steady (f : RxAudio) {s : State} (hs : Steady base s) :
    Steady base (takeHeard f s) := by
  unfold takeHeard
  dsimp only
  repeat' split
  all_goals simp (maxDischargeDepth := 20) [hs]

@[simp] theorem takeOwn_steady (slot : Fin 8) (a : Arrival) {s : State} (hs : Steady base s) :
    Steady base (takeOwn slot a s) := by
  unfold takeOwn
  repeat' split
  all_goals simp (maxDischargeDepth := 20) [hs]

@[simp] theorem removeGone_steady (node : Fin 8) (slot : Fin 8) {s : State} (hs : Steady base s) :
    Steady base (removeGone node slot s) := by
  unfold removeGone
  dsimp only
  repeat' split
  all_goals simp (maxDischargeDepth := 20) [hs]

@[simp] theorem decideAll_steady (closing : Word) {s : State} (hs : Steady base s) :
    Steady base (decideAll closing s) := by
  unfold decideAll
  dsimp only
  simp (maxDischargeDepth := 20) [hs]

@[simp] theorem recomputeTiers_steady {s : State} (hs : Steady base s) : Steady base (recomputeTiers s) := by
  unfold recomputeTiers
  dsimp only
  simp (maxDischargeDepth := 20) [hs]

@[simp] theorem presenceDecision_steady (closing : Word) {s : State} (hs : Steady base s) :
    Steady base (presenceDecision closing s) := by
  unfold presenceDecision
  dsimp only
  simp +contextual (maxDischargeDepth := 20) [hs, forEach_steady]

@[simp] theorem rejoinTable_steady {s : State} (hs : Steady base s) : Steady base (rejoinTable s) := by
  unfold rejoinTable
  dsimp only
  simp (maxDischargeDepth := 20) [hs]

end Sys2Proof.Machine
end

