-- ==== Sys2Proof/Laws/SteadyMixEngine.lean ====
section
/-! SUPPORT. The frame of every operation of Sys2Proof/Machine/MixEngine.lean (see Sys2Proof/Laws/Steady.lean). -/

namespace Sys2Proof.Machine

variable {base : State}

@[simp] theorem setDesk_steady (d : Fin 2) (x : DeskSource) {s : State} (hs : Steady base s) :
    Steady base (setDesk d x s) := by
  unfold setDesk
  dsimp only
  simp (maxDischargeDepth := 20) [hs]

@[simp] theorem setCallerSource_steady (l : Fin 3) (x : CallerSource) {s : State} (hs : Steady base s) :
    Steady base (setCallerSource l x s) := by
  unfold setCallerSource
  dsimp only
  simp (maxDischargeDepth := 20) [hs]

@[simp] theorem noteStop_steady (slot : Fin 8) {s : State} (hs : Steady base s) :
    Steady base (noteStop slot s) := by
  unfold noteStop
  dsimp only
  repeat' split
  all_goals simp (maxDischargeDepth := 20) [hs]

@[simp] theorem stopLineUp_steady {s : State} (hs : Steady base s) : Steady base (stopLineUp s).1 := by
  unfold stopLineUp
  split
  · exact hs
  · dsimp only
    split
    · exact noteStop_steady _ (endLineUp_steady hs)
    · exact endLineUp_steady hs

@[simp] theorem giveDeskGain_steady (d : Fin 2) (gain : Nat) {s : State} (hs : Steady base s) :
    Steady base (giveDeskGain d gain s) := by
  unfold giveDeskGain
  dsimp only
  repeat' split
  all_goals simp (maxDischargeDepth := 20) [hs]

@[simp] theorem giveCallerGain_steady (l : Fin 3) (gain : Nat) {s : State} (hs : Steady base s) :
    Steady base (giveCallerGain l gain s) := by
  unfold giveCallerGain
  dsimp only
  simp (maxDischargeDepth := 20) [hs]

@[simp] theorem setGainCommand_steady (slot : Word) (gain : Word) {s : State} (hs : Steady base s) :
    Steady base (setGainCommand slot gain s).1 := by
  unfold setGainCommand
  repeat' split
  all_goals simp (maxDischargeDepth := 20) [hs]

@[simp] theorem setChannelCommand_steady (slot : Word) (air : Word) (cue : Word)
    {s : State} (hs : Steady base s) :
    Steady base (setChannelCommand slot air cue s).1 := by
  unfold setChannelCommand
  dsimp only
  repeat' split
  all_goals simp (maxDischargeDepth := 20) [hs]

@[simp] theorem setTrimCommand_steady (bus : Word) (trim : Word) {s : State} (hs : Steady base s) :
    Steady base (setTrimCommand bus trim s).1 := by
  unfold setTrimCommand
  dsimp only
  repeat' split
  all_goals simp (maxDischargeDepth := 20) [hs]

@[simp] theorem readMetersCommand_steady {s : State} (hs : Steady base s) :
    Steady base (readMetersCommand s).1 := by
  unfold readMetersCommand
  dsimp only
  repeat' split
  all_goals simp (maxDischargeDepth := 20) [hs]

@[simp] theorem handBlock_steady (slot : Fin 8) (b : SourceBlock) {s : State} (hs : Steady base s) :
    Steady base (handBlock slot b s) := by
  unfold handBlock
  dsimp only
  simp (maxDischargeDepth := 20) [hs]

@[simp] theorem sourceSlot_steady (slot : Fin 8) (b : Option SourceBlock) {s : State} (hs : Steady base s) :
    Steady base (sourceSlot slot b s) := by
  unfold sourceSlot
  dsimp only
  repeat' split
  all_goals simp (maxDischargeDepth := 20) [hs]

@[simp] theorem playerSourceSlot_steady (slot : Fin 8) (b : Option SourceBlock)
    {s : State} (hs : Steady base s) :
    Steady base (playerSourceSlot slot b s) := by
  unfold playerSourceSlot
  dsimp only
  repeat' split
  all_goals simp (maxDischargeDepth := 20) [hs]

@[simp] theorem advanceSources_steady {s : State} (hs : Steady base s) : Steady base (advanceSources s) := by
  unfold advanceSources
  dsimp only
  simp (maxDischargeDepth := 20) [hs]

@[simp] theorem sourceStage_steady (input : BlockInput) (ups : Tab (List Int) 3) (a : Option SourceBlock)
    (b : Option SourceBlock) (alert : Option SourceBlock) {s : State} (hs : Steady base s) :
    Steady base (sourceStage input ups a b alert s) := by
  unfold sourceStage
  dsimp only
  simp +contextual (maxDischargeDepth := 20) [hs, forEach_steady]

@[simp] theorem upConvertAll_steady (input : BlockInput) {s : State} (hs : Steady base s) :
    Steady base (upConvertAll input s).1 := by
  unfold upConvertAll
  dsimp only
  repeat' split
  all_goals simp (maxDischargeDepth := 20) [hs]

@[simp] theorem busStage_steady (input : BlockInput) {s : State} (hs : Steady base s) :
    Steady base (busStage input s) := by
  unfold busStage
  dsimp only
  repeat' split
  all_goals simp (maxDischargeDepth := 20) [hs]

@[simp] theorem becomeSilent_steady {s : State} (hs : Steady base s) : Steady base (becomeSilent s) := by
  unfold becomeSilent
  dsimp only
  repeat' split
  all_goals simp (maxDischargeDepth := 20) [hs]

@[simp] theorem becomeSounding_steady {s : State} (hs : Steady base s) : Steady base (becomeSounding s) := by
  unfold becomeSounding
  dsimp only
  repeat' split
  all_goals simp (maxDischargeDepth := 20) [hs]

@[simp] theorem silenceMonitor_steady {s : State} (hs : Steady base s) : Steady base (silenceMonitor s) := by
  unfold silenceMonitor
  dsimp only
  repeat' split
  all_goals simp (maxDischargeDepth := 20) [hs]

end Sys2Proof.Machine
end

