-- ==== Sys2Proof/Laws/SteadyClipStore.lean ====
section
/-! SUPPORT. The frame of every operation of Sys2Proof/Machine/ClipStore.lean (see Sys2Proof/Laws/Steady.lean). -/

namespace Sys2Proof.Machine

variable {base : State}

@[simp] theorem setClip_steady (c : Fin 256) (d : Clip) {s : State} (hs : Steady base s) :
    Steady base (setClip c d s) := by
  unfold setClip
  dsimp only
  simp (maxDischargeDepth := 20) [hs]

@[simp] theorem ownExtents_steady (l : List (Fin 512)) (o : Option (Fin 256)) {s : State} (hs : Steady base s) :
    Steady base (ownExtents l o s) := by
  unfold ownExtents
  dsimp only
  simp (maxDischargeDepth := 20) [hs]

@[simp] theorem defineClip_steady (clip : Word) (format : Word) (length : Word)
    (extents : List Word) {s : State} (hs : Steady base s) :
    Steady base (defineClip clip format length extents s).1 := by
  unfold defineClip openClip
  dsimp only
  repeat' split
  all_goals simp (maxDischargeDepth := 20) [hs]

@[simp] theorem setClipValues_steady (clip : Word) (trim : Word) (segue : Word)
    {s : State} (hs : Steady base s) :
    Steady base (setClipValues clip trim segue s).1 := by
  unfold setClipValues openClip
  dsimp only
  repeat' split
  all_goals simp (maxDischargeDepth := 20) [hs]

@[simp] theorem deleteClip_steady (clip : Word) {s : State} (hs : Steady base s) :
    Steady base (deleteClip clip s).1 := by
  unfold deleteClip openClip
  dsimp only
  repeat' split
  all_goals simp (maxDischargeDepth := 20) [hs]

@[simp] theorem drainHead_steady {s : State} (hs : Steady base s) : Steady base (drainHead s) := by
  unfold drainHead
  dsimp only
  simp (maxDischargeDepth := 20) [hs]

@[simp] theorem queueBytes_steady (c : Fin 256) (bs : List Byte) {s : State} (hs : Steady base s) :
    Steady base (queueBytes c bs s) := by
  have h := setClip_steady c { clipAt s c with queued := (clipAt s c).queued + bs.length } hs
  exact drainHead_steady ⟨h.pending, h.clock, h.settings, h.posted, h.dram⟩

@[simp] theorem clipData_steady (clip : Word) (offset : Word) (bs : List Byte)
    {s : State} (hs : Steady base s) :
    Steady base (clipData clip offset bs s).1 := by
  unfold clipData
  dsimp only
  repeat' split
  all_goals simp (maxDischargeDepth := 20) [hs]

@[simp] theorem settleSeal_steady (c : Fin 256) {s : State} (hs : Steady base s) :
    Steady base (settleSeal c s) := by
  unfold settleSeal
  dsimp only
  repeat' split
  all_goals simp (maxDischargeDepth := 20) [hs]

@[simp] theorem takeSeal_steady (c : Fin 256) {s : State} (hs : Steady base s) :
    Steady base (takeSeal c s) := by
  unfold takeSeal
  dsimp only
  simp (maxDischargeDepth := 20) [hs]

@[simp] theorem sealClip_steady (clip : Word) {s : State} (hs : Steady base s) :
    Steady base (sealClip clip s).1 := by
  unfold sealClip openClip
  dsimp only
  repeat' split
  all_goals simp (maxDischargeDepth := 20) [hs]

@[simp] theorem grantWrite_steady {s : State} (hs : Steady base s) : Steady base (grantWrite s) := by
  unfold grantWrite
  dsimp only
  repeat' split
  all_goals simp (maxDischargeDepth := 20) [hs]

@[simp] theorem advanceWritten_steady (c : Fin 256) (n : Nat) {s : State} (hs : Steady base s) :
    Steady base (advanceWritten c n s) := by
  unfold advanceWritten
  dsimp only
  simp (maxDischargeDepth := 20) [hs]

theorem writeDram_steady (d : List Host.Cell) (hd : Memory.wf base.dram = true → Memory.wf d = true) (cs : ClipStore)
    {s : State} (hs : Steady base s) : Steady base { s with dram := d, cs := cs } :=
  ⟨hs.pending, hs.clock, hs.settings, hs.posted, hd⟩

@[simp] theorem completeWrite_steady {s : State} (hs : Steady base s) : Steady base (completeWrite s) := by
  unfold completeWrite
  split
  · rename_i marks c bs rest _ _
    refine drainHead_steady ?_
    have hw (cs : ClipStore) : Steady base { s with
        dram := match s.cs.drain with
          | some d => memWriteAll s.dram (writeList d bs)
          | none => s.dram
        cs := cs } := writeDram_steady _ (fun h => by
      split
      · exact memWriteAll_wf _ (hs.dram h)
      · exact hs.dram h) cs hs
    split
    · exact advanceWritten_steady _ _ (hw _)
    · exact hw _
  · exact hs

@[simp] theorem requestFetch_steady (r : Reader) (c : Fin 256) (frame : Nat) (place : Nat)
    {s : State} (hs : Steady base s) :
    Steady base (requestFetch r c frame place s) := by
  unfold requestFetch
  dsimp only
  repeat' split
  all_goals simp (maxDischargeDepth := 20) [hs]

@[simp] theorem closeRequests_steady {s : State} (hs : Steady base s) : Steady base (closeRequests s) :=
  ⟨hs.pending, hs.clock, hs.settings, hs.posted, hs.dram⟩

@[simp] theorem disownFetch_steady (r : Reader) {s : State} (hs : Steady base s) :
    Steady base (disownFetch r s) := by
  unfold disownFetch
  dsimp only
  repeat' split
  all_goals simp (maxDischargeDepth := 20) [hs]

@[simp] theorem grantFetch_steady {s : State} (hs : Steady base s) : Steady base (grantFetch s).1 := by
  unfold grantFetch
  dsimp only
  repeat' split
  all_goals simp (maxDischargeDepth := 20) [hs]

@[simp] theorem finishFetch_steady {s : State} (hs : Steady base s) : Steady base (finishFetch s).1 := by
  unfold finishFetch
  dsimp only
  repeat' split
  all_goals simp (maxDischargeDepth := 20) [hs]

@[simp] theorem openCapture_steady {s : State} (hs : Steady base s) : Steady base (openCapture s).1 := by
  unfold openCapture
  dsimp only
  repeat' split
  all_goals simp (maxDischargeDepth := 20) [hs]

@[simp] theorem closeCapture_steady (c : Fin 256) (length : Nat) {s : State} (hs : Steady base s) :
    Steady base (closeCapture c length s) := by
  unfold closeCapture
  dsimp only
  simp (maxDischargeDepth := 20) [hs]

@[simp] theorem captureBlock_steady (c : Fin 256) (bs : List Byte) {s : State} (hs : Steady base s) :
    Steady base (captureBlock c bs s).1 := by
  unfold captureBlock
  dsimp only
  repeat' split
  all_goals simp (maxDischargeDepth := 20) [hs]

@[simp] theorem releaseCapture_steady (c : Fin 256) {s : State} (hs : Steady base s) :
    Steady base (releaseCapture c s) := by
  unfold releaseCapture
  dsimp only
  simp (maxDischargeDepth := 20) [hs]

@[simp] theorem defineCapture_steady (c : Fin 256) (d : CaptureDef) {s : State} (hs : Steady base s) :
    Steady base (defineCapture c d s) := by
  unfold defineCapture
  dsimp only
  simp (maxDischargeDepth := 20) [hs]

@[simp] theorem setGroup_steady (group : Word) (mode : Word) (clips : List Word) (start : Word)
    {s : State} (hs : Steady base s) :
    Steady base (setGroup group mode clips start s).1 := by
  unfold setGroup
  dsimp only
  repeat' split
  all_goals simp (maxDischargeDepth := 20) [hs]

@[simp] theorem clearGroup_steady (group : Word) {s : State} (hs : Steady base s) :
    Steady base (clearGroup group s).1 := by
  unfold clearGroup
  dsimp only
  repeat' split
  all_goals simp (maxDischargeDepth := 20) [hs]

@[simp] theorem resolveGroup_steady (g : Fin 16) {s : State} (hs : Steady base s) :
    Steady base (resolveGroup g s).1 := by
  unfold resolveGroup
  dsimp only
  simp (maxDischargeDepth := 20) [hs]

end Sys2Proof.Machine
end

