-- ==== Sys2Proof/Laws/SteadyPlayout.lean ====
section
/-! SUPPORT. The frame of every operation of Sys2Proof/Machine/Playout.lean (see Sys2Proof/Laws/Steady.lean). -/

namespace Sys2Proof.Machine

variable {base : State}

@[simp] theorem setPlayer_steady (p : Fin 2) (x : Player) {s : State} (hs : Steady base s) :
    Steady base (setPlayer p x s) := by
  unfold setPlayer
  dsimp only
  simp (maxDischargeDepth := 20) [hs]

@[simp] theorem changeCue_steady (tag : Half) (f : CueEntry → CueEntry) {s : State} (hs : Steady base s) :
    Steady base (changeCue tag f s) := by
  unfold changeCue
  dsimp only
  simp (maxDischargeDepth := 20) [hs]

@[simp] theorem changeOwnCue_steady (p : Fin 2) (f : CueEntry → CueEntry) {s : State} (hs : Steady base s) :
    Steady base (changeOwnCue p f s) := by
  unfold changeOwnCue
  repeat' split
  all_goals simp (maxDischargeDepth := 20) [hs]

@[simp] theorem setOwnCueState_steady (p : Fin 2) (st : CueState) {s : State} (hs : Steady base s) :
    Steady base (setOwnCueState p st s) := by
  unfold setOwnCueState
  simp (maxDischargeDepth := 20) [hs]

@[simp] theorem giveProgramGain_steady (p : Fin 2) (gain : Nat) (length : Nat)
    {s : State} (hs : Steady base s) :
    Steady base (giveProgramGain p gain length s) := by
  unfold giveProgramGain
  dsimp only
  simp (maxDischargeDepth := 20) [hs]

@[simp] theorem givePlayerEnvelope_steady (p : Fin 2) (target : Nat) (length : Nat)
    {s : State} (hs : Steady base s) :
    Steady base (givePlayerEnvelope p target length s) := by
  unfold givePlayerEnvelope
  dsimp only
  simp (maxDischargeDepth := 20) [hs]

@[simp] theorem holdPlayer_steady (airKept : Bool) (p : Fin 2) {s : State} (hs : Steady base s) :
    Steady base (holdPlayer airKept p s) := by
  unfold holdPlayer
  dsimp only
  repeat' split
  all_goals simp (maxDischargeDepth := 20) [hs]

@[simp] theorem takeHold_steady (c : HoldCause) (airKept : Bool) {s : State} (hs : Steady base s) :
    Steady base (takeHold c airKept s) := by
  unfold takeHold
  repeat' split
  all_goals simp (maxDischargeDepth := 20) [hs]

theorem withHold_steady (c : HoldCause) (f : State → State) (hf : ∀ s, Steady base s → Steady base (f s)) {s : State}
    (hs : Steady base s) : Steady base (withHold c f s) := by
  unfold withHold
  dsimp only
  split
  · exact takeHold_steady _ _ (hf s hs)
  · exact hf s hs

@[simp] theorem idlePlayer_steady (p : Fin 2) {s : State} (hs : Steady base s) :
    Steady base (idlePlayer p s) := by
  unfold idlePlayer
  simp (maxDischargeDepth := 20) [hs]

@[simp] theorem applyEndAction_steady (tag : Half) {s : State} (hs : Steady base s) :
    Steady base (applyEndAction tag s) := by
  unfold applyEndAction
  dsimp only
  repeat' split
  all_goals simp (maxDischargeDepth := 20) [hs]

@[simp] theorem postEnded_steady (p : Option (Fin 2)) (tag : Half) (position : Nat) (c : EntryEnd)
    {s : State} (hs : Steady base s) :
    Steady base (postEnded p tag position c s) := by
  unfold postEnded
  simp (maxDischargeDepth := 20) [hs]

@[simp] theorem endEntry_steady (p : Fin 2) (c : EntryEnd) {s : State} (hs : Steady base s) :
    Steady base (endEntry p c s) := by
  unfold endEntry
  dsimp only
  repeat' split
  all_goals simp (maxDischargeDepth := 20) [hs]

@[simp] theorem enterWaiting_steady (p : Fin 2) {s : State} (hs : Steady base s) :
    Steady base (enterWaiting p s) := by
  unfold enterWaiting
  dsimp only
  repeat' split
  all_goals simp (maxDischargeDepth := 20) [hs]

@[simp] theorem releaseEnvelope_steady (p : Fin 2) (b : HoldBehaviour) (fadeIn : Nat)
    {s : State} (hs : Steady base s) :
    Steady base (releaseEnvelope p b fadeIn s) := by
  unfold releaseEnvelope
  repeat' split
  all_goals simp (maxDischargeDepth := 20) [hs]

@[simp] theorem moveToFront_steady (tag : Half) {s : State} (hs : Steady base s) :
    Steady base (moveToFront tag s) := by
  unfold moveToFront
  dsimp only
  repeat' split
  all_goals simp (maxDischargeDepth := 20) [hs]

@[simp] theorem startPlayer_steady (p : Fin 2) (fadeIn : Nat) {s : State} (hs : Steady base s) :
    Steady base (startPlayer p fadeIn s) := by
  unfold startPlayer
  dsimp only
  repeat' split
  all_goals simp (maxDischargeDepth := 20) [hs]

@[simp] theorem startEntry_steady (p : Fin 2) (e : CueEntry) {s : State} (hs : Steady base s) :
    Steady base (startEntry p e s) := by
  unfold startEntry
  dsimp only
  repeat' split
  all_goals simp (maxDischargeDepth := 20) [hs]

@[simp] theorem startIfReady_steady (p : Fin 2) {s : State} (hs : Steady base s) :
    Steady base (startIfReady p s) := by
  unfold startIfReady
  dsimp only
  repeat' split
  all_goals simp (maxDischargeDepth := 20) [hs]

@[simp] theorem makeDue_steady (tag : Half) {s : State} (hs : Steady base s) :
    Steady base (makeDue tag s) := by
  unfold makeDue
  dsimp only
  repeat' split
  all_goals simp (maxDischargeDepth := 20) [hs]

@[simp] theorem remoteStart_steady {s : State} (hs : Steady base s) : Steady base (remoteStart s) := by
  unfold remoteStart
  repeat' split
  all_goals simp (maxDischargeDepth := 20) [hs]

@[simp] theorem dueAtTime_steady (tag : Half) {s : State} (hs : Steady base s) :
    Steady base (dueAtTime tag s) := by
  unfold dueAtTime
  repeat' split
  all_goals simp (maxDischargeDepth := 20) [hs]

@[simp] theorem reachSegue_steady (p : Fin 2) {s : State} (hs : Steady base s) :
    Steady base (reachSegue p s) := by
  unfold reachSegue
  dsimp only
  repeat' split
  all_goals simp (maxDischargeDepth := 20) [hs]

@[simp] theorem beginEnding_steady (p : Fin 2) {s : State} (hs : Steady base s) :
    Steady base (beginEnding p s) := by
  unfold beginEnding
  dsimp only
  repeat' split
  all_goals simp (maxDischargeDepth := 20) [hs]

@[simp] theorem finishEnded_steady (p : Fin 2) {s : State} (hs : Steady base s) :
    Steady base (finishEnded p s) := by
  unfold finishEnded
  dsimp only
  repeat' split
  all_goals simp (maxDischargeDepth := 20) [hs]

@[simp] theorem stopPlaying_steady (p : Fin 2) (c : EntryEnd) {s : State} (hs : Steady base s) :
    Steady base (stopPlaying p c s) := by
  unfold stopPlaying
  dsimp only
  simp (maxDischargeDepth := 20) [hs]

@[simp] theorem completeHoldFade_steady (p : Fin 2) {s : State} (hs : Steady base s) :
    Steady base (completeHoldFade p s) := by
  unfold completeHoldFade
  dsimp only
  repeat' split
  all_goals simp (maxDischargeDepth := 20) [hs]

@[simp] theorem releasePlayer_steady (p : Fin 2) {s : State} (hs : Steady base s) :
    Steady base (releasePlayer p s) := by
  unfold releasePlayer
  dsimp only
  repeat' split
  all_goals simp (maxDischargeDepth := 20) [hs]

@[simp] theorem markFading_steady (p : Fin 2) {s : State} (hs : Steady base s) :
    Steady base (markFading p s) := by
  unfold markFading
  dsimp only
  repeat' split
  all_goals simp (maxDischargeDepth := 20) [hs]

@[simp] theorem releaseLate_steady (p : Fin 2) {s : State} (hs : Steady base s) :
    Steady base (releaseLate p s) := by
  unfold releaseLate
  dsimp only
  repeat' split
  all_goals simp (maxDischargeDepth := 20) [hs]

@[simp] theorem releasePlayers_steady {s : State} (hs : Steady base s) : Steady base (releasePlayers s) := by
  unfold releasePlayers
  dsimp only
  repeat' split
  all_goals simp (maxDischargeDepth := 20) [hs]

@[simp] theorem releaseTick_steady {s : State} (hs : Steady base s) : Steady base (releaseTick s) := by
  unfold releaseTick
  dsimp only
  repeat' split
  all_goals simp (maxDischargeDepth := 20) [hs]

@[simp] theorem resolveSource_steady (src : CueSource) {s : State} (hs : Steady base s) :
    Steady base (resolveSource src s).1 := by
  unfold resolveSource
  repeat' split
  all_goals simp (maxDischargeDepth := 20) [hs]

@[simp] theorem loadEntry_steady (p : Fin 2) (e : CueEntry) {s : State} (hs : Steady base s) :
    Steady base (loadEntry p e s) := by
  unfold loadEntry
  dsimp only
  repeat' split
  all_goals simp (maxDischargeDepth := 20) [hs]

@[simp] theorem playerLoad_steady {s : State} (hs : Steady base s) : Steady base (playerLoad s) := by
  unfold playerLoad
  repeat' split
  all_goals simp (maxDischargeDepth := 20) [hs]

@[simp] theorem settleLoad_steady (p : Fin 2) {s : State} (hs : Steady base s) :
    Steady base (settleLoad p s) := by
  unfold settleLoad
  dsimp only
  repeat' split
  all_goals simp (maxDischargeDepth := 20) [hs]

@[simp] theorem playerFetch_steady (p : Fin 2) {s : State} (hs : Steady base s) :
    Steady base (playerFetch p s) := by
  unfold playerFetch
  dsimp only
  repeat' split
  all_goals simp (maxDischargeDepth := 20) [hs]

@[simp] theorem playerCompletion_steady (p : Fin 2) (f : Fetch) (c : Completion)
    {s : State} (hs : Steady base s) :
    Steady base (playerCompletion p f c s) := by
  unfold playerCompletion
  repeat' split
  all_goals simp (maxDischargeDepth := 20) [hs]

@[simp] theorem laterClip_steady (p : Fin 2) (x : Player) (part : Nat) {s : State} (hs : Steady base s) :
    Steady base (laterClip p x part s) := by
  unfold laterClip
  repeat' split
  all_goals simp (maxDischargeDepth := 20) [hs]

@[simp] theorem noteLow_steady (p : Fin 2) {s : State} (hs : Steady base s) : Steady base (noteLow p s) := by
  unfold noteLow
  dsimp only
  repeat' split
  all_goals simp (maxDischargeDepth := 20) [hs]

@[simp] theorem producePlayer_steady (p : Fin 2) {s : State} (hs : Steady base s) :
    Steady base (producePlayer p s).1 := by
  unfold producePlayer
  dsimp only
  repeat' split
  all_goals simp (maxDischargeDepth := 20) [hs]

@[simp] theorem playoutTick_steady {s : State} (hs : Steady base s) : Steady base (playoutTick s) := by
  unfold playoutTick
  dsimp only
  simp (maxDischargeDepth := 20) [hs]

end Sys2Proof.Machine
end

