-- ==== Sys2Proof/Laws/SteadySeat.lean ====
section
/-! SUPPORT. The frame of every operation of Sys2Proof/Machine/Seat.lean (see Sys2Proof/Laws/Steady.lean). -/

namespace Sys2Proof.Machine

variable {base : State}

@[simp] theorem dropLoad_steady (tag : Half) {s : State} (hs : Steady base s) :
    Steady base (dropLoad tag s) := by
  unfold dropLoad
  repeat' split
  all_goals simp (maxDischargeDepth := 20) [hs]

@[simp] theorem trimWindow_steady {s : State} (hs : Steady base s) : Steady base (trimWindow s) := by
  unfold trimWindow
  simp +contextual (maxDischargeDepth := 20) [hs, forEach_steady]

@[simp] theorem cueInsertCommand_steady (position : Word) (tag : Word) (kind : Word) (source : Word)
    (startMode : Word) (startTime : Word) (gain : Word) (fadeIn : Word) (fadeOut : Word) (tier : Word) (hold : Word) (endAction : Word) {s : State} (hs : Steady base s) :
    Steady base (cueInsertCommand position tag kind source startMode startTime gain fadeIn fadeOut tier hold endAction s).1 := by
  unfold cueInsertCommand
  dsimp only
  repeat' split
  all_goals simp (maxDischargeDepth := 20) [hs]

@[simp] theorem removeFromPlayer_steady (p : Fin 2) (tag : Half) {s : State} (hs : Steady base s) :
    Steady base (removeFromPlayer p tag s) := by
  unfold removeFromPlayer
  dsimp only
  repeat' split
  all_goals simp (maxDischargeDepth := 20) [hs]

@[simp] theorem cueRemoveCommand_steady (tag : Word) {s : State} (hs : Steady base s) :
    Steady base (cueRemoveCommand tag s).1 := by
  unfold cueRemoveCommand onCue
  dsimp only
  repeat' split
  all_goals simp (maxDischargeDepth := 20) [hs]

@[simp] theorem cueMoveCommand_steady (tag : Word) (position : Word) {s : State} (hs : Steady base s) :
    Steady base (cueMoveCommand tag position s).1 := by
  unfold cueMoveCommand onCue
  dsimp only
  repeat' split
  all_goals simp (maxDischargeDepth := 20) [hs]

@[simp] theorem cueGainCommand_steady (tag : Word) (gain : Word) {s : State} (hs : Steady base s) :
    Steady base (cueGainCommand tag gain s).1 := by
  unfold cueGainCommand onCue
  dsimp only
  repeat' split
  all_goals simp (maxDischargeDepth := 20) [hs]

@[simp] theorem playCommand_steady {s : State} (hs : Steady base s) : Steady base (playCommand s).1 := by
  unfold playCommand
  repeat' split
  all_goals simp (maxDischargeDepth := 20) [hs]

@[simp] theorem stopPlayer_steady (p : Fin 2) {s : State} (hs : Steady base s) :
    Steady base (stopPlayer p s) := by
  unfold stopPlayer
  dsimp only
  repeat' split
  all_goals simp (maxDischargeDepth := 20) [hs]

@[simp] theorem stopCommand_steady (tag : Word) {s : State} (hs : Steady base s) :
    Steady base (stopCommand tag s).1 := by
  unfold stopCommand onCue
  dsimp only
  repeat' split
  all_goals simp (maxDischargeDepth := 20) [hs]

@[simp] theorem setSeat_steady (new : SeatState) (c : SeatCause) {s : State} (hs : Steady base s) :
    Steady base (setSeat new c s) := by
  unfold setSeat
  dsimp only
  repeat' split
  all_goals simp (maxDischargeDepth := 20) [hs]

@[simp] theorem holdSeat_steady {s : State} (hs : Steady base s) : Steady base (holdSeat s) := by
  unfold holdSeat
  repeat' split
  all_goals simp (maxDischargeDepth := 20) [hs]

@[simp] theorem yieldSeat_steady {s : State} (hs : Steady base s) : Steady base (yieldSeat s) := by
  unfold yieldSeat
  dsimp only
  repeat' split
  all_goals simp (maxDischargeDepth := 20) [hs]

@[simp] theorem endYield_steady {s : State} (hs : Steady base s) : Steady base (endYield s) := by
  unfold endYield
  repeat' split
  all_goals simp (maxDischargeDepth := 20) [hs]

@[simp] theorem bidTick_steady {s : State} (hs : Steady base s) : Steady base (bidTick s) := by
  unfold bidTick
  dsimp only
  repeat' split
  all_goals simp (maxDischargeDepth := 20) [hs]

@[simp] theorem holdTick_steady {s : State} (hs : Steady base s) : Steady base (holdTick s) := by
  unfold holdTick
  dsimp only
  repeat' split
  all_goals simp (maxDischargeDepth := 20) [hs]

@[simp] theorem standbyTick_steady {s : State} (hs : Steady base s) : Steady base (standbyTick s) := by
  unfold standbyTick
  dsimp only
  repeat' split
  all_goals simp (maxDischargeDepth := 20) [hs]

@[simp] theorem seatTick_steady {s : State} (hs : Steady base s) : Steady base (seatTick s) := by
  unfold seatTick
  dsimp only
  repeat' split
  all_goals simp (maxDischargeDepth := 20) [hs]

@[simp] theorem seatLeavesLine_steady {s : State} (hs : Steady base s) : Steady base (seatLeavesLine s) := by
  unfold seatLeavesLine
  dsimp only
  repeat' split
  all_goals simp (maxDischargeDepth := 20) [hs]

@[simp] theorem seatRejoins_steady {s : State} (hs : Steady base s) : Steady base (seatRejoins s) := by
  unfold seatRejoins
  dsimp only
  repeat' split
  all_goals simp +contextual (maxDischargeDepth := 20) [hs, withHold_steady]

@[simp] theorem seatResetCommand_steady {s : State} (hs : Steady base s) :
    Steady base (seatResetCommand s).1 := by
  unfold seatResetCommand
  dsimp only
  repeat' split
  all_goals simp (maxDischargeDepth := 20) [hs]

@[simp] theorem readPlayerCommand_steady (player : Word) {s : State} (hs : Steady base s) :
    Steady base (readPlayerCommand player s).1 := by
  unfold readPlayerCommand
  dsimp only
  repeat' split
  all_goals simp (maxDischargeDepth := 20) [hs]

end Sys2Proof.Machine
end

