-- ==== Sys2Proof/Laws/SteadyCaller.lean ====
section
/-! SUPPORT. The frame of every operation of Sys2Proof/Machine/Caller.lean (see Sys2Proof/Laws/Steady.lean). -/

namespace Sys2Proof.Machine

variable {base : State}

@[simp] theorem setLine_steady (l : Fin 3) (x : CallLine) {s : State} (hs : Steady base s) :
    Steady base (setLine l x s) := by
  unfold setLine
  dsimp only
  simp (maxDischargeDepth := 20) [hs]

@[simp] theorem postAir_steady (node : Fin 8) (l : Fin 3) (removed : Bool) {s : State} (hs : Steady base s) :
    Steady base (postAir node l removed s) := by
  unfold postAir
  simp (maxDischargeDepth := 20) [hs]

@[simp] theorem airAdd_steady (node : Fin 8) (l : Fin 3) (stamp : Word) {s : State} (hs : Steady base s) :
    Steady base (airAdd node l stamp s) := by
  unfold airAdd
  dsimp only
  repeat' split
  all_goals simp (maxDischargeDepth := 20) [hs]

@[simp] theorem airRemove_steady (node : Fin 8) (l : Fin 3) {s : State} (hs : Steady base s) :
    Steady base (airRemove node l s) := by
  unfold airRemove
  dsimp only
  repeat' split
  all_goals simp (maxDischargeDepth := 20) [hs]

@[simp] theorem airDropOwner_steady (node : Fin 8) {s : State} (hs : Steady base s) :
    Steady base (airDropOwner node s) := by
  unfold airDropOwner
  simp +contextual (maxDischargeDepth := 20) [hs, forEach_steady]

@[simp] theorem airSummary_steady (node : Fin 8) (l : Fin 3) (x : LineSummary)
    {s : State} (hs : Steady base s) :
    Steady base (airSummary node l x s) := by
  unfold airSummary
  dsimp only
  repeat' split
  all_goals simp (maxDischargeDepth := 20) [hs]

@[simp] theorem airAnnounce_steady (node : Fin 8) (b : AnnounceBody) {s : State} (hs : Steady base s) :
    Steady base (airAnnounce node b s) := by
  unfold airAnnounce
  repeat' split
  all_goals simp +contextual (maxDischargeDepth := 20) [hs, forEach_steady]

@[simp] theorem releaseLineVoice_steady (l : Fin 3) {s : State} (hs : Steady base s) :
    Steady base (releaseLineVoice l s) := by
  unfold releaseLineVoice
  dsimp only
  repeat' split
  all_goals simp (maxDischargeDepth := 20) [hs]

@[simp] theorem moveLine_steady (l : Fin 3) (new : CallState) (k : NoticeKind) (c : LineCause)
    (extra : List Word) {s : State} (hs : Steady base s) :
    Steady base (moveLine l new k c extra s) := by
  unfold moveLine
  dsimp only
  repeat' split
  all_goals simp (maxDischargeDepth := 20) [hs]

@[simp] theorem callRings_steady (l : Fin 3) {s : State} (hs : Steady base s) :
    Steady base (callRings l s) := by
  unfold callRings
  dsimp only
  repeat' split
  all_goals simp (maxDischargeDepth := 20) [hs]

@[simp] theorem returnToIdle_steady (l : Fin 3) (k : NoticeKind) (c : LineCause)
    {s : State} (hs : Steady base s) :
    Steady base (returnToIdle l k c s) := by
  unfold returnToIdle
  simp (maxDischargeDepth := 20) [hs]

@[simp] theorem abandonCall_steady (l : Fin 3) {s : State} (hs : Steady base s) :
    Steady base (abandonCall l s) := by
  unfold abandonCall
  dsimp only
  repeat' split
  all_goals simp (maxDischargeDepth := 20) [hs]

@[simp] theorem endDead_steady (l : Fin 3) {s : State} (hs : Steady base s) : Steady base (endDead l s) := by
  unfold endDead
  dsimp only
  repeat' split
  all_goals simp (maxDischargeDepth := 20) [hs]

@[simp] theorem endClearing_steady (l : Fin 3) {s : State} (hs : Steady base s) :
    Steady base (endClearing l s) := by
  unfold endClearing
  dsimp only
  repeat' split
  all_goals simp (maxDischargeDepth := 20) [hs]

@[simp] theorem loseCaller_steady (l : Fin 3) {s : State} (hs : Steady base s) :
    Steady base (loseCaller l s) := by
  unfold loseCaller
  dsimp only
  repeat' split
  all_goals simp (maxDischargeDepth := 20) [hs]

@[simp] theorem completeCheck_steady (l : Fin 3) {s : State} (hs : Steady base s) :
    Steady base (completeCheck l s) := by
  unfold completeCheck
  dsimp only
  repeat' split
  all_goals simp (maxDischargeDepth := 20) [hs]

@[simp] theorem acceptLineInput_steady (l : Fin 3) (c : Contact) {s : State} (hs : Steady base s) :
    Steady base (acceptLineInput l c s) := by
  unfold acceptLineInput
  dsimp only
  repeat' split
  all_goals simp (maxDischargeDepth := 20) [hs]

@[simp] theorem sampleLine_steady (input : BlockInput) (l : Fin 3) {s : State} (hs : Steady base s) :
    Steady base (sampleLine input l s) := by
  unfold sampleLine
  dsimp only
  simp (maxDischargeDepth := 20) [hs]

@[simp] theorem timerTick_steady (l : Fin 3) (before : CallState) {s : State} (hs : Steady base s) :
    Steady base (timerTick l before s) := by
  unfold timerTick
  dsimp only
  repeat' split
  all_goals simp (maxDischargeDepth := 20) [hs]

@[simp] theorem loopTick_steady (l : Fin 3) (before : CallState) {s : State} (hs : Steady base s) :
    Steady base (loopTick l before s) := by
  unfold loopTick
  dsimp only
  repeat' split
  all_goals simp (maxDischargeDepth := 20) [hs]

@[simp] theorem checkTick_steady (l : Fin 3) (held : Bool) (ups : List Int) {s : State} (hs : Steady base s) :
    Steady base (checkTick l held ups s) := by
  unfold checkTick
  dsimp only
  repeat' split
  all_goals simp (maxDischargeDepth := 20) [hs]

@[simp] theorem readyTick_steady (l : Fin 3) (before : CallState) {s : State} (hs : Steady base s) :
    Steady base (readyTick l before s) := by
  unfold readyTick
  dsimp only
  repeat' split
  all_goals simp (maxDischargeDepth := 20) [hs]

@[simp] theorem lineTick_steady (before : CallLine) (input : BlockInput) (ups : Tab (List Int) 3)
    (l : Fin 3) {s : State} (hs : Steady base s) :
    Steady base (lineTick before input ups l s) := by
  unfold lineTick
  dsimp only
  simp (maxDischargeDepth := 20) [hs]

@[simp] theorem noAnswer_steady (tag : Half) {s : State} (hs : Steady base s) :
    Steady base (noAnswer tag s) := by
  unfold noAnswer
  repeat' split
  all_goals simp (maxDischargeDepth := 20) [hs]

@[simp] theorem requestTick_steady {s : State} (hs : Steady base s) : Steady base (requestTick s) := by
  unfold requestTick
  dsimp only
  simp +contextual (maxDischargeDepth := 20) [hs, forEach_steady]

@[simp] theorem requeueOwn_steady {s : State} (hs : Steady base s) : Steady base (requeueOwn s) := by
  unfold requeueOwn
  dsimp only
  repeat' split
  all_goals simp +contextual (maxDischargeDepth := 20) [hs, ite_steady, forEach_steady]

@[simp] theorem callerTick_steady (input : BlockInput) (ups : Tab (List Int) 3)
    {s : State} (hs : Steady base s) :
    Steady base (callerTick input ups s) := by
  unfold callerTick
  dsimp only
  repeat' split
  all_goals simp +contextual (maxDischargeDepth := 20) [hs, forEach_steady]

@[simp] theorem answerLineCommand_steady (line : Word) {s : State} (hs : Steady base s) :
    Steady base (answerLineCommand line s).1 := by
  unfold answerLineCommand ownLine
  dsimp only
  repeat' split
  all_goals simp (maxDischargeDepth := 20) [hs]

@[simp] theorem screeningMove_steady (target : CallState) (line : Word) {s : State} (hs : Steady base s) :
    Steady base (screeningMove target line s).1 := by
  unfold screeningMove ownLine
  dsimp only
  repeat' split
  all_goals simp (maxDischargeDepth := 20) [hs]

@[simp] theorem actTake_steady (l : Fin 3) (c : LineCause) {s : State} (hs : Steady base s) :
    Steady base (actTake l c s).1 := by
  unfold actTake
  repeat' split
  all_goals simp (maxDischargeDepth := 20) [hs]

@[simp] theorem actDrop_steady (l : Fin 3) (c : LineCause) {s : State} (hs : Steady base s) :
    Steady base (actDrop l c s).1 := by
  unfold actDrop
  repeat' split
  all_goals simp (maxDischargeDepth := 20) [hs]

@[simp] theorem actHangUp_steady (l : Fin 3) (c : LineCause) {s : State} (hs : Steady base s) :
    Steady base (actHangUp l c s).1 := by
  unfold actHangUp
  repeat' split
  all_goals simp (maxDischargeDepth := 20) [hs]

@[simp] theorem actOn_steady (v : Verb) (l : Fin 3) (c : LineCause) {s : State} (hs : Steady base s) :
    Steady base (actOn v l c s).1 := by
  unfold actOn
  repeat' split
  all_goals simp (maxDischargeDepth := 20) [hs]

@[simp] theorem makeRequest_steady (v : Verb) (target : Fin 8) (item : Nat) (argument : Nat)
    {s : State} (hs : Steady base s) :
    Steady base (makeRequest v target item argument s).1 := by
  unfold makeRequest
  dsimp only
  repeat' split
  all_goals simp (maxDischargeDepth := 20) [hs]

@[simp] theorem actOrAsk_steady (v : Verb) (node : Fin 8) (l : Fin 3) {s : State} (hs : Steady base s) :
    Steady base (actOrAsk v node l s).1 := by
  unfold actOrAsk
  dsimp only
  repeat' split
  all_goals simp (maxDischargeDepth := 20) [hs]

@[simp] theorem callerCommand_steady (v : Verb) (node : Word) (line : Word) {s : State} (hs : Steady base s) :
    Steady base (callerCommand v node line s).1 := by
  unfold callerCommand ownLine
  dsimp only
  repeat' split
  all_goals simp (maxDischargeDepth := 20) [hs]

@[simp] theorem takeNextCommand_steady {s : State} (hs : Steady base s) :
    Steady base (takeNextCommand s).1 := by
  unfold takeNextCommand
  repeat' split
  all_goals simp (maxDischargeDepth := 20) [hs]

@[simp] theorem judgeRequest_steady (node : Fin 8) (r : RequestBody) {s : State} (hs : Steady base s) :
    Steady base (judgeRequest node r s).1 := by
  unfold judgeRequest
  dsimp only
  repeat' split
  all_goals simp (maxDischargeDepth := 20) [hs]

@[simp] theorem takeRequest_steady (node : Fin 8) (r : RequestBody) {s : State} (hs : Steady base s) :
    Steady base (takeRequest node r s) := by
  unfold takeRequest
  dsimp only
  repeat' split
  all_goals simp (maxDischargeDepth := 20) [hs]

@[simp] theorem takeAnswer_steady (node : Fin 8) (b : AnswerBody) {s : State} (hs : Steady base s) :
    Steady base (takeAnswer node b s) := by
  unfold takeAnswer
  repeat' split
  all_goals simp (maxDischargeDepth := 20) [hs]

@[simp] theorem askRemoteOutput_steady (output : Word) (level : Word) {s : State} (hs : Steady base s) :
    Steady base (askRemoteOutput output level s).1 := by
  unfold askRemoteOutput
  repeat' split
  all_goals simp (maxDischargeDepth := 20) [hs]

@[simp] theorem callerRejoins_steady {s : State} (hs : Steady base s) : Steady base (callerRejoins s) := by
  unfold callerRejoins
  dsimp only
  simp +contextual (maxDischargeDepth := 20) [hs, forEach_steady]

end Sys2Proof.Machine
end

