-- ==== Sys2Proof/Laws/SteadyAlert.lean ====
section
/-! SUPPORT. The frame of every operation of Sys2Proof/Machine/Alert.lean (see Sys2Proof/Laws/Steady.lean). -/

namespace Sys2Proof.Machine

variable {base : State}

@[simp] theorem changeAlert_steady (id : Nat) (f : Alert → Alert) {s : State} (hs : Steady base s) :
    Steady base (changeAlert id f s) := by
  unfold changeAlert
  dsimp only
  simp (maxDischargeDepth := 20) [hs]

@[simp] theorem setAlertPlayer_steady (x : AlertPlayer) {s : State} (hs : Steady base s) :
    Steady base (setAlertPlayer x s) := by
  unfold setAlertPlayer
  dsimp only
  simp (maxDischargeDepth := 20) [hs]

@[simp] theorem handAlertFrame_steady (id : Nat) {s : State} (hs : Steady base s) :
    Steady base (handAlertFrame id s) := by
  unfold handAlertFrame
  repeat' split
  all_goals simp (maxDischargeDepth := 20) [hs]

@[simp] theorem handEnded_steady (r : Alert) (reason : EndReason) {s : State} (hs : Steady base s) :
    Steady base (handEnded r reason s) := by
  unfold handEnded
  repeat' split
  all_goals simp (maxDischargeDepth := 20) [hs]

@[simp] theorem assignClip_steady (c : Option (Fin 256)) {s : State} (hs : Steady base s) :
    Steady base (assignClip c s) := by
  unfold assignClip
  dsimp only
  repeat' split
  all_goals simp (maxDischargeDepth := 20) [hs]

@[simp] theorem dropRecordClip_steady (c : Option (Fin 256)) {s : State} (hs : Steady base s) :
    Steady base (dropRecordClip c s) := by
  unfold dropRecordClip
  dsimp only
  repeat' split
  all_goals simp (maxDischargeDepth := 20) [hs]

@[simp] theorem idleAlertPlayer_steady {s : State} (hs : Steady base s) :
    Steady base (idleAlertPlayer s) := by
  unfold idleAlertPlayer
  dsimp only
  repeat' split
  all_goals simp (maxDischargeDepth := 20) [hs]

@[simp] theorem giveAlertEnvelope_steady (target : Nat) (length : Nat) {s : State} (hs : Steady base s) :
    Steady base (giveAlertEnvelope target length s) := by
  unfold giveAlertEnvelope
  dsimp only
  simp (maxDischargeDepth := 20) [hs]

@[simp] theorem cutAiring_steady (id : Nat) {s : State} (hs : Steady base s) :
    Steady base (cutAiring id s) := by
  unfold cutAiring
  dsimp only
  repeat' split
  all_goals simp (maxDischargeDepth := 20) [hs]

@[simp] theorem endAlert_steady (id : Nat) (reason : EndReason) {s : State} (hs : Steady base s) :
    Steady base (endAlert id reason s) := by
  unfold endAlert
  dsimp only
  repeat' split
  all_goals simp (maxDischargeDepth := 20) [hs]

@[simp] theorem removeAlert_steady (id : Nat) {s : State} (hs : Steady base s) :
    Steady base (removeAlert id s) := by
  unfold removeAlert
  dsimp only
  simp (maxDischargeDepth := 20) [hs]

@[simp] theorem displaceAlert_steady (r : Alert) (admitted : Nat) {s : State} (hs : Steady base s) :
    Steady base (displaceAlert r admitted s) := by
  unfold displaceAlert
  repeat' split
  all_goals simp (maxDischargeDepth := 20) [hs]

@[simp] theorem addAlert_steady (r : Alert) {s : State} (hs : Steady base s) :
    Steady base (addAlert r s) := by
  unfold addAlert
  dsimp only
  simp (maxDischargeDepth := 20) [hs]

@[simp] theorem admitAlert_steady (r : Alert) {s : State} (hs : Steady base s) :
    Steady base (admitAlert r s).1 := by
  unfold admitAlert
  repeat' split
  all_goals simp (maxDischargeDepth := 20) [hs]

@[simp] theorem takeAlertId_steady (q : Byte) {s : State} (hs : Steady base s) : Steady base (takeAlertId q s) := by
  unfold takeAlertId
  dsimp only
  simp (maxDischargeDepth := 20) [hs]

@[simp] theorem dropAlert_steady (key : Word) (c : AlertClass) {s : State} (hs : Steady base s) :
    Steady base (dropAlert key c s) := by
  unfold dropAlert
  simp (maxDischargeDepth := 20) [hs]

@[simp] theorem receiverError_steady {s : State} (hs : Steady base s) : Steady base (receiverError s) := by
  unfold receiverError
  dsimp only
  simp (maxDischargeDepth := 20) [hs]

@[simp] theorem openRecordCapture_steady (id : Nat) {s : State} (hs : Steady base s) :
    Steady base (openRecordCapture id s) := by
  unfold openRecordCapture
  dsimp only
  repeat' split
  all_goals simp (maxDischargeDepth := 20) [hs]

@[simp] theorem takeBegin_steady (key : Word) (c : AlertClass) (duration : Nat) (repeats : Nat)
    {s : State} (hs : Steady base s) :
    Steady base (takeBegin key c duration repeats s) := by
  unfold takeBegin
  dsimp only
  repeat' split
  all_goals simp (maxDischargeDepth := 20) [hs]

@[simp] theorem captureClosed_steady (id : Nat) (truncated : Bool) {s : State} (hs : Steady base s) :
    Steady base (captureClosed id truncated s) := by
  unfold captureClosed
  dsimp only
  repeat' split
  all_goals simp (maxDischargeDepth := 20) [hs]

@[simp] theorem takeEnd_steady (key : Word) {s : State} (hs : Steady base s) :
    Steady base (takeEnd key s) := by
  unfold takeEnd
  repeat' split
  all_goals simp (maxDischargeDepth := 20) [hs]

@[simp] theorem takeCancel_steady (key : Word) {s : State} (hs : Steady base s) :
    Steady base (takeCancel key s) := by
  unfold takeCancel
  repeat' split
  all_goals simp (maxDischargeDepth := 20) [hs]

@[simp] theorem takeMessage_steady (m : ReceiverMessage) {s : State} (hs : Steady base s) :
    Steady base (takeMessage m s) := by
  unfold takeMessage
  repeat' split
  all_goals simp (maxDischargeDepth := 20) [hs]

@[simp] theorem receiverByte_steady (b : Byte) {s : State} (hs : Steady base s) :
    Steady base (receiverByte b s) := by
  unfold receiverByte
  dsimp only
  repeat' split
  all_goals simp (maxDischargeDepth := 20) [hs]

@[simp] theorem receiverBytes_steady (bs : List Byte) {s : State} (hs : Steady base s) :
    Steady base (receiverBytes bs s) := by
  unfold receiverBytes
  repeat' split
  all_goals simp +contextual (maxDischargeDepth := 20) [hs, forEach_steady]

@[simp] theorem receiverTimeout_steady {s : State} (hs : Steady base s) :
    Steady base (receiverTimeout s) := by
  unfold receiverTimeout
  dsimp only
  repeat' split
  all_goals simp (maxDischargeDepth := 20) [hs]

@[simp] theorem framerTick_steady {s : State} (hs : Steady base s) : Steady base (framerTick s) := by
  unfold framerTick
  dsimp only
  repeat' split
  all_goals simp (maxDischargeDepth := 20) [hs]

@[simp] theorem captureTick_steady (input : BlockInput) (id : Nat) {s : State} (hs : Steady base s) :
    Steady base (captureTick input id s) := by
  unfold captureTick
  dsimp only
  repeat' split
  all_goals simp (maxDischargeDepth := 20) [hs]

@[simp] theorem alertIssueCommand_steady (cls : Word) (repeats : Word) (clip : Word) (key : Word)
    {s : State} (hs : Steady base s) :
    Steady base (alertIssueCommand cls repeats clip key s).1 := by
  unfold alertIssueCommand
  dsimp only
  repeat' split
  all_goals simp (maxDischargeDepth := 20) [hs]

@[simp] theorem alertCancelCommand_steady (id : Word) {s : State} (hs : Steady base s) :
    Steady base (alertCancelCommand id s).1 := by
  unfold alertCancelCommand
  repeat' split
  all_goals simp (maxDischargeDepth := 20) [hs]

@[simp] theorem takeSiteBegin_steady (key : Word) (c : AlertClass) {s : State} (hs : Steady base s) :
    Steady base (takeSiteBegin key c s) := by
  unfold takeSiteBegin
  dsimp only
  repeat' split
  all_goals simp (maxDischargeDepth := 20) [hs]

@[simp] theorem takeSiteCancel_steady (key : Word) {s : State} (hs : Steady base s) :
    Steady base (takeSiteCancel key s) := by
  unfold takeSiteCancel
  repeat' split
  all_goals simp (maxDischargeDepth := 20) [hs]

@[simp] theorem takeSiteEvent_steady (e : BackEvent) {s : State} (hs : Steady base s) :
    Steady base (takeSiteEvent e s) := by
  unfold takeSiteEvent
  repeat' split
  all_goals simp (maxDischargeDepth := 20) [hs]

@[simp] theorem yieldTest_steady (b : AlertBody) {s : State} (hs : Steady base s) :
    Steady base (yieldTest b s) := by
  unfold yieldTest
  dsimp only
  repeat' split
  all_goals simp (maxDischargeDepth := 20) [hs]

@[simp] theorem admitHeard_steady (b : AlertBody) {s : State} (hs : Steady base s) :
    Steady base (admitHeard b s) := by
  unfold admitHeard
  dsimp only
  repeat' split
  all_goals simp (maxDischargeDepth := 20) [hs]

@[simp] theorem settleDuplicate_steady (r : Alert) (b : AlertBody) {s : State} (hs : Steady base s) :
    Steady base (settleDuplicate r b s) := by
  unfold settleDuplicate
  repeat' split
  all_goals simp (maxDischargeDepth := 20) [hs]

@[simp] theorem takeUnknown_steady (b : AlertBody) {s : State} (hs : Steady base s) :
    Steady base (takeUnknown b s) := by
  unfold takeUnknown
  repeat' split
  all_goals simp (maxDischargeDepth := 20) [hs]

@[simp] theorem takeEnded_steady (b : AlertBody) {s : State} (hs : Steady base s) :
    Steady base (takeEnded b s) := by
  unfold takeEnded
  dsimp only
  repeat' split
  all_goals simp (maxDischargeDepth := 20) [hs]

@[simp] theorem trackAlert_steady (b : AlertBody) {s : State} (hs : Steady base s) :
    Steady base (trackAlert b s) := by
  unfold trackAlert
  repeat' split
  all_goals simp (maxDischargeDepth := 20) [hs]

@[simp] theorem takeAlertFrame_steady (b : AlertBody) {s : State} (hs : Steady base s) :
    Steady base (takeAlertFrame b s) := by
  unfold takeAlertFrame
  repeat' split
  all_goals simp (maxDischargeDepth := 20) [hs]

@[simp] theorem endHeard_steady (id : Nat) (why : HeardEnd) {s : State} (hs : Steady base s) :
    Steady base (endHeard id why s) := by
  unfold endHeard
  simp (maxDischargeDepth := 20) [hs]

@[simp] theorem silentRemoval_steady (id : Nat) {s : State} (hs : Steady base s) :
    Steady base (silentRemoval id s) := by
  unfold silentRemoval
  repeat' split
  all_goals simp (maxDischargeDepth := 20) [hs]

@[simp] theorem loseOrigin_steady (node : Fin 8) {s : State} (hs : Steady base s) :
    Steady base (loseOrigin node s) := by
  unfold loseOrigin
  simp +contextual (maxDischargeDepth := 20) [hs, forEach_steady]

@[simp] theorem refreshFrame_steady (id : Nat) {s : State} (hs : Steady base s) :
    Steady base (refreshFrame id s) := by
  unfold refreshFrame
  repeat' split
  all_goals simp (maxDischargeDepth := 20) [hs]

@[simp] theorem alertJoins_steady {s : State} (hs : Steady base s) : Steady base (alertJoins s) := by
  unfold alertJoins
  simp +contextual (maxDischargeDepth := 20) [hs, forEach_steady]

@[simp] theorem alertRejoins_steady {s : State} (hs : Steady base s) : Steady base (alertRejoins s) := by
  unfold alertRejoins
  dsimp only
  simp (maxDischargeDepth := 20) [hs]

@[simp] theorem confirmAlert_steady (id : Nat) {s : State} (hs : Steady base s) :
    Steady base (confirmAlert id s) := by
  unfold confirmAlert
  repeat' split
  all_goals simp (maxDischargeDepth := 20) [hs]

@[simp] theorem beginAiring_steady (r : Alert) {s : State} (hs : Steady base s) :
    Steady base (beginAiring r s) := by
  unfold beginAiring
  dsimp only
  simp (maxDischargeDepth := 20) [hs]

@[simp] theorem startAlert_steady {s : State} (hs : Steady base s) : Steady base (startAlert s) := by
  unfold startAlert
  repeat' split
  all_goals simp (maxDischargeDepth := 20) [hs]

@[simp] theorem startTick_steady {s : State} (hs : Steady base s) : Steady base (startTick s) := by
  unfold startTick
  repeat' split
  all_goals simp (maxDischargeDepth := 20) [hs]

@[simp] theorem completeAiring_steady (id : Nat) {s : State} (hs : Steady base s) :
    Steady base (completeAiring id s) := by
  unfold completeAiring
  dsimp only
  repeat' split
  all_goals simp (maxDischargeDepth := 20) [hs]

@[simp] theorem endAttention_steady {s : State} (hs : Steady base s) : Steady base (endAttention s) := by
  unfold endAttention
  dsimp only
  repeat' split
  all_goals simp (maxDischargeDepth := 20) [hs]

@[simp] theorem endGap_steady {s : State} (hs : Steady base s) : Steady base (endGap s) := by
  unfold endGap
  dsimp only
  repeat' split
  all_goals simp (maxDischargeDepth := 20) [hs]

@[simp] theorem endInterval_steady (id : Nat) {s : State} (hs : Steady base s) :
    Steady base (endInterval id s) := by
  unfold endInterval
  repeat' split
  all_goals simp (maxDischargeDepth := 20) [hs]

@[simp] theorem completeAlertFade_steady {s : State} (hs : Steady base s) :
    Steady base (completeAlertFade s) := by
  unfold completeAlertFade
  dsimp only
  repeat' split
  all_goals simp (maxDischargeDepth := 20) [hs]

@[simp] theorem expireAlert_steady (id : Nat) {s : State} (hs : Steady base s) :
    Steady base (expireAlert id s) := by
  unfold expireAlert
  repeat' split
  all_goals simp (maxDischargeDepth := 20) [hs]

@[simp] theorem afterAlertBlock_steady {s : State} (hs : Steady base s) :
    Steady base (afterAlertBlock s) := by
  unfold afterAlertBlock afterAlertBlock.endAttentionFirst
  dsimp only
  repeat' split
  all_goals simp (maxDischargeDepth := 20) [hs]

@[simp] theorem produceAlert_steady {s : State} (hs : Steady base s) : Steady base (produceAlert s).1 := by
  unfold produceAlert
  repeat' split
  all_goals simp (maxDischargeDepth := 20) [hs]

@[simp] theorem alertFetch_steady {s : State} (hs : Steady base s) : Steady base (alertFetch s) := by
  unfold alertFetch
  dsimp only
  repeat' split
  all_goals simp (maxDischargeDepth := 20) [hs]

@[simp] theorem alertCompletion_steady (f : Fetch) (c : Completion) {s : State} (hs : Steady base s) :
    Steady base (alertCompletion f c s) := by
  unfold alertCompletion
  dsimp only
  repeat' split
  all_goals simp (maxDischargeDepth := 20) [hs]

@[simp] theorem alertTick_steady (input : BlockInput) {s : State} (hs : Steady base s) :
    Steady base (alertTick input s) := by
  unfold alertTick
  dsimp only
  simp +contextual (maxDischargeDepth := 20) [hs, forEach_steady]

@[simp] theorem takeOwed_steady {s : State} (hs : Steady base s) : Steady base (takeOwed s) :=
  ⟨hs.pending, hs.clock, hs.settings, hs.posted, hs.dram⟩

@[simp] theorem handOwed_steady (id : Nat) {s : State} (hs : Steady base s) : Steady base (handOwed id s) := by
  unfold handOwed
  repeat' split
  · exact hs
  · exact handAlertFrame_steady _ hs
  · exact hs

@[simp] theorem frameTick_steady (owed : List Nat) {s : State} (hs : Steady base s) :
    Steady base (frameTick owed s) := by
  unfold frameTick
  dsimp only
  refine forEach_steady _ _ (fun _ _ h => refreshFrame_steady _ h) ?_
  split
  · exact forEach_steady _ _ (fun _ _ h => handOwed_steady _ h) hs
  · exact hs

@[simp] theorem readAlertsCommand_steady {s : State} (hs : Steady base s) :
    Steady base (readAlertsCommand s).1 := by
  unfold readAlertsCommand
  dsimp only
  repeat' split
  all_goals simp (maxDischargeDepth := 20) [hs]

end Sys2Proof.Machine
end

