-- ==== Sys2Proof/Laws/SteadyLink.lean ====
section
/-! SUPPORT. The frame of every operation of Sys2Proof/Machine/Link.lean (see Sys2Proof/Laws/Steady.lean). -/

namespace Sys2Proof.Machine

variable {base : State}

@[simp] theorem setFiller_steady (e : FillerEnd) (x : Filler) {s : State} (hs : Steady base s) :
    Steady base (setFiller e x s) := by
  unfold setFiller
  dsimp only
  repeat' split
  all_goals simp (maxDischargeDepth := 20) [hs]

@[simp] theorem reportMissing_steady {s : State} (hs : Steady base s) : Steady base (reportMissing s) := by
  unfold reportMissing
  simp (maxDischargeDepth := 20) [hs]

@[simp] theorem giveFillerGain_steady (e : FillerEnd) (target : Nat) (length : Nat)
    {s : State} (hs : Steady base s) :
    Steady base (giveFillerGain e target length s) := by
  unfold giveFillerGain
  dsimp only
  simp (maxDischargeDepth := 20) [hs]

@[simp] theorem fillerIn_steady (e : FillerEnd) {s : State} (hs : Steady base s) :
    Steady base (fillerIn e s) := by
  unfold fillerIn
  dsimp only
  repeat' split
  all_goals simp (maxDischargeDepth := 20) [hs]

@[simp] theorem fillerOut_steady (e : FillerEnd) {s : State} (hs : Steady base s) :
    Steady base (fillerOut e s) := by
  unfold fillerOut
  dsimp only
  simp (maxDischargeDepth := 20) [hs]

@[simp] theorem fillerStop_steady (e : FillerEnd) {s : State} (hs : Steady base s) :
    Steady base (fillerStop e s) := by
  unfold fillerStop
  dsimp only
  simp (maxDischargeDepth := 20) [hs]

@[simp] theorem fillerFetch_steady (e : FillerEnd) {s : State} (hs : Steady base s) :
    Steady base (fillerFetch e s) := by
  unfold fillerFetch
  dsimp only
  repeat' split
  all_goals simp (maxDischargeDepth := 20) [hs]

@[simp] theorem fillerCompletion_steady (e : FillerEnd) (f : Fetch) (c : Completion)
    {s : State} (hs : Steady base s) :
    Steady base (fillerCompletion e f c s) := by
  unfold fillerCompletion
  repeat' split
  all_goals simp (maxDischargeDepth := 20) [hs]

@[simp] theorem produceFiller_steady (e : FillerEnd) {s : State} (hs : Steady base s) :
    Steady base (produceFiller e s).1 := by
  unfold produceFiller
  dsimp only
  repeat' split
  all_goals simp (maxDischargeDepth := 20) [hs]

@[simp] theorem fillerTurnsOn_steady {s : State} (hs : Steady base s) : Steady base (fillerTurnsOn s) := by
  unfold fillerTurnsOn
  dsimp only
  repeat' split
  all_goals simp (maxDischargeDepth := 20) [hs]

@[simp] theorem fillerFadeInDone_steady {s : State} (hs : Steady base s) :
    Steady base (fillerFadeInDone s) := by
  unfold fillerFadeInDone
  dsimp only
  repeat' split
  all_goals simp (maxDischargeDepth := 20) [hs]

@[simp] theorem fillerTurnsOff_steady {s : State} (hs : Steady base s) : Steady base (fillerTurnsOff s) := by
  unfold fillerTurnsOff
  dsimp only
  repeat' split
  all_goals simp (maxDischargeDepth := 20) [hs]

@[simp] theorem fillerTick_steady {s : State} (hs : Steady base s) : Steady base (fillerTick s) := by
  unfold fillerTick
  dsimp only
  repeat' split
  all_goals simp (maxDischargeDepth := 20) [hs]

@[simp] theorem sendForward_steady (prog : Block) {s : State} (hs : Steady base s) :
    Steady base (sendForward prog s) := by
  unfold sendForward
  dsimp only
  simp (maxDischargeDepth := 20) [hs]

@[simp] theorem setLink_steady (new : LinkState) {s : State} (hs : Steady base s) :
    Steady base (setLink new s) := by
  unfold setLink
  dsimp only
  repeat' split
  all_goals simp (maxDischargeDepth := 20) [hs]

@[simp] theorem recordOutcome_steady (o : BackOutcome) {s : State} (hs : Steady base s) :
    Steady base (recordOutcome o s) := by
  unfold recordOutcome
  dsimp only
  repeat' split
  all_goals simp (maxDischargeDepth := 20) [hs]

@[simp] theorem validOutcome_steady {s : State} (hs : Steady base s) : Steady base (validOutcome s) := by
  unfold validOutcome
  dsimp only
  repeat' split
  all_goals simp (maxDischargeDepth := 20) [hs]

@[simp] theorem missingOutcome_steady {s : State} (hs : Steady base s) : Steady base (missingOutcome s) := by
  unfold missingOutcome
  dsimp only
  repeat' split
  all_goals simp (maxDischargeDepth := 20) [hs]

@[simp] theorem declareMissing_steady {s : State} (hs : Steady base s) : Steady base (declareMissing s) := by
  unfold declareMissing
  dsimp only
  repeat' split
  all_goals simp (maxDischargeDepth := 20) [hs]

@[simp] theorem backTick_steady {s : State} (hs : Steady base s) : Steady base (backTick s) := by
  unfold backTick
  dsimp only
  repeat' split
  all_goals simp (maxDischargeDepth := 20) [hs]

@[simp] theorem takeReport_steady (f : BackFrame) {s : State} (hs : Steady base s) :
    Steady base (takeReport f s) := by
  unfold takeReport
  dsimp only
  repeat' split
  all_goals simp (maxDischargeDepth := 20) [hs]

@[simp] theorem takeEcho_steady (e : Option Nat) {s : State} (hs : Steady base s) :
    Steady base (takeEcho e s) := by
  unfold takeEcho
  dsimp only
  repeat' split
  all_goals simp (maxDischargeDepth := 20) [hs]

@[simp] theorem takeBack_steady (f : BackFrame) {s : State} (hs : Steady base s) :
    Steady base (takeBack f s) := by
  unfold takeBack
  dsimp only
  repeat' split
  all_goals simp (maxDischargeDepth := 20) [hs]

@[simp] theorem backError_steady {s : State} (hs : Steady base s) : Steady base (backError s) :=
  ⟨hs.pending, hs.clock, hs.settings, hs.posted, hs.dram⟩

@[simp] theorem backFound_steady (x : LinkFound) {s : State} (hs : Steady base s) : Steady base (backFound x s) := by
  unfold backFound
  repeat' split
  all_goals simp (maxDischargeDepth := 20) [hs]

@[simp] theorem receiveBack_steady (bytes : List Byte) {s : State} (hs : Steady base s) :
    Steady base (receiveBack bytes s) := by
  unfold receiveBack
  split
  · exact forEach_steady _ _ (fun _ _ h => backFound_steady _ h)
      ⟨hs.pending, hs.clock, hs.settings, hs.posted, hs.dram⟩
  · exact hs

@[simp] theorem setOutput_steady (o : Fin 4) (level : Nat) (source : Word) {s : State} (hs : Steady base s) :
    Steady base (setOutput o level source s) := by
  unfold setOutput
  dsimp only
  simp (maxDischargeDepth := 20) [hs]

@[simp] theorem remoteOutputCommand_steady (output : Word) (level : Word) {s : State} (hs : Steady base s) :
    Steady base (remoteOutputCommand output level s).1 := by
  unfold remoteOutputCommand
  repeat' split
  all_goals simp (maxDischargeDepth := 20) [hs]

@[simp] theorem judgeOutput_steady (node : Fin 8) (r : RequestBody) {s : State} (hs : Steady base s) :
    Steady base (judgeOutput node r s).1 := by
  unfold judgeOutput
  dsimp only
  repeat' split
  all_goals simp (maxDischargeDepth := 20) [hs]

@[simp] theorem takeOutputRequest_steady (node : Fin 8) (r : RequestBody) {s : State} (hs : Steady base s) :
    Steady base (takeOutputRequest node r s) := by
  unfold takeOutputRequest
  dsimp only
  repeat' split
  all_goals simp (maxDischargeDepth := 20) [hs]

@[simp] theorem clearLink_steady {s : State} (hs : Steady base s) : Steady base (clearLink s) := by
  unfold clearLink
  dsimp only
  simp (maxDischargeDepth := 20) [hs]

end Sys2Proof.Machine
end

