-- ==== Sys2Proof/Laws/SteadySite.lean ====
section
/-! SUPPORT. The frame of every operation of Sys2Proof/Machine/Site.lean (see Sys2Proof/Laws/Steady.lean). -/

namespace Sys2Proof.Machine

variable {base : State}

@[simp] theorem postSite_steady (key : Word) (c : AlertClass) (k : SiteChange)
    {s : State} (hs : Steady base s) :
    Steady base (postSite key c k s) := by
  unfold postSite
  simp (maxDischargeDepth := 20) [hs]

@[simp] theorem setSitePlayer_steady (x : SitePlayer) {s : State} (hs : Steady base s) :
    Steady base (setSitePlayer x s) := by
  unfold setSitePlayer
  dsimp only
  simp (maxDischargeDepth := 20) [hs]

@[simp] theorem giveFillerEnvelope_steady (target : Nat) (length : Nat) {s : State} (hs : Steady base s) :
    Steady base (giveFillerEnvelope target length s) := by
  unfold giveFillerEnvelope
  dsimp only
  simp (maxDischargeDepth := 20) [hs]

@[simp] theorem idleSitePlayer_steady (k : SiteChange) {s : State} (hs : Steady base s) :
    Steady base (idleSitePlayer k s) := by
  unfold idleSitePlayer
  dsimp only
  repeat' split
  all_goals simp (maxDischargeDepth := 20) [hs]

@[simp] theorem giveSiteEnvelope_steady (target : Nat) (length : Nat) {s : State} (hs : Steady base s) :
    Steady base (giveSiteEnvelope target length s) := by
  unfold giveSiteEnvelope
  dsimp only
  simp (maxDischargeDepth := 20) [hs]

@[simp] theorem cutSiteAiring_steady {s : State} (hs : Steady base s) : Steady base (cutSiteAiring s) := by
  unfold cutSiteAiring
  dsimp only
  repeat' split
  all_goals simp (maxDischargeDepth := 20) [hs]

@[simp] theorem dropSiteAlert_steady (key : Word) {s : State} (hs : Steady base s) :
    Steady base (dropSiteAlert key s) := by
  unfold dropSiteAlert
  dsimp only
  repeat' split
  all_goals simp (maxDischargeDepth := 20) [hs]

@[simp] theorem removeSiteAlert_steady (r : SiteAlert) {s : State} (hs : Steady base s) :
    Steady base (removeSiteAlert r s) := by
  unfold removeSiteAlert
  dsimp only
  simp (maxDischargeDepth := 20) [hs]

@[simp] theorem relayEvent_steady (k : SiteEventKind) (key : Word) (c : AlertClass)
    {s : State} (hs : Steady base s) :
    Steady base (relayEvent k key c s) := by
  unfold relayEvent
  dsimp only
  repeat' split
  all_goals simp (maxDischargeDepth := 20) [hs]

@[simp] theorem addSiteAlert_steady (r : SiteAlert) {s : State} (hs : Steady base s) :
    Steady base (addSiteAlert r s) := by
  unfold addSiteAlert
  dsimp only
  simp (maxDischargeDepth := 20) [hs]

@[simp] theorem admitSiteAlert_steady (r : SiteAlert) {s : State} (hs : Steady base s) :
    Steady base (admitSiteAlert r s) := by
  unfold admitSiteAlert
  repeat' split
  all_goals simp (maxDischargeDepth := 20) [hs]

@[simp] theorem takeSiteMessage_steady (key : Word) (c : AlertClass) (duration : Nat)
    {s : State} (hs : Steady base s) :
    Steady base (takeSiteMessage key c duration s) := by
  unfold takeSiteMessage
  repeat' split
  all_goals simp (maxDischargeDepth := 20) [hs]

@[simp] theorem cancelSiteMessage_steady (key : Word) {s : State} (hs : Steady base s) :
    Steady base (cancelSiteMessage key s) := by
  unfold cancelSiteMessage
  repeat' split
  all_goals simp (maxDischargeDepth := 20) [hs]

@[simp] theorem siteReceiverError_steady {s : State} (hs : Steady base s) :
    Steady base (siteReceiverError s) := by
  unfold siteReceiverError
  dsimp only
  simp (maxDischargeDepth := 20) [hs]

@[simp] theorem siteMessage_steady (m : ReceiverMessage) {s : State} (hs : Steady base s) :
    Steady base (siteMessage m s) := by
  unfold siteMessage
  repeat' split
  all_goals simp (maxDischargeDepth := 20) [hs]

@[simp] theorem siteByte_steady (b : Byte) {s : State} (hs : Steady base s) : Steady base (siteByte b s) := by
  unfold siteByte
  dsimp only
  repeat' split
  all_goals simp (maxDischargeDepth := 20) [hs]

@[simp] theorem siteBytes_steady (bs : List Byte) {s : State} (hs : Steady base s) :
    Steady base (siteBytes bs s) := by
  unfold siteBytes
  repeat' split
  all_goals simp +contextual (maxDischargeDepth := 20) [hs, forEach_steady]

@[simp] theorem siteFramerTick_steady {s : State} (hs : Steady base s) : Steady base (siteFramerTick s) := by
  unfold siteFramerTick
  dsimp only
  repeat' split
  all_goals simp (maxDischargeDepth := 20) [hs]

@[simp] theorem expireSiteAlert_steady (key : Word) {s : State} (hs : Steady base s) :
    Steady base (expireSiteAlert key s) := by
  unfold expireSiteAlert
  repeat' split
  all_goals simp (maxDischargeDepth := 20) [hs]

@[simp] theorem siteAlertTick_steady {s : State} (hs : Steady base s) : Steady base (siteAlertTick s) := by
  unfold siteAlertTick
  dsimp only
  simp +contextual (maxDischargeDepth := 20) [hs, forEach_steady]

@[simp] theorem startSiteAlert_steady {s : State} (hs : Steady base s) : Steady base (startSiteAlert s) := by
  unfold startSiteAlert
  dsimp only
  repeat' split
  all_goals simp (maxDischargeDepth := 20) [hs]

@[simp] theorem completeSiteAiring_steady {s : State} (hs : Steady base s) :
    Steady base (completeSiteAiring s) := by
  unfold completeSiteAiring
  dsimp only
  simp (maxDischargeDepth := 20) [hs]

@[simp] theorem endSiteAttention_steady {s : State} (hs : Steady base s) :
    Steady base (endSiteAttention s) := by
  unfold endSiteAttention
  dsimp only
  repeat' split
  all_goals simp (maxDischargeDepth := 20) [hs]

@[simp] theorem endSiteGap_steady {s : State} (hs : Steady base s) : Steady base (endSiteGap s) := by
  unfold endSiteGap
  dsimp only
  repeat' split
  all_goals simp (maxDischargeDepth := 20) [hs]

@[simp] theorem completeSiteCut_steady {s : State} (hs : Steady base s) :
    Steady base (completeSiteCut s) := by
  unfold completeSiteCut
  dsimp only
  repeat' split
  all_goals simp (maxDischargeDepth := 20) [hs]

@[simp] theorem afterSiteBlock_steady {s : State} (hs : Steady base s) : Steady base (afterSiteBlock s) := by
  unfold afterSiteBlock
  dsimp only
  repeat' split
  all_goals simp (maxDischargeDepth := 20) [hs]

@[simp] theorem produceSiteAlert_steady {s : State} (hs : Steady base s) :
    Steady base (produceSiteAlert s).1 := by
  unfold produceSiteAlert
  dsimp only
  repeat' split
  all_goals simp (maxDischargeDepth := 20) [hs]

@[simp] theorem siteAlertFetch_steady {s : State} (hs : Steady base s) : Steady base (siteAlertFetch s) := by
  unfold siteAlertFetch
  dsimp only
  repeat' split
  all_goals simp (maxDischargeDepth := 20) [hs]

@[simp] theorem siteAlertCompletion_steady (f : Fetch) (c : Completion) {s : State} (hs : Steady base s) :
    Steady base (siteAlertCompletion f c s) := by
  unfold siteAlertCompletion
  dsimp only
  repeat' split
  all_goals simp (maxDischargeDepth := 20) [hs]

@[simp] theorem setSiteState_steady (new : SiteState) (c : FeedCause) {s : State} (hs : Steady base s) :
    Steady base (setSiteState new c s) := by
  unfold setSiteState
  dsimp only
  simp (maxDischargeDepth := 20) [hs]

@[simp] theorem safeLevels_steady {s : State} (hs : Steady base s) : Steady base (safeLevels s) := by
  unfold safeLevels
  dsimp only
  simp (maxDischargeDepth := 20) [hs]

@[simp] theorem enterFeeding_steady {s : State} (hs : Steady base s) : Steady base (enterFeeding s) := by
  unfold enterFeeding
  dsimp only
  simp (maxDischargeDepth := 20) [hs]

@[simp] theorem appendFrame_steady (b : Block) {s : State} (hs : Steady base s) :
    Steady base (appendFrame b s) := by
  unfold appendFrame
  dsimp only
  repeat' split
  all_goals simp (maxDischargeDepth := 20) [hs]

@[simp] theorem clearAired_steady {s : State} (hs : Steady base s) : Steady base (clearAired s) := by
  unfold clearAired
  dsimp only
  simp (maxDischargeDepth := 20) [hs]

@[simp] theorem loseFeed_steady {s : State} (hs : Steady base s) : Steady base (loseFeed s) := by
  unfold loseFeed
  dsimp only
  repeat' split
  all_goals simp (maxDischargeDepth := 20) [hs]

@[simp] theorem missingOnce_steady {s : State} (hs : Steady base s) : Steady base (missingOnce s) := by
  unfold missingOnce
  dsimp only
  repeat' split
  all_goals simp (maxDischargeDepth := 20) [hs]

@[simp] theorem missingTimes_steady (n : Nat) {s : State} (hs : Steady base s) : Steady base (missingTimes n s) := by
  induction n generalizing s with
  | zero => exact hs
  | succ n ih => exact ih (missingOnce_steady hs)

@[simp] theorem overdue_steady {s : State} (hs : Steady base s) : Steady base (overdue s) := by
  unfold overdue
  dsimp only
  repeat' split
  all_goals simp (maxDischargeDepth := 20) [hs]

@[simp] theorem gapTick_steady {s : State} (hs : Steady base s) : Steady base (gapTick s) := by
  unfold gapTick
  dsimp only
  repeat' split
  all_goals simp (maxDischargeDepth := 20) [hs]

@[simp] theorem acceptStatus_steady (i : Fin 8) {s : State} (hs : Steady base s) :
    Steady base (acceptStatus i s) := by
  unfold acceptStatus
  dsimp only
  repeat' split
  all_goals simp (maxDischargeDepth := 20) [hs]

@[simp] theorem sampleStatus_steady (levels : List Bool) {s : State} (hs : Steady base s) :
    Steady base (sampleStatus levels s) := by
  unfold sampleStatus
  dsimp only
  simp +contextual (maxDischargeDepth := 20) [hs, forEach_steady]

@[simp] theorem takeIntoBuffer_steady (f : ForwardFrame) (levels : List Bool) {s : State} (hs : Steady base s) :
    Steady base (takeIntoBuffer f levels s) := by
  unfold takeIntoBuffer
  dsimp only
  simp (maxDischargeDepth := 20) [hs]

@[simp] theorem enterLocking_steady (origin : SiteState) (c : FeedCause) (f : ForwardFrame)
    (levels : List Bool) {s : State} (hs : Steady base s) :
    Steady base (enterLocking origin c f levels s) := by
  unfold enterLocking
  dsimp only
  simp (maxDischargeDepth := 20) [hs]

@[simp] theorem relock_steady (f : ForwardFrame) (levels : List Bool) {s : State} (hs : Steady base s) :
    Steady base (relock f levels s) := by
  unfold relock
  repeat' split
  all_goals simp (maxDischargeDepth := 20) [hs]

@[simp] theorem takeForward_steady (f : ForwardFrame) (levels : List Bool) {s : State} (hs : Steady base s) :
    Steady base (takeForward f levels s) := by
  unfold takeForward
  dsimp only
  repeat' split
  all_goals simp (maxDischargeDepth := 20) [hs]

@[simp] theorem compareForward_steady (f : ForwardFrame) (levels : List Bool) {s : State} (hs : Steady base s) :
    Steady base (compareForward f levels s) := by
  unfold compareForward
  dsimp only
  repeat' split
  all_goals simp (maxDischargeDepth := 20) [hs]

@[simp] theorem trimLoop_steady {s : State} (hs : Steady base s) : Steady base (trimLoop s) := by
  unfold trimLoop
  dsimp only
  repeat' split
  all_goals simp (maxDischargeDepth := 20) [hs]

@[simp] theorem sendBack_steady {s : State} (hs : Steady base s) : Steady base (sendBack s) := by
  unfold sendBack
  dsimp only
  repeat' split
  all_goals simp (maxDischargeDepth := 20) [hs]

@[simp] theorem forwardError_steady {s : State} (hs : Steady base s) : Steady base (forwardError s) :=
  ⟨hs.pending, hs.clock, hs.settings, hs.posted, hs.dram⟩

@[simp] theorem forwardFound_steady (levels : List Bool) (x : LinkFound) {s : State} (hs : Steady base s) :
    Steady base (forwardFound levels x s) := by
  unfold forwardFound
  dsimp only
  repeat' split
  all_goals simp (maxDischargeDepth := 20) [hs]

@[simp] theorem receiveForward_steady (bytes : List Byte) (levels : List Bool)
    {s : State} (hs : Steady base s) :
    Steady base (receiveForward bytes levels s) := by
  unfold receiveForward
  split
  · exact forEach_steady _ _ (fun _ _ h => forwardFound_steady _ _ h)
      ⟨hs.pending, hs.clock, hs.settings, hs.posted, hs.dram⟩
  · exact hs

@[simp] theorem drawFeed_steady (feeding : Bool) {s : State} (hs : Steady base s) :
    Steady base (drawFeed feeding s).1 := by
  unfold drawFeed
  dsimp only
  repeat' split
  all_goals simp (maxDischargeDepth := 20) [hs]

@[simp] theorem siteFillerRest_steady {s : State} (hs : Steady base s) : Steady base (siteFillerRest s) := by
  unfold siteFillerRest
  dsimp only
  repeat' split
  all_goals simp (maxDischargeDepth := 20) [hs]

@[simp] theorem siteOutput_steady (feed : Block) (alert : Block) {s : State} (hs : Steady base s) :
    Steady base (siteOutput feed alert s) := by
  unfold siteOutput
  dsimp only
  simp (maxDischargeDepth := 20) [hs]

@[simp] theorem offAirTick_steady (input : BlockInput) {s : State} (hs : Steady base s) :
    Steady base (offAirTick input s) := by
  unfold offAirTick
  dsimp only
  simp (maxDischargeDepth := 20) [hs]

@[simp] theorem siteTick_steady (input : BlockInput) {s : State} (hs : Steady base s) :
    Steady base (siteTick input s) := by
  unfold siteTick
  dsimp only
  repeat' split
  all_goals simp (maxDischargeDepth := 20) [hs]

@[simp] theorem beginSite_steady {s : State} (hs : Steady base s) : Steady base (beginSite s) := by
  unfold beginSite
  dsimp only
  simp (maxDischargeDepth := 20) [hs]

@[simp] theorem clearSite_steady {s : State} (hs : Steady base s) : Steady base (clearSite s) := by
  unfold clearSite
  dsimp only
  simp (maxDischargeDepth := 20) [hs]

@[simp] theorem readLinkCommand_steady {s : State} (hs : Steady base s) :
    Steady base (readLinkCommand s).1 := by
  unfold readLinkCommand
  repeat' split
  all_goals simp (maxDischargeDepth := 20) [hs]

end Sys2Proof.Machine
end

