-- ==== Sys2Proof/Laws/SteadyPanel.lean ====
section
/-! SUPPORT. The frame of every operation of Sys2Proof/Machine/Panel.lean (see Sys2Proof/Laws/Steady.lean). -/

namespace Sys2Proof.Machine

variable {base : State}

@[simp] theorem updateLamps_steady {s : State} (hs : Steady base s) : Steady base (updateLamps s) := by
  unfold updateLamps
  dsimp only
  simp (maxDischargeDepth := 20) [hs]

@[simp] theorem coughEdge_steady (d : Fin 2) (rising : Bool) {s : State} (hs : Steady base s) :
    Steady base (coughEdge d rising s) := by
  unfold coughEdge
  dsimp only
  repeat' split
  all_goals simp (maxDischargeDepth := 20) [hs]

@[simp] theorem toggleAir_steady (d : Fin 2) {s : State} (hs : Steady base s) :
    Steady base (toggleAir d s) := by
  unfold toggleAir
  dsimp only
  simp (maxDischargeDepth := 20) [hs]

@[simp] theorem applyAction_steady (a : InputAction) (rising : Bool) {s : State} (hs : Steady base s) :
    Steady base (applyAction a rising s) := by
  unfold applyAction
  repeat' split
  all_goals simp (maxDischargeDepth := 20) [hs]

@[simp] theorem acceptInput_steady (i : Fin 4) {s : State} (hs : Steady base s) :
    Steady base (acceptInput i s) := by
  unfold acceptInput
  dsimp only
  repeat' split
  all_goals simp (maxDischargeDepth := 20) [hs]

@[simp] theorem inputTick_steady (input : BlockInput) {s : State} (hs : Steady base s) :
    Steady base (inputTick input s) := by
  unfold inputTick
  dsimp only
  simp +contextual (maxDischargeDepth := 20) [hs, forEach_steady]

end Sys2Proof.Machine
end

