-- ==== Sys2Proof/Laws/SteadyLineState.lean ====
section
/-! SUPPORT. The frame of every operation of Sys2Proof/Machine/LineState.lean (see Sys2Proof/Laws/Steady.lean). -/

namespace Sys2Proof.Machine

variable {base : State}

@[simp] theorem drawStamp_steady {s : State} (hs : Steady base s) : Steady base (drawStamp s) := by
  unfold drawStamp
  dsimp only
  simp (maxDischargeDepth := 20) [hs]

@[simp] theorem changeSelf_steady (f : Peer → Peer) {s : State} (hs : Steady base s) :
    Steady base (changeSelf f s) := by
  unfold changeSelf
  simp (maxDischargeDepth := 20) [hs]

@[simp] theorem queueAnnounce_steady {s : State} (hs : Steady base s) : Steady base (queueAnnounce s) := by
  unfold queueAnnounce
  dsimp only
  simp (maxDischargeDepth := 20) [hs]

@[simp] theorem announceDue_steady {s : State} (hs : Steady base s) : Steady base (announceDue s) := by
  unfold announceDue
  dsimp only
  repeat' split
  all_goals simp (maxDischargeDepth := 20) [hs]

@[simp] theorem enterJoined_steady (c : JoinCause) {s : State} (hs : Steady base s) :
    Steady base (enterJoined c s) := by
  unfold enterJoined
  dsimp only
  simp (maxDischargeDepth := 20) [hs]

@[simp] theorem joinByMarks_steady {s : State} (hs : Steady base s) : Steady base (joinByMarks s) := by
  unfold joinByMarks
  repeat' split
  all_goals simp (maxDischargeDepth := 20) [hs]

@[simp] theorem joinAlone_steady {s : State} (hs : Steady base s) : Steady base (joinAlone s) := by
  unfold joinAlone
  repeat' split
  all_goals simp (maxDischargeDepth := 20) [hs]

@[simp] theorem enterMuted_steady (c : DuplicateCause) {s : State} (hs : Steady base s) :
    Steady base (enterMuted c s) := by
  unfold enterMuted
  have h := post_steady .duplicateId [word c.ctorIdx] hs
  dsimp only
  split
  · exact seatLeavesLine_steady h
  · exact h

@[simp] theorem readbackMute_steady {s : State} (hs : Steady base s) : Steady base (readbackMute s) := by
  unfold readbackMute
  repeat' split
  all_goals simp (maxDischargeDepth := 20) [hs]

@[simp] theorem postPeer_steady (k : Fin 8) (c : PeerChange) {s : State} (hs : Steady base s) :
    Steady base (postPeer k c s) := by
  unfold postPeer
  simp (maxDischargeDepth := 20) [hs]

@[simp] theorem setPeer_steady (k : Fin 8) (p : Peer) {s : State} (hs : Steady base s) :
    Steady base (setPeer k p s) := by
  unfold setPeer
  simp (maxDischargeDepth := 20) [hs]

@[simp] theorem updatePeer_steady (k : Fin 8) (b : AnnounceBody) {s : State} (hs : Steady base s) :
    Steady base (updatePeer k b s) := by
  unfold updatePeer
  dsimp only
  repeat' split
  all_goals simp (maxDischargeDepth := 20) [hs]

@[simp] theorem confirmFrom_steady (b : AnnounceBody) {s : State} (hs : Steady base s) :
    Steady base (confirmFrom b s) := by
  unfold confirmFrom
  repeat' split
  all_goals simp (maxDischargeDepth := 20) [hs]

@[simp] theorem duplicateCheck_steady (b : AnnounceBody) {s : State} (hs : Steady base s) :
    Steady base (duplicateCheck b s) := by
  unfold duplicateCheck
  repeat' split
  all_goals simp (maxDischargeDepth := 20) [hs]

@[simp] theorem takeAnnounce_steady (node : Fin 8) (b : AnnounceBody) {s : State} (hs : Steady base s) :
    Steady base (takeAnnounce node b s) := by
  unfold takeAnnounce
  repeat' split
  all_goals simp (maxDischargeDepth := 20) [hs]

@[simp] theorem losePeer_steady (k : Fin 8) {s : State} (hs : Steady base s) :
    Steady base (losePeer k s) := by
  unfold losePeer
  dsimp only
  repeat' split
  all_goals simp (maxDischargeDepth := 20) [hs]

@[simp] theorem forgetPeer_steady (k : Fin 8) {s : State} (hs : Steady base s) :
    Steady base (forgetPeer k s) := by
  unfold forgetPeer
  dsimp only
  repeat' split
  all_goals simp (maxDischargeDepth := 20) [hs]

@[simp] theorem peerTickAt_steady (k : Fin 8) {s : State} (hs : Steady base s) :
    Steady base (peerTickAt k s) := by
  unfold peerTickAt
  dsimp only
  repeat' split
  all_goals simp (maxDischargeDepth := 20) [hs]

@[simp] theorem peerTick_steady {s : State} (hs : Steady base s) : Steady base (peerTick s) := by
  unfold peerTick
  simp +contextual (maxDischargeDepth := 20) [hs, forEach_steady]

@[simp] theorem readCountersCommand_steady {s : State} (hs : Steady base s) :
    Steady base (readCountersCommand s).1 := by
  unfold readCountersCommand
  dsimp only
  simp (maxDischargeDepth := 20) [hs]

end Sys2Proof.Machine
end

