-- ==== Sys2Proof/Laws/SteadyImage.lean ====
section
/-! SUPPORT. The frame of every operation of Sys2Proof/Machine/Image.lean (see Sys2Proof/Laws/Steady.lean). -/

namespace Sys2Proof.Machine

variable {base : State}

@[simp] theorem becomeSelf_steady {s : State} (hs : Steady base s) : Steady base (becomeSelf s) := by
  unfold becomeSelf
  simp (maxDischargeDepth := 20) [hs]

@[simp] theorem takeCaptures_steady {s : State} (hs : Steady base s) : Steady base (takeCaptures s) := by
  refine forEach_steady _ _ (fun x t h => ?_) hs
  split
  · exact defineCapture_steady _ _ h
  · exact h

@[simp] theorem startLink_steady {s : State} (hs : Steady base s) : Steady base (startLink s) := by
  unfold startLink
  dsimp only
  repeat' split
  all_goals simp (maxDischargeDepth := 20) [hs]

@[simp] theorem startInputs_steady {s : State} (hs : Steady base s) : Steady base (startInputs s) := by
  unfold startInputs
  dsimp only
  simp (maxDischargeDepth := 20) [hs]

end Sys2Proof.Machine
end

