-- ==== Sys2Proof/Laws/SteadyBlockStart.lean ====
section
/-! SUPPORT. The frame of every operation of Sys2Proof/Machine/BlockStart.lean (see Sys2Proof/Laws/Steady.lean). -/

namespace Sys2Proof.Machine

variable {base : State}

@[simp] theorem lineStart_steady {s : State} (hs : Steady base s) : Steady base (lineStart s) := by
  unfold lineStart
  dsimp only
  repeat' split
  all_goals simp (maxDischargeDepth := 20) [hs]

@[simp] theorem decisionStart_steady (closing : Word) {s : State} (hs : Steady base s) :
    Steady base (decisionStart closing s) :=
  withHold_steady _ _ (fun _ h => presenceDecision_steady _ h) hs

@[simp] theorem panelStart_steady (input : BlockInput) {s : State} (hs : Steady base s) :
    Steady base (panelStart input s).1 := by
  unfold panelStart
  dsimp only
  simp (maxDischargeDepth := 20) [hs]

@[simp] theorem alertStart_steady (input : BlockInput) (owed : List Nat) {s : State} (hs : Steady base s) :
    Steady base (alertStart input owed s).1 := by
  have h := frameTick_steady owed (produceAlert_steady (alertTick_steady input hs))
  unfold alertStart
  dsimp only
  generalize frameTick _ _ = t at *
  exact withHold_steady _ _ (fun _ h => startTick_steady h) h

@[simp] theorem playoutStart_steady {s : State} (hs : Steady base s) : Steady base (playoutStart s) := by
  unfold playoutStart
  split
  · refine seatTick_steady (forEach_steady _ _ (fun _ _ h => beginEnding_steady _ h) ?_)
    refine forEach_steady _ _ (fun _ _ h => finishEnded_steady _ h) ?_
    refine forEach_steady _ _ (fun _ _ h => reachSegue_steady _ h) ?_
    exact forEach_steady _ _ (fun _ _ h => dueAtTime_steady _ h) (releaseTick_steady (playoutTick_steady hs))
  · exact hs

@[simp] theorem sourceStart_steady (input : BlockInput) (ups : Tab (List Int) 3) (alert : Option SourceBlock) {s : State}
    (hs : Steady base s) : Steady base (sourceStart input ups alert s) := by
  refine forEach_steady _ _ (fun _ _ h => completeHoldFade_steady _ h) (completeAlertFade_steady ?_)
  exact sourceStage_steady _ _ _ _ _ (producePlayer_steady _ (producePlayer_steady _ hs))

@[simp] theorem linkStart_steady (prog : Block) {s : State} (hs : Steady base s) :
    Steady base (linkStart prog s) := by
  unfold linkStart
  dsimp only
  repeat' split
  all_goals simp (maxDischargeDepth := 20) [hs]

@[simp] theorem announceTick_steady (was : Bool) {s : State} (hs : Steady base s) :
    Steady base (announceTick was s) := by
  unfold announceTick
  dsimp only
  repeat' split
  all_goals simp (maxDischargeDepth := 20) [hs]

@[simp] theorem busStart_steady (input : BlockInput) {s : State} (hs : Steady base s) :
    Steady base (busStart input s) := by
  unfold busStart
  simp (maxDischargeDepth := 20) [hs]

@[simp] theorem countMark_steady (interval : Option Nat) {s : State} (hs : Steady base s) :
    Steady base (countMark interval s) := by
  unfold countMark
  dsimp only
  repeat' split
  all_goals simp (maxDischargeDepth := 20) [hs]

@[simp] theorem cutOff_steady (k : Nat) {s : State} (hs : Steady base s) : Steady base (cutOff k s) := by
  unfold cutOff
  simp (maxDischargeDepth := 20) [hs]

@[simp] theorem abandonFrame_steady (mark : Bool) {s : State} (hs : Steady base s) :
    Steady base (abandonFrame mark s) := by
  unfold abandonFrame
  repeat' split
  all_goals simp (maxDischargeDepth := 20) [hs]

theorem receiveControl_steady (kind : Nat) (f : RxControl) (handOn : State → State)
    (hf : ∀ s, Steady base s → Steady base (handOn s)) {s : State} (hs : Steady base s) :
    Steady base (receiveControl kind f handOn s) := by
  refine receiveFrame_steady _ _ (fun t ht => ?_) hs
  split
  · exact hf t ht
  · exact ht

@[simp] theorem receiveAudio_steady (f : RxAudio) {s : State} (hs : Steady base s) : Steady base (receiveAudio f s) :=
  receiveFrame_steady _ _ (fun _ h => takeHeard_steady f h) hs

@[simp] theorem receiveAnnounce_steady (f : RxControl) {s : State} (hs : Steady base s) :
    Steady base (receiveAnnounce f s) :=
  receiveControl_steady _ _ _ (fun _ h => takeAnnounce_steady _ _ h) hs

@[simp] theorem receiveAlert_steady (f : RxControl) {s : State} (hs : Steady base s) :
    Steady base (receiveAlert f s) := by
  refine receiveControl_steady _ _ _ (fun t h => ?_) hs
  split
  · exact withHold_steady _ _ (fun _ h => takeAlertFrame_steady _ h) h
  · exact h

theorem receiveRequestWith_steady (act : RequestBody → State → State)
    (ha : ∀ b s, Steady base s → Steady base (act b s)) (f : RxControl) {s : State} (hs : Steady base s) :
    Steady base (receiveRequestWith act f s) := by
  refine receiveControl_steady _ _ _ (fun t h => ?_) hs
  split
  · exact ha _ t h
  · exact h

@[simp] theorem handRequest_steady (node : Fin 8) (b : RequestBody) {s : State} (hs : Steady base s) :
    Steady base (handRequest node b s) := by
  unfold handRequest
  repeat' split
  all_goals simp (maxDischargeDepth := 20) [hs]

@[simp] theorem receiveRequest_steady (f : RxControl) {s : State} (hs : Steady base s) :
    Steady base (receiveRequest f s) :=
  receiveRequestWith_steady _ (fun b _ h => handRequest_steady _ b h) _ hs

@[simp] theorem receiveAnswer_steady (f : RxControl) {s : State} (hs : Steady base s) :
    Steady base (receiveAnswer f s) := by
  refine receiveControl_steady _ _ _ (fun t h => ?_) hs
  split
  · exact takeAnswer_steady _ _ h
  · exact h

@[simp] theorem receiveInvalid_steady (f : RxFrame) {s : State} (hs : Steady base s) :
    Steady base (receiveInvalid f s) := by
  unfold receiveInvalid
  split
  · exact hs
  · exact receiveFrame_steady _ _ (fun _ h => h) hs

@[simp] theorem askFetch_steady (r : Reader) {s : State} (hs : Steady base s) :
    Steady base (askFetch r s) := by
  unfold askFetch
  repeat' split
  all_goals simp (maxDischargeDepth := 20) [hs]

@[simp] theorem deliver_steady (f : Fetch) (c : Completion) {s : State} (hs : Steady base s) :
    Steady base (deliver f c s) := by
  unfold deliver
  repeat' split
  all_goals simp (maxDischargeDepth := 20) [hs]

theorem deliverAny_steady (r : State × Option (Fetch × Completion)) (hr : Steady base r.1) :
    Steady base (deliverAny r) := by
  unfold deliverAny
  split
  · exact deliver_steady _ _ hr
  · exact hr

end Sys2Proof.Machine
end

