-- ==== Sys2Proof/Laws/Kept.lean ====
section
/-! SUPPORT. What the operations outside the frame of Sys2Proof/Laws/Steady.lean keep: the block start, the port's own
operations, the acceptance of an image and REJOIN. -/

namespace Sys2Proof.Machine

/-- From `s` to `t` the queue stays, the port keeps its legal states, and DRAM keeps its canonical form. -/
structure Kept (s t : State) : Prop where
  queue : t.pending = s.pending
  port : PortOk s.cp → PortOk t.cp
  dram : Memory.wf s.dram = true → Memory.wf t.dram = true

theorem Kept.of {s t : State} (h : Steady s t) : Kept s t := ⟨h.pending, h.posted.sound, h.dram⟩

theorem Kept.trans {a b c : State} (h : Kept a b) (k : Kept b c) : Kept a c :=
  ⟨k.queue.trans h.queue, fun x => k.port (h.port x), fun x => k.dram (h.dram x)⟩

/-- A block start on the studio line. -/
theorem kept_blockStart (input : BlockInput) (s : State) : Kept s (blockStart input s) := by
  have h0 : Kept s (openBlock s) := ⟨rfl, id, id⟩
  refine h0.trans (Kept.of ?_)
  have ho : Steady (openBlock s) (if joined s then takeOwed (openBlock s) else openBlock s) := by
    split
    · exact takeOwed_steady (Steady.refl _)
    · exact Steady.refl _
  have h1 := decisionStart_steady s.clock.blockCount (lineStart_steady ho)
  unfold blockStart
  dsimp only
  generalize decisionStart _ _ = a at *
  have h2 := panelStart_steady input h1
  have h3 := alertStart_steady input (if joined s then owedIds s else []) h2
  generalize alertStart _ _ = c at *
  generalize panelStart _ _ = d at *
  exact updateLamps_steady (announceTick_steady _
    (busStart_steady _ (sourceStart_steady _ _ _ (playoutStart_steady h3))))

/-- A response formed. -/
theorem kept_respond (s : State) (ty tag : Half) (r : Reply) : Kept s { s with cp := s.cp.respond ty tag r } :=
  ⟨rfl, fun h => ⟨h.queue, h.dropped, h.ints, by simp [ControlPort.respond], by simp [ControlPort.respond],
    by simp [ControlPort.respond], by simp [ControlPort.respond]⟩, id⟩

/-- A host command keeps what its unit's act keeps. -/
theorem kept_host (i : Instr) (act : State → State × Reply) (s : State) (h : Kept s (act s).1) :
    Kept s (hostCommand i act s) := by
  unfold hostCommand
  split
  · exact ⟨rfl, id, id⟩
  · split
    · exact kept_respond _ _ _ _
    · exact h.trans (kept_respond _ _ _ _)

theorem kept_lineRejoins (s : State) : Kept s (lineRejoins s) := ⟨rfl, id, id⟩

/-- REJOIN (R204). -/
theorem kept_rejoin (s : State) : Kept s (rejoinCommand s).1 := by
  unfold rejoinCommand
  split
  · exact ⟨rfl, id, id⟩
  · refine (kept_lineRejoins s).trans (Kept.of ?_)
    exact seatRejoins_steady (alertRejoins_steady (callerRejoins_steady (rejoinTable_steady (Steady.refl _))))

/-- A mark recognised (R2, R3, R15). -/
theorem kept_mark (t : Nat) (input : BlockInput) (s : State) : Kept s (recogniseMark t input s) := by
  unfold recogniseMark
  dsimp only
  have h : Kept s (countMark (Option.map (fun x => x + t) s.clock.sinceMark) (cutOff input.sinceCrc s)) :=
    Kept.of (countMark_steady _ (cutOff_steady input.sinceCrc (Steady.refl s)))
  generalize countMark _ _ = a at *
  have h2 : Kept s { a with clock := { a.clock with timer := 0, sinceMark := some 0, expiryOpen := false } } :=
    ⟨h.queue, h.port, h.dram⟩
  split
  · exact h2.trans (Kept.of (joinByMarks_steady (Steady.refl _)))
  · exact h2.trans (kept_blockStart _ _)

/-- An image accepted (R199, R204). -/
theorem kept_accept (src : ImageSource) (st : Settings) (s : State) : Kept s (acceptImage src st s) := by
  have h0 : Kept s (takeRouting st s) :=
    ⟨rfl, fun h => ⟨h.queue, h.dropped, rfl, h.rdy, h.response, h.slot, h.busy⟩, id⟩
  have h1 : Kept s (startLine (takeRouting st s)) := by
    refine h0.trans ?_
    unfold startLine
    dsimp only
    split
    · exact ⟨rfl, id, id⟩
    · exact ⟨rfl, id, id⟩
  unfold acceptImage
  refine h1.trans (Kept.of ?_)
  exact post_steady _ _ (startInputs_steady (startLink_steady (takeCaptures_steady (Steady.refl _))))

/-- A flash image refused (R203). -/
theorem kept_refuse (c : BootCause) (n : Nat) (l : List Word) (s : State) : Kept s (refuseFlash c n l s) := by
  have : Kept s { s with cp := { s.cp with boot := .refused, bootCause := some c, bootField := n } } :=
    ⟨rfl, fun h => ⟨h.queue, h.dropped, h.ints, h.rdy, h.response, h.slot, h.busy⟩, id⟩
  exact this.trans (Kept.of (post_steady _ _ (Steady.refl _)))

/-- The end of the flash read (R203). -/
theorem kept_flash (f : Option (List Byte)) (s : State) : Kept s (endFlashRead f s) := by
  unfold endFlashRead
  split
  · exact ⟨rfl, id, id⟩
  have h0 : Kept s { s with cp := { s.cp with boot := .accepted } } :=
    ⟨rfl, fun h => ⟨h.queue, h.dropped, h.ints, h.rdy, h.response, h.slot, h.busy⟩, id⟩
  dsimp only
  split
  · exact kept_refuse _ _ _ _
  split
  · exact kept_refuse _ _ _ _
  split
  · exact kept_refuse _ _ _ _
  · exact h0.trans (kept_accept _ _ _)

/-- CONFIGURE (R199). -/
theorem kept_configure (f : List Byte) (s : State) : Kept s (configureCommand f s).1 := by
  unfold configureCommand
  split
  · exact ⟨rfl, id, id⟩
  split
  · exact ⟨rfl, id, id⟩
  split
  · exact ⟨rfl, id, id⟩
  · exact kept_accept _ _ _

/-- COMMAND_WRITE_COMPLETE (R192). -/
theorem kept_write (bs : List Byte) (s : State) : Kept s (writeComplete bs s) := by
  unfold writeComplete
  split
  · exact ⟨rfl, id, id⟩
  refine ⟨rfl, fun h => ?_, id⟩
  dsimp only
  split
  · rename_i hp
    unfold takeWrite
    split
    · exact ⟨h.queue, h.dropped, h.ints, by simpa [hp] using h.rdy, by simpa [hp] using h.response, by simp, by simp⟩
    · exact (kept_respond s _ _ _).port h
  · rename_i hp
    exact ⟨h.queue, h.dropped, h.ints, h.rdy, h.response, h.slot, fun _ => hp⟩
  · exact ⟨h.queue, h.dropped, h.ints, h.rdy, by simpa using h.response, h.slot, h.busy⟩

/-- RESPONSE_READ_COMPLETE (R192). -/
theorem kept_read (s : State) : Kept s (readComplete s) := by
  refine ⟨rfl, fun h => ?_, id⟩
  unfold readComplete
  dsimp only
  split
  · exact ⟨h.queue, h.dropped, h.ints, h.rdy, h.response, h.slot, h.busy⟩
  · exact ⟨h.queue, h.dropped, h.ints, h.rdy, h.response, h.slot, h.busy⟩
  · rename_i hp
    exact ⟨h.queue, h.dropped, h.ints, by simp, by simp, by simpa [hp, ControlPort.readOut] using h.slot,
      by simpa [hp, ControlPort.readOut] using h.busy⟩

/-- READ NOTICE (R196). -/
theorem kept_notice (s : State) : Kept s (readNoticeCommand s).1 := by
  refine ⟨?_, fun h => ?_, ?_⟩ <;> unfold readNoticeCommand <;> split
  · rfl
  · rfl
  · exact h
  · rename_i e
    have := h.queue
    rw [e] at this
    exact ⟨by simp at this; simp; omega, h.dropped, rfl, h.rdy, h.response, h.slot, h.busy⟩
  · exact id
  · exact id

end Sys2Proof.Machine
end

