-- ==== Sys2Proof/Laws/Boot.lean ====
section
/-! SUPPORT. What the operations do to reset, device and flash read (R199, R203, R205): `BootOk` stays. -/

namespace Sys2Proof.Machine

/-- From `s` to `t` the reset stays as it was, and a part out of reset keeps `BootOk`. -/
structure BootKept (s t : State) : Prop where
  held : t.cp.resetHeld = s.cp.resetHeld
  sound : s.cp.resetHeld = false → BootOk s.cp → BootOk t.cp

theorem BootKept.refl (s : State) : BootKept s s := ⟨rfl, fun _ => id⟩

theorem BootKept.trans {a b c : State} (h : BootKept a b) (k : BootKept b c) : BootKept a c :=
  ⟨k.held.trans h.held, fun hr x => k.sound (h.held.trans hr) (h.sound hr x)⟩

/-- Notices posted leave reset, device, port and flash read as they were. -/
theorem Posted.boot {a b : ControlPort} (h : Posted a b) : BootOk a → BootOk b := by
  intro x
  have e := h.same
  rw [e]
  exact ⟨x.held, x.running⟩

theorem BootKept.of {s t : State} (h : Posted s.cp t.cp) : BootKept s t := ⟨by rw [h.same], fun _ => h.boot⟩

theorem Steady.bootKept {s t : State} (h : Steady s t) : BootKept s t := .of h.posted

/-- The same reset, device and flash read, whatever the port. -/
theorem BootKept.same {s t : State} (hr : t.cp.resetHeld = s.cp.resetHeld) (hd : t.cp.device = s.cp.device)
    (hb : t.cp.boot = s.cp.boot) : BootKept s t :=
  ⟨hr, fun h x => ⟨fun k => absurd (hr ▸ k) (by simp [h]), fun k => hb ▸ x.running (hd ▸ k)⟩⟩

/-- A command is in the slot only of a part out of reset. -/
theorem held_none_of_reset {cp : ControlPort} (i : Instr) (h : BootOk cp) (hr : cp.resetHeld = true) : cp.held i = none := by
  simp [ControlPort.held, (h.held hr).2.1]

/-- A host command keeps `BootOk`, whatever its unit does that keeps it. -/
theorem boot_host (i : Instr) (act : State → State × Reply) (s : State) (h : BootKept s (act s).1) :
    BootOk s.cp → BootOk (hostCommand i act s).cp := by
  intro x
  by_cases hr : s.cp.resetHeld = true
  · simpa [hostCommand, held_none_of_reset i x hr] using x
  have hf : s.cp.resetHeld = false := by simpa using hr
  unfold hostCommand
  split
  · exact x
  split
  · exact BootKept.sound (s := s) (t := { s with cp := s.cp.respond _ _ _ }) (.same rfl rfl rfl) hf x
  · exact (h.trans (c := { (act s).1 with cp := (act s).1.cp.respond _ _ _ }) (.same rfl rfl rfl)).sound hf x

/-- REJOIN (R204). -/
theorem boot_rejoin (s : State) : BootKept s (rejoinCommand s).1 := by
  unfold rejoinCommand
  split
  · exact .refl s
  · refine BootKept.trans (b := lineRejoins s) (.same rfl rfl rfl) (Steady.bootKept ?_)
    exact seatRejoins_steady (alertRejoins_steady (callerRejoins_steady (rejoinTable_steady (Steady.refl _))))

/-- READ NOTICE (R196). -/
theorem boot_notice (s : State) : BootKept s (readNoticeCommand s).1 := by
  unfold readNoticeCommand
  split
  · exact .refl s
  · exact .same rfl rfl rfl

/-- An image taken where no flash read is under way (R199, R203). -/
theorem boot_accept (src : ImageSource) (st : Settings) (s : State) (hb : s.cp.boot ≠ .reading) :
    BootKept s (acceptImage src st s) := by
  have h0 : BootKept s (startLine (takeRouting st s)) := by
    have e : (startLine (takeRouting st s)).cp = (takeRouting st s).cp := by
      unfold startLine
      dsimp only
      split <;> rfl
    refine ⟨by rw [e]; rfl, fun h x => ?_⟩
    rw [e]
    exact ⟨fun k => absurd k (by simp [takeRouting, h]), fun _ => hb⟩
  unfold acceptImage
  refine h0.trans (Steady.bootKept ?_)
  exact post_steady _ _ (startInputs_steady (startLink_steady (takeCaptures_steady (Steady.refl _))))

/-- CONFIGURE (R199). -/
theorem boot_configure (f : List Byte) (s : State) : BootKept s (configureCommand f s).1 := by
  unfold configureCommand
  split
  · exact .refl s
  split
  · exact .refl s
  rename_i hb
  split
  · exact .refl s
  · exact boot_accept _ _ _ hb

/-- The end of the flash read (R203): with none under way nothing, and one is under way only out of reset. -/
theorem boot_flash (f : Option (List Byte)) (s : State) : BootOk s.cp → BootOk (endFlashRead f s).cp := by
  intro x
  unfold endFlashRead
  split
  · exact x
  rename_i hb
  have hf : s.cp.resetHeld = false := by
    by_contra h
    exact hb ((x.held (by simpa using h)).2.2)
  have refuse (c : BootCause) (n : Nat) (l : List Word) : BootOk (refuseFlash c n l s).cp :=
    (Posted.post _ _).boot ⟨fun k => absurd k (by simp [hf]), fun _ => by simp⟩
  dsimp only
  split
  · exact refuse _ _ _
  split
  · exact refuse _ _ _
  split
  · exact refuse _ _ _
  · exact (boot_accept _ _ _ (by simp)).sound hf ⟨fun k => absurd k (by simp [hf]), fun _ => by simp⟩

/-- COMMAND_WRITE_COMPLETE (R192): a part held in reset takes nothing. -/
theorem boot_write (bs : List Byte) (s : State) : BootOk s.cp → BootOk (writeComplete bs s).cp := by
  intro x
  unfold writeComplete
  split
  · exact x
  rename_i hr
  have hf : s.cp.resetHeld = false := by simpa using hr
  have keep {cp : ControlPort} (h1 : cp.resetHeld = s.cp.resetHeld) (h2 : cp.device = s.cp.device)
      (h3 : cp.boot = s.cp.boot) : BootOk cp :=
    (BootKept.same (s := s) (t := { s with cp := cp }) h1 h2 h3).sound hf x
  dsimp only
  split
  · unfold takeWrite
    split <;> exact keep rfl rfl rfl
  · exact keep rfl rfl rfl
  · exact keep rfl rfl rfl

/-- RESPONSE_READ_COMPLETE (R192): the port of a part held in reset stays IDLE. -/
theorem boot_read (s : State) : BootOk s.cp → BootOk (readComplete s).cp := by
  intro x
  unfold readComplete
  dsimp only
  split
  · exact ⟨x.held, x.running⟩
  · exact ⟨x.held, x.running⟩
  · rename_i hp
    exact ⟨fun k => absurd (x.held k).2.1 (by simp [hp]), x.running⟩

/-- Power-on and the assertion of RESET (R205), and the release of RESET (R203). -/
theorem boot_putReset (s : State) : BootOk (putReset s).cp := ⟨fun _ => ⟨rfl, rfl, nofun⟩, fun _ => nofun⟩

theorem boot_release (b : Bool) (s : State) : BootOk s.cp → BootOk (releaseReset b s).cp := by
  intro x
  unfold releaseReset
  split
  · rename_i hr
    refine ⟨fun k => absurd k (by simp), fun k => ?_⟩
    have hd : s.cp.device = .running := k
    rw [(x.held hr).1] at hd
    cases hd
  · exact x

end Sys2Proof.Machine
end

