-- ==== Sys2Proof/Laws/CallerLine.lean ====
section
/-! SUPPORT. What a caller line's change of state does: `moveLine` satisfies `LineMoved`. -/

namespace Sys2Proof.Machine

/-- A change of the tone voices and of the lines' voice fields, and of nothing else. -/
structure VoicesOnly (s t : State) : Prop where
  frame : t = { s with
    ku := { s.ku with lines := t.ku.lines }
    tg := { s.tg with voices := t.tg.voices, waitList := t.tg.waitList, lineUp := t.tg.lineUp } }
  lines : ∀ j, lineAt t j = { lineAt s j with voice := (lineAt t j).voice }

theorem VoicesOnly.trans {a b c : State} (h : VoicesOnly a b) (k : VoicesOnly b c) : VoicesOnly a c := by
  obtain ⟨h1, h2⟩ := h
  obtain ⟨k1, k2⟩ := k
  refine ⟨by rw [k1, h1], fun j => by rw [k2 j, h2 j]⟩

theorem voices_put (l : Fin 3) (v : VoiceHold) (s : State) : VoicesOnly s (setLine l { lineAt s l with voice := v } s) := by
  refine ⟨rfl, fun j => ?_⟩
  by_cases hj : j = l
  · subst hj; simp [lineAt, setLine]
  · simp [lineAt, setLine, Tab.at_put_ne _ _ hj]

theorem voices_grant (v : Fin 4) (h : Holder) (s : State) : VoicesOnly s (grantVoice v h s) := by
  cases h with
  | line l =>
    refine ⟨rfl, fun j => ?_⟩
    by_cases hj : j = l
    · subst hj; simp [lineAt, grantVoice]
    · simp [lineAt, grantVoice, Tab.at_put_ne _ _ hj]
  | lineUp => exact ⟨rfl, fun j => rfl⟩
  | alertUnit => exact ⟨rfl, fun j => rfl⟩

theorem voices_giveBack (v : Fin 4) (s : State) : VoicesOnly s (giveBackVoice v s) := by
  unfold giveBackVoice
  dsimp only
  split
  · exact ⟨rfl, fun j => rfl⟩
  · rename_i h rest he; exact VoicesOnly.trans (b := {s with tg := {s.tg with voices := s.tg.voices.put v (Tab.at s.tg.voices v).release, waitList := rest}}) ⟨rfl, fun j => rfl⟩ (voices_grant v h _)

theorem voices_release (l : Fin 3) (s : State) : VoicesOnly s (releaseLineVoice l s) := by
  unfold releaseLineVoice
  dsimp only
  split
  · exact ⟨rfl, fun j => rfl⟩
  · exact VoicesOnly.trans (voices_put l .none s) ⟨rfl, fun j => rfl⟩
  · exact VoicesOnly.trans (voices_put l .none s) (voices_giveBack _ _)

theorem noteStop_eq (sl : Fin 8) (s : State) :
    noteStop sl s = { s with me := { s.me with endOwed := (noteStop sl s).me.endOwed } } := by
  unfold noteStop; split <;> rfl

theorem noteStop_owed (sl i : Fin 8) (s : State) : Tab.at (noteStop sl s).me.endOwed i = true ↔
    Tab.at s.me.endOwed i = true ∨ (i = sl ∧ Tab.at s.me.produced i = true ∧ slotFlags i (noteStop sl s) = none) := by
  have hs : slotFlags i (noteStop sl s) = slotFlags i s := by rw [noteStop_eq]; rfl
  rw [hs]
  unfold noteStop
  by_cases hi : i = sl
  · subst hi; split <;> simp_all
  · split
    · simp [Tab.at_put_ne _ _ hi, hi]
    · simp [hi]

/-- A change of the Air Queue and its notices alone. -/
structure AirOnly (s t : State) : Prop where
  frame : t = { s with cp := t.cp, ku := { s.ku with airQueue := t.ku.airQueue } }
  posted : Posted s.cp t.cp

theorem airAdd_only (n l st) (s : State) : AirOnly s (airAdd n l st s) := by
  unfold airAdd
  split
  · exact ⟨rfl, Posted.post _ _⟩
  · exact ⟨rfl, Posted.refl _⟩
theorem airRemove_only (n l) (s : State) : AirOnly s (airRemove n l s) := by
  unfold airRemove
  split
  · exact ⟨rfl, Posted.refl _⟩
  · exact ⟨rfl, Posted.post _ _⟩
theorem airRemove_queue (n l) (s : State) : (airRemove n l s).ku.airQueue = s.ku.airQueue.filter fun e => !(e.node == n && e.line == l) := by
  unfold airRemove
  split
  · rename_i h
    symm; rw [List.filter_eq_self]
    intro e he
    have := List.find?_eq_none.mp h e he
    simp at this ⊢; tauto
  · rfl
theorem airAdd_queue (n l st) (s : State) (hc : s.settings.roles.caller = true) (h : airFind n l s = none) :
    (airAdd n l st s).ku.airQueue = airInsert s.clock.blockCount ⟨n, l, st⟩ s.ku.airQueue := by
  simp [airAdd, hc, h, postAir, post]

theorem giveBack_self (v : Fin 4) (l : Fin 3) (s : State) (h : Holder.line l ∉ s.tg.waitList) :
    lineAt (giveBackVoice v s) l = lineAt s l := by
  unfold giveBackVoice
  dsimp only
  split
  · rfl
  · rename_i hd rest he
    have he : s.tg.waitList = hd :: rest := he
    rw [he] at h
    cases hd with
    | line j =>
      have : l ≠ j := by rintro rfl; simp at h
      simp [grantVoice, lineAt, Tab.at_put_ne _ _ this]
    | lineUp => rfl
    | alertUnit => rfl

theorem release_self (l : Fin 3) (s : State) (h : Holder.line l ∉ s.tg.waitList ∨ (lineAt s l).voice = .waiting) :
    (lineAt (releaseLineVoice l s) l).voice = .none := by
  unfold releaseLineVoice
  dsimp only
  split
  · assumption
  · simp [lineAt, withdrawRequest, setLine]
  · rename_i v hv
    rw [giveBack_self]
    · simp [lineAt, setLine]
    · rcases h with h | h
      · exact h
      · simp [h] at hv

theorem voices_if (c : Prop) [Decidable c] (l : Fin 3) (s : State) : VoicesOnly s (if c then releaseLineVoice l s else s) := by
  split
  · exact voices_release l s
  · exact ⟨rfl, fun j => rfl⟩

theorem lineMoved (l new k) (c : LineCause) (extra) (s : State) :
    LineMoved l new k (c.words ++ extra) s (moveLine l new k c extra s) := by
  generalize hA : (if (lineAt s l).state = .checking then releaseLineVoice l s else s) = a
  have va : VoicesOnly s a := by rw [← hA]; exact voices_if _ l s
  have vl : ∀ j, lineAt a j = { lineAt s j with voice := (lineAt a j).voice } := va.lines
  have vq : (lineAt s l).state ≠ .checking → a = s := by intro h; rw [← hA, if_neg h]
  have vv : (lineAt s l).state = .checking → Holder.line l ∉ s.tg.waitList ∨ (lineAt s l).voice = .waiting → (lineAt a l).voice = .none := by
    intro h h2; rw [← hA, if_pos h]; exact release_self l s h2
  obtain ⟨vf, -⟩ := va
  let b := setLine l ((lineAt a l).enter new) a
  let b' := { b with ku := { b.ku with onAir := onAirAfter b.ku.onAir (lineAt s l).state new } }
  let d := post k ([lineWord l, word (lineAt s l).state.ctorIdx, word new.ctorIdx] ++ c.words ++ extra) b'
  let e := if (lineAt s l).state = .ready then airRemove d.settings.nodeId l d else d
  let f := if new = .ready then airAdd e.settings.nodeId l e.clock.blockCount e else e
  have hm : moveLine l new k c extra s = noteStop (lineSlot l) f := by
    simp only [moveLine, hA]
    rfl
  have he : AirOnly d e := by
    simp only [e]; split
    · exact airRemove_only _ _ _
    · exact ⟨rfl, Posted.refl _⟩
  have hf : AirOnly e f := by
    simp only [f]; split
    · exact airAdd_only _ _ _ _
    · exact ⟨rfl, Posted.refl _⟩
  have hdf : AirOnly d f := ⟨by rw [hf.frame, he.frame], he.posted.trans hf.posted⟩
  have hcp : a.cp = s.cp := by rw [vf]
  have hck : a.clock = s.clock := by rw [vf]
  have hst : a.settings = s.settings := by rw [vf]
  have hme : a.me = s.me := by rw [vf]
  have haq : a.ku.airQueue = s.ku.airQueue := by rw [vf]
  have hoa : a.ku.onAir = s.ku.onAir := by rw [vf]
  have hfl : ∀ j, lineAt f j = lineAt b j := by intro j; rw [hdf.frame]; rfl
  have htl : ∀ j, lineAt (noteStop (lineSlot l) f) j = lineAt b j := by intro j; rw [noteStop_eq]; exact hfl j
  have hbl : lineAt b l = (lineAt a l).enter new := by simp [b, lineAt, setLine]
  have hbj : ∀ j, j ≠ l → lineAt b j = lineAt a j := by intro j hj; simp [b, lineAt, setLine, Tab.at_put_ne _ _ hj]
  have hdcp : d.cp = s.cp.post ⟨k, s.clock.blockCount, [word (l.val + 1), word (lineAt s l).state.ctorIdx, word new.ctorIdx] ++ (c.words ++ extra)⟩ := by
    simp only [d, post, b', b, setLine, hcp, hck, lineWord, List.append_assoc]
  rw [hm]
  constructor
  · rw [noteStop_eq, hdf.frame]
    simp only [d, b', b, post, setLine]
    rw [vf]
  · rw [htl, hbl, vl l]
    simp only [CallLine.enter, hookOn, seized]
    cases new <;> rfl
  · rw [htl, hbl]
    refine ⟨fun h => ?_, fun h h2 => ?_⟩
    · rw [vq h]; rfl
    · simp only [CallLine.enter]; exact vv h h2
  · intro j hj; rw [htl, hbj j hj]; exact vl j
  · intro h
    refine ⟨?_, fun j hj => by rw [htl, hbj j hj, vq h]⟩
    rw [noteStop_eq, hdf.frame]; simp only [d, b', b, post, setLine]; rw [vq h]
  · rw [noteStop_eq, hdf.frame]; simp only [d, b', b, post, setLine, hoa, onAirAfter]
  · have : (noteStop (lineSlot l) f).cp = f.cp := by rw [noteStop_eq]
    rw [this, ← hdcp]; exact hdf.posted
  · intro h1 h2
    have : f = d := by simp [f, e, h1, h2]
    rw [noteStop_eq, this]
    exact ⟨by simp only [d, b', b, post, setLine, haq], by rw [← hdcp]⟩
  · intro h1 h2
    have : f = airRemove d.settings.nodeId l d := by simp [f, e, h1, h2]
    rw [noteStop_eq, this]
    show (airRemove d.settings.nodeId l d).ku.airQueue = _
    rw [airRemove_queue]
    simp only [d, b', b, post, setLine, haq, hst]
  · intro h1 h2 h3 h4
    have : f = airAdd d.settings.nodeId l d.clock.blockCount d := by simp [f, e, h1, h2]
    rw [noteStop_eq, this]
    show (airAdd _ _ _ d).ku.airQueue = _
    rw [airAdd_queue]
    · simp only [d, b', b, post, setLine, haq, hst, hck]
    · simp only [d, b', b, post, setLine, hst, h3]
    · simp only [airFind, d, b', b, post, setLine, haq, hst] at h4 ⊢; exact h4
  · intro i
    rw [noteStop_owed]
    have hfm : f.me = s.me := by rw [hdf.frame]; simp only [d, b', b, post, setLine, hme]
    rw [hfm]
    have : i = lineSlot l ↔ i.val = l.val + 5 := by simp [lineSlot, Fin.ext_iff]
    rw [this]

end Sys2Proof.Machine
end

