-- ==== Sys2Proof/Laws/ControlQueue.lean ====
section
/-! SUPPORT. The control transmit queue (R10): what the removal of a frame, a hand-over and the ages do. -/

namespace Sys2Proof.Machine

theorem ControlFrame.tag?_request {f : ControlFrame} {b : RequestBody} (h : f.body = .request b) :
    f.tag? = some b.tag.toNat := by simp [ControlFrame.tag?, h]

/-- The removal of a frame unsent is that of R10. -/
theorem dropFrame_dropped (f : ControlFrame) (why : DropReason) (s : State) :
    FrameDropped f why.ctorIdx s (dropFrame f why s) := by
  refine ⟨fun b h => ?_, fun b h => ?_, fun b h hn => ?_, fun b q h hq => ?_, fun b h => ?_⟩
  · simp only [dropFrame, ControlFrame.tag?, h, controlKind]
    rfl
  · simp only [dropFrame, ControlFrame.tag?, h, controlKind]
    split <;> rfl
  · have : s.ku.requests.find? (fun r => r.tag == b.tag) = none := by simpa using hn
    simp only [dropFrame, ControlFrame.tag?, h, controlKind, endRequest, post, this]
    rfl
  · simp only [dropFrame, ControlFrame.tag?, h, controlKind, endRequest, post, hq]
    have : q.tag = b.tag := by simpa using List.find?_some hq
    rw [this]
    rfl
  · simp only [dropFrame, ControlFrame.tag?, h, controlKind]
    rfl

@[simp] theorem dropFrame_tx (f : ControlFrame) (why : DropReason) (s : State) : (dropFrame f why s).tx = s.tx := by
  unfold dropFrame
  dsimp only
  split
  · unfold endRequest
    split <;> rfl
  · split <;> rfl
  · rfl

/-- What the removal of a frame does rests on the queues in nothing. -/
theorem dropFrame_withTx (f : ControlFrame) (why : DropReason) (x : Transmit) (s : State) :
    dropFrame f why { s with tx := x } = { dropFrame f why s with tx := x } := by
  unfold dropFrame
  dsimp only
  split
  · have h : ∀ (b : RequestBody) (u : State), endRequest b.tag .notSent none { u with tx := x }
        = { endRequest b.tag .notSent none u with tx := x } := by
      intro b u
      unfold endRequest
      dsimp only
      split <;> rfl
    exact h _ (post .controlDropped _ s)
  · split <;> rfl
  · rfl

theorem dropFrames_withTx (l : List ControlFrame) (why : DropReason) (x : Transmit) (s : State) :
    forEach l (fun f => dropFrame f why) { s with tx := x } = { forEach l (fun f => dropFrame f why) s with tx := x } := by
  induction l generalizing s with
  | nil => rfl
  | cons f l ih =>
    show forEach l _ (dropFrame f why { s with tx := x }) = _
    rw [dropFrame_withTx]
    exact ih _

theorem filter_all {α : Type} {p : α → Bool} {l : List α} (h : ∀ a ∈ l, p a = true) : l.filter p = l :=
  List.filter_eq_self.mpr h

/-- Without a frame of age 8 nothing is removed. -/
theorem dropAged_none {s : State} (h : ∀ f ∈ s.tx.control, f.age < 8) : dropAged s = s := by
  unfold dropAged
  have e : s.tx.control.filter (fun f => decide (8 ≤ f.age)) = [] := by
    rw [List.filter_eq_nil_iff]
    intro f hf
    have := h f hf
    simp; omega
  rw [e, filter_all (fun f hf => decide_eq_true (h f hf))]
  rfl

/-- The first frame of age 8 is removed before the others. -/
theorem dropAged_first {before after : List ControlFrame} {f : ControlFrame} {s : State}
    (hs : s.tx.control = before ++ f :: after) (hb : ∀ g ∈ before, g.age < 8) (hf : 8 ≤ f.age) :
    dropAged s = dropAged (dropFrame f .aged { s with tx := { s.tx with control := before ++ after } }) := by
  have e : before.filter (fun f => decide (8 ≤ f.age)) = [] := by
    rw [List.filter_eq_nil_iff]
    intro g hg
    have := hb g hg
    simp; omega
  unfold dropAged
  rw [dropFrame_tx]
  dsimp only
  rw [hs]
  simp only [List.filter_append, List.filter_cons, e, hf, decide_true, if_true, List.nil_append,
    show ¬ f.age < 8 by omega, decide_false, Bool.false_eq_true, if_false]
  show forEach _ _ (dropFrame f .aged _) = _
  rw [dropFrame_withTx, dropFrame_withTx f .aged { s.tx with control := before ++ after } s]

/-- A frame handed to a queue with a place takes its place, after every frame of its own class or a lower one. -/
theorem insertControl_place (f : ControlFrame) (q : List ControlFrame) : ∃ before after, q = before ++ after
    ∧ insertControl f q = before ++ f :: after ∧ (∀ g ∈ before, controlClass g.body ≤ controlClass f.body)
    ∧ ∀ g, after.head? = some g → controlClass f.body < controlClass g.body := by
  refine ⟨_, _, (List.takeWhile_append_dropWhile (p := fun g => controlClass g.body ≤ controlClass f.body)).symm, rfl,
    fun g hg => ?_, fun g hg => ?_⟩
  · simpa using List.mem_takeWhile_imp hg
  · have := List.head?_dropWhile_not (fun g => decide (controlClass g.body ≤ controlClass f.body)) q
    rw [hg] at this
    simpa using this

/-- The hand-over of a frame (R10). -/
theorem handControl_room {b : ControlBody} {s : State} (h : s.tx.control.length < 8) : handControl b s = queueControl b s := by
  unfold handControl
  rw [if_pos h]

theorem handControl_full {b : ControlBody} {l : List ControlFrame} {last : ControlFrame} {s : State}
    (hs : s.tx.control = l ++ [last]) (h : 8 ≤ s.tx.control.length) :
    handControl b s = if controlClass b < controlClass last.body then
        dropFrame last .displaced (queueControl b { s with tx := { s.tx with control := l } })
      else dropFrame ⟨s.tx.frameSeq, b, 0⟩ .full s := by
  unfold handControl
  rw [if_neg (by omega)]
  simp [hs]

end Sys2Proof.Machine
end

