-- ==== Sys2Proof/Laws/Displace.lean ====
section
/-! SUPPORT. Ranking and displacement (R132, R133, R179), and the cut of an airing at the site (R150, R181): what `admitAlert`
and `admitSiteAlert` do in a full store, and that `cutSiteAiring` satisfies `SiteCut`. -/

namespace Sys2Proof.Machine

theorem ranksAbove_iff (c1 : AlertClass) (a1 i1 : Nat) (c2 : AlertClass) (a2 i2 : Nat) :
    ranksAbove c1 a1 i1 c2 a2 i2 = true
      ↔ c1.ctorIdx < c2.ctorIdx ∨ (c1 = c2 ∧ (a2 < a1 ∨ (a1 = a2 ∧ i1 < i2))) := by
  have e : c1 = c2 ↔ c1.ctorIdx = c2.ctorIdx := by cases c1 <;> cases c2 <;> decide
  simp only [ranksAbove, e]
  split <;> rename_i h
  · split <;> rename_i k <;> simp only [decide_eq_true_eq] <;> omega
  · simp only [decide_eq_true_eq]; omega

theorem Alert.above_iff (a b : Alert) : a.above b = true
    ↔ a.cls.ctorIdx < b.cls.ctorIdx ∨ (a.cls = b.cls ∧ (b.age < a.age ∨ (a.age = b.age ∧ a.id < b.id))) :=
  ranksAbove_iff ..

theorem SiteAlert.above_iff (a b : SiteAlert) : a.above b = true ↔ a.cls.ctorIdx < b.cls.ctorIdx
    ∨ (a.cls = b.cls ∧ (b.age < a.age ∨ (a.age = b.age ∧ a.key.toNat < b.key.toNat))) := ranksAbove_iff ..

/-- The fold that keeps the lowest of some records ends at one to which every other is preferred. -/
theorem foldLowest {α : Type} (above : α → α → Bool) (x : α) (irr : above x x = false)
    (asymm : ∀ y, above y x = true → above x y = false) :
    ∀ (l : List α) (m : α), (m = x ∨ (above m x = true ∧ x ∈ l)) → (∀ y ∈ l, y = x ∨ above y x = true) →
      l.foldl (fun m b => if above m b then b else m) m = x := by
  intro l
  induction l with
  | nil => rintro m (h | ⟨_, h⟩) _; exact h; simp at h
  | cons b rest ih =>
    intro m hm hl
    have hb := hl b (List.mem_cons_self ..)
    have hrest : ∀ y ∈ rest, y = x ∨ above y x = true := fun y hy => hl y (List.mem_cons_of_mem _ hy)
    refine ih _ ?_ hrest
    rcases hm with rfl | ⟨hm, hx⟩
    · left
      rcases hb with rfl | hb
      · simp
      · simp [asymm b hb]
    · rcases hb with rfl | hb
      · left; simp [hm]
      · rcases List.mem_cons.mp hx with rfl | hx
        · left; simp [hm]
        · right; refine ⟨?_, hx⟩; by_cases hmb : above m b = true <;> simp [hmb, hm, hb]

theorem Alert.above_self (a : Alert) : a.above a = false := by
  rw [Bool.eq_false_iff]; intro h; rw [Alert.above_iff] at h; omega

theorem Alert.above_asymm (a b : Alert) (h : b.above a = true) : a.above b = false := by
  rw [Bool.eq_false_iff]; intro k
  rw [Alert.above_iff] at h k
  rcases h with h | ⟨h, h'⟩ <;> rcases k with k | ⟨k, k'⟩
  · omega
  · rw [k] at h; omega
  · rw [h] at k; omega
  · omega

theorem SiteAlert.above_self (a : SiteAlert) : a.above a = false := by
  rw [Bool.eq_false_iff]; intro h; rw [SiteAlert.above_iff] at h; omega

theorem SiteAlert.above_asymm (a b : SiteAlert) (h : b.above a = true) : a.above b = false := by
  rw [Bool.eq_false_iff]; intro k
  rw [SiteAlert.above_iff] at h k
  rcases h with h | ⟨h, h'⟩ <;> rcases k with k | ⟨k, k'⟩
  · omega
  · rw [k] at h; omega
  · rw [h] at k; omega
  · omega

theorem lowestAlert_eq {l : List Alert} {x : Alert} (hx : x ∈ l) (h : ∀ y ∈ l, y = x ∨ y.above x = true) :
    lowestAlert l = some x := by
  cases l with
  | nil => simp at hx
  | cons a rest =>
    have ha := h a (List.mem_cons_self ..)
    refine congrArg some (foldLowest Alert.above x (Alert.above_self x) (fun y => Alert.above_asymm x y) rest a ?_
      fun y hy => h y (List.mem_cons_of_mem _ hy))
    rcases List.mem_cons.mp hx with rfl | hx
    · left; rfl
    · exact ha.imp id fun k => ⟨k, hx⟩

theorem lowestSite_eq {l : List SiteAlert} {x : SiteAlert} (hx : x ∈ l) (h : ∀ y ∈ l, y = x ∨ y.above x = true) :
    lowestSite l = some x := by
  cases l with
  | nil => simp at hx
  | cons a rest =>
    have ha := h a (List.mem_cons_self ..)
    refine congrArg some (foldLowest SiteAlert.above x (SiteAlert.above_self x) (fun y => SiteAlert.above_asymm x y) rest a ?_
      fun y hy => h y (List.mem_cons_of_mem _ hy))
    rcases List.mem_cons.mp hx with rfl | hx
    · left; rfl
    · exact ha.imp id fun k => ⟨k, hx⟩

theorem toDisplace_lowest {r x : Alert} {s : State} (h : Lowest x s) (hr : r.above x = true) :
    toDisplace r s = some x := by
  have : lowestAlert (s.au.table.filter fun x => x.state != .airing) = some x := by
    refine lowestAlert_eq ?_ fun y hy => ?_
    · simp [h.1.1, h.2.1]
    · simp only [List.mem_filter, bne_iff_ne] at hy
      exact h.2.2 y hy.1 hy.2
  simp [toDisplace, this, hr]

theorem own_iff (a : Alert) (s : State) : a.own s = true ↔ a.id / 256 = s.settings.nodeId.val := by simp [Alert.own]

/-- A new alert that ranks above the lowest record of a full table takes its place (R133). -/
theorem admit_displaces {r x : Alert} {s : State} (full : 4 ≤ s.au.table.length) (h : Lowest x s)
    (hr : r.above x = true) : ∃ t, admitAlert r s = (t, true) ∧ GivesPlace x r s t := by
  refine ⟨addAlert r (displaceAlert x r.id s), ?_, ?_⟩
  · simp [admitAlert, Nat.not_lt.mpr full, toDisplace_lowest h hr]
  · by_cases ho : x.id / 256 = s.settings.nodeId.val
    · have e := alertEnded x .displaced s h.1
      refine ⟨endAlert x.id .displaced s, fun _ => e, fun k => absurd ho k, ?_⟩
      have hs : (endAlert x.id .displaced s).settings = s.settings := by rw [e.frame]
      have hc : (endAlert x.id .displaced s).clock = s.clock := by rw [e.frame]
      have hd : displaceAlert x r.id s = post .alertDisplaced [word x.id, word r.id] (endAlert x.id .displaced s) := by
        unfold displaceAlert; rw [if_pos ((own_iff x s).mpr ho)]
      rw [hd, ← hs, ← hc]; rfl
    · have hf : x.own s = false := by rw [Bool.eq_false_iff]; exact fun k => ho ((own_iff x s).mp k)
      refine ⟨removeAlert x.id s, fun k => absurd k ho, fun _ => rfl, ?_⟩
      have hd : displaceAlert x r.id s = post .alertDisplaced [word x.id, word r.id] (removeAlert x.id s) := by
        unfold displaceAlert; rw [hf]; rfl
      rw [hd]; rfl

theorem idleSitePlayer_leaves (k : SiteChange) (s : State) :
    idleSitePlayer k s = { s with
      cp := (postSite (s.site.player.key.getD 0) s.site.player.cls k s).cp
      cs := (disownFetch .siteAlert s).cs
      site := { s.site with
        player := { SitePlayer.reset with envelope := s.site.player.envelope }
        filler := { s.site.filler with envelope := s.site.filler.envelope.giveEnvelope 4096 8 } }
      tg := if (Tab.at s.tg.voices 0).holder = some .alertUnit then (releaseAttentionVoice s).tg else s.tg } := by
  let u : State := { s with
    cs := (disownFetch .siteAlert s).cs
    site := { s.site with player := { SitePlayer.reset with envelope := s.site.player.envelope } } }
  have hu : disownFetch .siteAlert (setSitePlayer { SitePlayer.reset with envelope := s.site.player.envelope } s) = u := rfl
  have hi : idleSitePlayer k s = postSite (s.site.player.key.getD 0) s.site.player.cls k (giveFillerEnvelope 4096 8
      (if (Tab.at s.tg.voices 0).holder = some .alertUnit then releaseAttentionVoice u else u)) := by
    rw [← hu]; rfl
  rw [hi]
  by_cases h : (Tab.at s.tg.voices 0).holder = some .alertUnit
  · rw [if_pos h, if_pos h]; rfl
  · rw [if_neg h, if_neg h]; rfl

/-- `cutSiteAiring` is the cut of R150 and R181. -/
theorem siteCut (s : State) : SiteCut s (cutSiteAiring s) := by
  have stop : s.site.player.state ∈ [AlertPlay.tone, .silent, .message] → s.site.player.handed = false →
      cutSiteAiring s = idleSitePlayer .cut s := by
    intro h h'
    simp only [List.mem_cons, List.not_mem_nil, or_false] at h
    unfold cutSiteAiring
    dsimp only
    rcases h with h | h | h <;> simp [h, h']
  refine ⟨?_, ?_, ?_, ?_⟩
  · unfold cutSiteAiring
    dsimp only
    split
    · rfl
    · rfl
    · split
      · rw [idleSitePlayer_leaves]; split <;> rfl
      · rfl
  · unfold cutSiteAiring
    dsimp only
    rintro (h | h) <;> simp [h]
  · intro h h'
    simp only [List.mem_cons, List.not_mem_nil, or_false] at h
    unfold cutSiteAiring
    dsimp only
    rcases h with h | h | h <;> simp [h, h', giveSiteEnvelope, setSitePlayer]
  · intro h h'
    rw [stop h h', idleSitePlayer_leaves]
    refine ⟨rfl, rfl, fun key hk => ?_, ?_, fun v hv => ?_⟩
    · simp [postSite, post, hk]; rfl
    · split
      · simp [releaseAttentionVoice, Voice.release]
      · assumption
    · dsimp only
      split
      · simp [releaseAttentionVoice, Ne.symm hv]
      · rfl

theorem dropSiteAlert_quiet {key : Word} {s : State} (h : siteAiring key s = false) : dropSiteAlert key s
    = { s with site := { s.site with alerts := s.site.alerts.filter fun r => r.key != key } } := by
  have : siteAiring key { s with site := { s.site with alerts := s.site.alerts.filter fun r => r.key != key } } = false := h
  unfold dropSiteAlert
  dsimp only
  rw [this]
  rfl

/-- A new site alert that ranks above the lowest record of a full list that is not airing takes its place (R179). -/
theorem admitSite_displaces {r x : SiteAlert} {s : State} (full : 4 ≤ s.site.alerts.length) (hx : x ∈ s.site.alerts)
    (hn : siteAiring x.key s = false)
    (low : ∀ y ∈ s.site.alerts, siteAiring y.key s = false → y = x ∨ y.above x = true) (hr : r.above x = true) :
    admitSiteAlert r s = { s with
      cp := (postSite r.key r.cls .admitted (postSite x.key x.cls .displaced s)).cp
      site := { s.site with alerts := (s.site.alerts.filter fun y => y.key != x.key) ++ [r] } } := by
  have : lowestSite (s.site.alerts.filter fun x => !siteAiring x.key s) = some x := by
    refine lowestSite_eq ?_ fun y hy => ?_
    · simp [hx, hn]
    · simp only [List.mem_filter, Bool.not_eq_true'] at hy
      exact low y hy.1 hy.2
  have e : admitSiteAlert r s = addSiteAlert r (postSite x.key x.cls .displaced (dropSiteAlert x.key s)) := by
    unfold admitSiteAlert
    rw [if_neg (Nat.not_lt.mpr full), this]
    simp only [Option.filter, hr]
    rfl
  rw [e, dropSiteAlert_quiet hn]
  rfl

end Sys2Proof.Machine
end

