-- ==== Sys2Proof/Laws/LoadWindow.lean ====
section
/-! SUPPORT. The load window (R82, R83, R86): a reader's fetches that are no longer wanted, a player made IDLE, and the LOADED
entries that a change of the list order pushes out. -/

namespace Sys2Proof.Machine

theorem disownFetch_unwanted (r : Reader) (s : State) : disownFetch r s = { s with cs := fetchesUnwanted r s.cs } := by
  have k : ∀ f : Fetch, (if f.reader = r then { f with live := false } else f) = { f with live := f.live && f.reader != r } := by
    intro f
    by_cases h : f.reader = r
    · simp [h]
    · have : (f.reader != r) = true := by simpa using h
      simp [h, this]
  unfold disownFetch fetchesUnwanted
  cases s.cs.port <;> simp [k]

theorem idlePlayer_leaves (p : Fin 2) (s : State) : idlePlayer p s = { s with
    cs := fetchesUnwanted (playerReader p) s.cs
    pu := { s.pu with players := s.pu.players.put p (playerAt s p).cleared } } := by
  unfold idlePlayer
  rw [disownFetch_unwanted]
  rfl

theorem dropLoad_some {tag : Half} {p : Fin 2} {s : State} (h : playerOf s tag = some p) : dropLoad tag s = { s with
    cs := fetchesUnwanted (playerReader p) s.cs
    pu := { s.pu with
      cues := s.pu.cues.map fun x => if x.tag = tag then { x with state := .waiting } else x
      players := s.pu.players.put p (playerAt s p).cleared } } := by
  unfold dropLoad
  rw [h]
  show changeCue tag _ (idlePlayer p s) = _
  rw [idlePlayer_leaves]
  rfl

theorem dropLoad_none {tag : Half} {s : State} (h : playerOf s tag = none) : dropLoad tag s = s := by
  unfold dropLoad
  rw [h]

/-- What trimming the load window may change. -/
structure WindowKept (s t : State) : Prop where
  frame : t = { s with
    cs := { s.cs with waiting := t.cs.waiting, port := t.cs.port, asked := t.cs.asked }
    pu := { s.pu with cues := t.pu.cues, players := t.pu.players } }
  tags : t.pu.cues.map CueEntry.tag = s.pu.cues.map CueEntry.tag

theorem dropLoad_keeps (tag : Half) (s : State) : WindowKept s (dropLoad tag s) := by
  cases h : playerOf s tag with
  | none => rw [dropLoad_none h]; exact ⟨rfl, rfl⟩
  | some p =>
    rw [dropLoad_some h]
    refine ⟨rfl, ?_⟩
    simp only [List.map_map]
    apply List.map_congr_left
    intro x _
    simp only [Function.comp]
    split <;> rfl

theorem WindowKept.trans {s t u : State} (h : WindowKept s t) (k : WindowKept t u) : WindowKept s u := by
  refine ⟨?_, k.tags.trans h.tags⟩
  rw [k.frame, h.frame]

theorem dropLoads_keep (l : List CueEntry) (s : State) : WindowKept s (forEach l (fun e => dropLoad e.tag) s) := by
  induction l generalizing s with
  | nil => exact ⟨rfl, rfl⟩
  | cons e l ih => exact (dropLoad_keeps e.tag s).trans (ih _)

/-- `trimWindow` trims the load window as R83 and R86 have it. -/
theorem trimWindow_trimmed (s : State) : WindowTrimmed s (trimWindow s) := by
  have k := dropLoads_keep ((s.pu.cues.drop 2).filter fun e => e.state == .loaded && !atFront s e) s
  have out {e : CueEntry} (h : e.state = .loaded → atFront s e = true) : (e.state == .loaded && !atFront s e) = false := by
    by_cases g : e.state = .loaded
    · simp [h g]
    · simp [g]
  refine ⟨k.frame, k.tags, fun h => ?_, fun before e after hs he hf h => ?_⟩
  · have n : (s.pu.cues.drop 2).filter (fun e => e.state == .loaded && !atFront s e) = [] := by
      rw [List.filter_eq_nil_iff]
      intro e m
      simp [out (h e m)]
    unfold trimWindow
    rw [n]
    rfl
  · have n : (s.pu.cues.drop 2).filter (fun e => e.state == .loaded && !atFront s e) = [e] := by
      have z : ∀ l : List CueEntry, (∀ x ∈ l, x.state = .loaded → atFront s x = true) →
          l.filter (fun e => e.state == .loaded && !atFront s e) = [] := by
        intro l hl
        rw [List.filter_eq_nil_iff]
        intro x m
        simp [out (hl x m)]
      rw [hs, List.filter_append, z before fun x m => h x (List.mem_append_left _ m), List.filter_cons]
      simp [he, hf]
      intro x m
      exact h x (List.mem_append_right _ m)
    have d : trimWindow s = dropLoad e.tag s := by
      unfold trimWindow
      rw [n]
      rfl
    rw [d]
    exact ⟨dropLoad_none, fun p => dropLoad_some⟩

end Sys2Proof.Machine
end

