-- ==== Sys2Proof/Laws/Playout.lean ====
section
/-! SUPPORT. What a player's fetch position, its stream and its low flag have to do with each other (R85, R87, R88). -/

namespace Sys2Proof.Machine

/-! ## The low flag -/

section
variable (x : Player)

@[simp] theorem Player.clearLow_low : x.clearLow.low = (x.low && !x.ready) := rfl
@[simp] theorem Player.clearLow_state : x.clearLow.state = x.state := rfl
@[simp] theorem Player.clearLow_stream : x.clearLow.stream = x.stream := rfl
@[simp] theorem Player.clearLow_buffer : x.clearLow.buffer = x.buffer := rfl
@[simp] theorem Player.clearLow_fetchPosition : x.clearLow.fetchPosition = x.fetchPosition := rfl
@[simp] theorem Player.clearLow_position : x.clearLow.position = x.position := rfl
@[simp] theorem Player.clearLow_entry : x.clearLow.entry = x.entry := rfl
@[simp] theorem Player.clearLow_detached : x.clearLow.detached = x.detached := rfl
@[simp] theorem Player.clearLow_ready : x.clearLow.ready = x.ready := rfl
@[simp] theorem Player.clearLow_fullyFetched : x.clearLow.fullyFetched = x.fullyFetched := rfl

end

theorem Player.ready_of_fullyFetched {x : Player} (h : x.fullyFetched = true) : x.ready = true := by simp [Player.ready, h]

theorem Player.clearLow_of_ready {x : Player} (h : x.ready = true) : x.clearLow = { x with low := false } := by
  simp [Player.clearLow, h]

/-! ## Streams -/

@[simp] theorem copyClip_copied (s : State) (c : StreamClip) : (copyClip s c).copied = true := by
  unfold copyClip; split <;> simp_all

@[simp] theorem seekStream_isEmpty (s : State) (l : List StreamClip) (o : Nat) :
    (seekStream s l o).1.isEmpty = l.isEmpty := by
  cases l <;> simp only [seekStream]
  split <;> rfl

/-- Where no clip of the stream has the frame sought, the stream is fully fetched. -/
theorem streamBeyond_of_seek_none (s : State) (l : List StreamClip) (o : Nat) (h : (seekStream s l o).2 = none) :
    streamBeyond (seekStream s l o).1 o = false := by
  induction l generalizing o with
  | nil => rfl
  | cons c rest ih =>
    simp only [seekStream] at h ⊢
    split at h
    · simp at h
    · rename_i hn
      simp only [hn, if_false, streamBeyond, copyClip_copied, Bool.not_true, seekStream_isEmpty]
      exact ih _ h

/-! ## Loading -/

@[simp] theorem playerAt_setPlayer (p : Fin 2) (x : Player) (s : State) : playerAt (setPlayer p x s) p = x := by
  simp [playerAt, setPlayer]

theorem playerAt_setPlayer_ne {p q : Fin 2} (x : Player) (s : State) (h : q ≠ p) :
    playerAt (setPlayer p x s) q = playerAt s q := Tab.at_put_ne _ _ h

/-- A player that is not LOADING, or not yet ready, only clears its low flag. -/
theorem settleLoad_of_not {p : Fin 2} {s : State} (h : (playerAt s p).state ≠ .loading ∨ (playerAt s p).ready = false) :
    settleLoad p s = setPlayer p (playerAt s p).clearLow s := by
  rcases h with h | h <;> simp [settleLoad, h]

/-- A LOADING player that is ready becomes LOADED. -/
theorem settleLoad_loaded {p : Fin 2} {s : State} (h : (playerAt s p).state = .loading) (hr : (playerAt s p).ready = true) :
    settleLoad p s = startIfReady p (setPlayer p { playerAt s p with low := false, state := .loaded } s) := by
  unfold settleLoad
  dsimp only
  rw [if_pos (by simp [h, hr]), Player.clearLow_of_ready hr]

/-- A request that finds no frame leaves the stream fully fetched. -/
theorem playerFetch_none {p : Fin 2} {s : State} (ha : (playerAt s p).asks = true)
    (hf : hasFetch (playerReader p) s = false)
    (hn : (seekStream s (playerAt s p).stream (playerAt s p).fetchPosition).2 = none) :
    let x : Player := { playerAt s p with stream := (seekStream s (playerAt s p).stream (playerAt s p).fetchPosition).1 }
    x.fullyFetched = true ∧ playerFetch p s = settleLoad p (setPlayer p x s) := by
  refine ⟨by simp [Player.fullyFetched, streamBeyond_of_seek_none _ _ _ hn], ?_⟩
  simp [playerFetch, ha, hf, hn]

end Sys2Proof.Machine
end

