-- ==== Sys2Proof/Laws/Entries.lean ====
section
/-! SUPPORT. Starts, ends and releases of cue entries (R90, R92, R96, R100): what each operation does, said once. -/

namespace Sys2Proof.Machine

/-! ## What an update leaves -/

section
variable (p q : Fin 2) (x : Player) (s : State)

@[simp] theorem Player.cleared_underruns : x.cleared.underruns = x.underruns := rfl
@[simp] theorem Player.cleared_notWritten : x.cleared.notWritten = x.notWritten := rfl
@[simp] theorem Player.cleared_state : x.cleared.state = .idle := rfl
@[simp] theorem Player.cleared_buffer : x.cleared.buffer = [] := rfl

@[simp] theorem setPlayer_setPlayer (y : Player) : setPlayer p y (setPlayer p x s) = setPlayer p y s := by
  simp [setPlayer]

@[simp] theorem givePlayerEnvelope_twice (a b c d : Nat) : givePlayerEnvelope p a b (givePlayerEnvelope p c d s) =
    { s with me := { s.me with
      playerEnvelope := s.me.playerEnvelope.put p
        (((Tab.at s.me.playerEnvelope p).giveEnvelope c d).giveEnvelope a b) } } := by
  simp [givePlayerEnvelope]

end

theorem tag_of_cueOf {s : State} {t : Half} {e : CueEntry} (h : cueOf s t = some e) : e.tag = t := by
  simpa using List.find?_some h

theorem find_tag_map (f : CueEntry → CueEntry) (h : ∀ y, (f y).tag = y.tag) (t : Half) (l : List CueEntry) :
    (l.map f).find? (fun y => y.tag == t) = (l.find? fun y => y.tag == t).map f := by
  rw [List.find?_map]
  congr 2
  funext y
  simp [h]

theorem Ramp.started_resume (r : Ramp) (n : Nat) :
    (r.giveEnvelope 0 0).giveEnvelope 4096 8 = r.started (some .resume) n := rfl

theorem Ramp.started_restart (r : Ramp) (n : Nat) :
    (if n = 0 then r.giveEnvelope 4096 0 else (r.giveEnvelope 0 0).giveEnvelope 4096 n) = r.started (some .restart) n := by
  simp only [Ramp.started, Ramp.giveEnvelope, Ramp.give]
  split <;> rfl

/-- The envelope of a release, on the whole state. -/
theorem releaseEnvelope_gives (p : Fin 2) (b : HoldBehaviour) (n : Nat) (s : State) : releaseEnvelope p b n s =
    { s with me := { s.me with
      playerEnvelope := s.me.playerEnvelope.put p ((Tab.at s.me.playerEnvelope p).started (some b) n) } } := by
  cases b <;> simp only [releaseEnvelope, givePlayerEnvelope_twice, ← Ramp.started_resume _ n]
  all_goals
    simp only [Ramp.started, givePlayerEnvelope, Ramp.giveEnvelope, Ramp.give]
    split <;> simp_all [Ramp.rest]

/-! ## Starts -/

theorem moveToFront_orders {e : CueEntry} {s : State} (hc : cueOf s e.tag = some e) : moveToFront e.tag s =
    { s with pu := { s.pu with cues := if atFront s e then s.pu.cues else
        (s.pu.cues.filter fun y => y.tag != e.tag).filter (atFront s)
          ++ e :: (s.pu.cues.filter fun y => y.tag != e.tag).filter fun y => !atFront s y } } := by
  unfold moveToFront
  rw [hc]
  dsimp only
  split <;> rfl

theorem startPlayer_started (p : Fin 2) (n : Nat) (s : State) : startPlayer p n s =
    { s with
      pu := { s.pu with players := s.pu.players.put p (playerAt s p).started }
      me := { s.me with
        playerEnvelope := s.me.playerEnvelope.put p
          ((Tab.at s.me.playerEnvelope p).started (playerAt s p).reload n) } } := by
  unfold startPlayer
  generalize playerAt s p = x
  rcases hr : x.reload with _ | b
  · by_cases hn : 0 < n <;>
      simp [hn, hr, Player.started, Ramp.started, Player.playFrom, setPlayer, givePlayerEnvelope]
  · have hb : (HoldBehaviour.restart == .resume) = false ∧ (HoldBehaviour.skip == .resume) = false := ⟨rfl, rfl⟩
    cases b <;> simp [hr, hb, Player.started, Player.playFrom, setPlayer, releaseEnvelope_gives]

theorem startEntry_started {p : Fin 2} {e : CueEntry} {h : HeldEntry} {s : State} (he : (playerAt s p).entry = some h)
    (ht : h.tag = e.tag) (hd : (playerAt s p).detached = false) (hc : cueOf s e.tag = some e) :
    startEntry p e s = entryStarted p e s := by
  unfold startEntry
  dsimp only
  rw [startPlayer_started, moveToFront_orders hc]
  have hs : (Tab.at s.pu.players p).started.entry = some h := he
  have hq : (Tab.at s.pu.players p).started.detached = false := hd
  have hx (l : List CueEntry) : playerAt { s with pu := { s.pu with cues := l } } p = playerAt s p := rfl
  rw [hx]
  have hm (l : List CueEntry) (f g : CueEntry → CueEntry) (hg : ∀ y, (g y).tag = y.tag) :
      (l.map fun y => if y.tag = e.tag then g y else y).map (fun y => if y.tag = e.tag then f y else y)
        = l.map fun y => if y.tag = e.tag then f (g y) else y := by
    rw [List.map_map]
    apply List.map_congr_left
    intro y _
    simp only [Function.comp]
    split <;> simp_all
  rcases hf : holdPresent s with _ | _ <;> by_cases hl : 0 < e.dueSince <;>
    simp only [entryStarted, hf, hl, changeCue, post, postIf, decide_true, decide_false, if_true, if_false, Bool.false_eq_true]
  all_goals
    have ho : (Tab.at s.pu.players p).entry = some h := he
    simp [enterWaiting, disownFetch_unwanted, setOwnCueState, changeOwnCue, changeCue, setPlayer, playerAt, hs, hq, ht, hm,
      Player.heldAtStart, fetchesUnwanted, ho]
  all_goals cases h.hold <;> rfl

/-- An entry that comes due does so as `ComesDue` says (R90, R92). -/
theorem makeDue_comesDue (t : Half) (s : State) : ComesDue t s (makeDue t s) := by
  have hw : changeCue t (fun e => if (e.state = .waiting ∨ e.state = .loaded) ∧ e.due = false then
      { e with due := true, dueSince := 0 } else e) s = entryDue t s := by
    have k (e : CueEntry) : (if e.tag = t then
          (if (e.state = .waiting ∨ e.state = .loaded) ∧ e.due = false then { e with due := true, dueSince := 0 } else e) else e)
        = if e.tag = t ∧ (e.state = .waiting ∨ e.state = .loaded) ∧ e.due = false then
          { e with due := true, dueSince := 0 } else e := by
      by_cases h : e.tag = t <;> simp [h]
    simp only [changeCue, entryDue, k]
  have hm : makeDue t s = match playerOf s t with
      | some p => startIfReady p (entryDue t s)
      | none => entryDue t s := by
    unfold makeDue
    rw [hw]
    rfl
  rw [hm]
  refine ⟨fun h => by rw [h], fun p h hs => ?_, fun p e h hs hc hd hst => ?_⟩
  · rw [h]
    unfold startIfReady
    exact if_neg fun k => hs k.1
  · rw [h]
    have hp : holdsTag (playerAt s p) t = true := by
      simpa using List.find?_some h
    simp only [holdsTag, Bool.and_eq_true, bne_iff_ne, ne_eq, Bool.not_eq_true', beq_iff_eq] at hp
    obtain ⟨⟨-, hdet⟩, hent⟩ := hp
    obtain ⟨x, hx, hxt⟩ := Option.map_eq_some_iff.1 hent
    subst hxt
    have hc' : cueOf (entryDue x.tag s) x.tag = some { e with due := true, dueSince := 0 } := by
      have he := tag_of_cueOf hc
      show List.find? _ (List.map _ s.pu.cues) = _
      rw [find_tag_map _ (fun y => by split <;> rfl)]
      unfold cueOf at hc
      simp [hc, he, hst, hd]
    have hl : (playerAt (entryDue x.tag s) p).state = .loaded ∧ (playerAt (entryDue x.tag s) p).detached = false := ⟨hs, hdet⟩
    have ht : heldTag (playerAt (entryDue x.tag s) p) = x.tag := by
      show heldTag (playerAt s p) = x.tag
      simp [heldTag, hx]
    show startIfReady p (entryDue x.tag s) = _
    unfold startIfReady
    dsimp only
    rw [if_pos hl, ht, hc']
    exact startEntry_started hx (tag_of_cueOf hc).symm hdet ((tag_of_cueOf hc).symm ▸ hc')

/-! ## Loading -/

/-- A player whose buffer or stream has changed stands as `BufferSettles` says (R88, R92). -/
theorem settleLoad_settles (p : Fin 2) (x : Player) (s : State) : BufferSettles p x s (settleLoad p (setPlayer p x s)) := by
  refine ⟨fun h => ?_, fun h hr hd => ?_, fun k e h hr hd he hc hdue => ?_⟩
  · rw [settleLoad_of_not (by simpa using h), playerAt_setPlayer, setPlayer_setPlayer]
    rfl
  · rw [settleLoad_loaded (by simpa using h) (by simpa using hr)]
    simp only [setPlayer_setPlayer, playerAt_setPlayer]
    unfold startIfReady
    simp only [playerAt_setPlayer]
    rcases hd with hd | hd
    · rw [if_neg (by simp [hd])]
      rfl
    · split
      · have hn : cueOf (setPlayer p { x with low := false, state := .loaded } s)
            (heldTag { x with low := false, state := .loaded }) = cueOf s (heldTag x) := rfl
        rw [hn]
        split
        · rename_i e he
          rw [if_neg (by simp [hd e he])]
          rfl
        · rfl
      · rfl
  · rw [settleLoad_loaded (by simpa using h) (by simpa using hr)]
    simp only [setPlayer_setPlayer, playerAt_setPlayer]
    unfold startIfReady
    simp only [playerAt_setPlayer]
    rw [if_pos (by simp [hd])]
    have ht : heldTag { x with low := false, state := .loaded } = k.tag := by simp [heldTag, he]
    have hn : cueOf (setPlayer p { x with low := false, state := .loaded } s) k.tag = some e := hc
    rw [ht, hn]
    dsimp only
    rw [if_pos hdue]
    have et := tag_of_cueOf hc
    exact startEntry_started (by rw [playerAt_setPlayer]; exact he) et.symm (by rw [playerAt_setPlayer]; exact hd) (et ▸ hn)

/-! ## Ends -/

theorem endEntry_ended {p : Fin 2} {c : EntryEnd} {h : HeldEntry} {e : CueEntry} {s : State}
    (he : (playerAt s p).entry = some h) (hd : (playerAt s p).detached = false) (hc : cueOf s h.tag = some e) :
    endEntry p c s = entryEnded p e c s := by
  have et := tag_of_cueOf hc
  have ht : heldTag (playerAt s p) = e.tag := by simp [heldTag, he, et]
  have hn : cueOf (idlePlayer p s) e.tag = some e := by
    rw [idlePlayer_leaves]
    exact et ▸ hc
  unfold endEntry applyEndAction
  simp only [hd, Bool.false_eq_true, if_false, ht, hn]
  rw [idlePlayer_leaves]
  cases hx : e.endAction <;> simp [postEnded, post, entryEnded, hx, Player.cleared, wordOpt]

/-! ## Releases -/

theorem releasePlayer_released {p : Fin 2} {h : HeldEntry} {s : State} (hs : (playerAt s p).state = .held)
    (hp : (playerAt s p).phase = .waiting) (he : (playerAt s p).entry = some h) (hd : (playerAt s p).detached = false) :
    PlayerReleased p h s (releasePlayer p s) := by
  have hr : releasePlayer p s = match h.hold with
      | .skip => match follower h.tag s with
        | some t => makeDue t (endEntry p .skip s)
        | none => endEntry p .skip s
      | b =>
        if (playerAt s p).ready then
          let x := if b = .resume then (playerAt s p).playFrom (playerAt s p).holdPosition (playerAt s p).segueGiven
            else (playerAt s p).playFrom 0 false
          releaseEnvelope p b h.fadeIn (setPlayer p x (setOwnCueState p .playing s))
        else
          setPlayer p { playerAt s p with state := .loading, reload := some b, releaseDue := false }
            (changeOwnCue p (fun c => { c with state := .loaded, due := true, dueSince := 0 }) s) := by
    cases hh : h.hold <;> cases hf : follower h.tag s <;> simp [releasePlayer, hs, hp, he, hh, hf]
  have ho (f : CueEntry → CueEntry) : changeOwnCue p f s = changeCue h.tag f s := by
    simp [changeOwnCue, he, hd]
  refine ⟨fun hn hb => ?_, fun hn hb => ?_, fun e hk hc => ?_⟩
  · rw [hr]
    cases hh : h.hold
    · simp [hb, setOwnCueState, ho, releaseEnvelope_gives, setPlayer, changeCue, Player.playFrom, Ne]
    · have hq : (HoldBehaviour.restart == .resume) = false := rfl
      simp [hb, hq, setOwnCueState, ho, releaseEnvelope_gives, setPlayer, changeCue, Player.playFrom]
    · exact absurd hh hn
  · rw [hr]
    cases hh : h.hold
    · simp [hb, ho, setPlayer, changeCue]
    · simp [hb, ho, setPlayer, changeCue]
    · exact absurd hh hn
  · rw [hr, hk]
    have hx := endEntry_ended (c := .skip) he hd hc
    refine ⟨fun hf => by simp [hf, hx], fun f hf => ?_⟩
    simp only [hf, hx]
    exact makeDue_comesDue f _

end Sys2Proof.Machine
end

