-- ==== Sys2Proof/Laws/LineTick.lean ====
section
/-! SUPPORT. What a block start does to a caller line: `lineTick` satisfies `LineTicked`. -/

namespace Sys2Proof.Machine

@[simp] theorem lineAt_setLine (l : Fin 3) (x : CallLine) (s : State) : lineAt (setLine l x s) l = x := by
  simp [lineAt, setLine]

@[simp] theorem setLine_setLine (l : Fin 3) (x y : CallLine) (s : State) : setLine l y (setLine l x s) = setLine l y s := by
  simp [setLine]

theorem samplesPeak_foldl (l : List Int) : samplesPeak l = (l.map Int.natAbs).foldl max 0 := by
  simp [samplesPeak, List.foldl_map]

theorem Filter.sample_level (f : Filter) (b : Bool) : (f.sample b).level = if 3 ≤ (f.count b).run then !f.level else f.level := by
  have h : (f.count b).level = f.level := by unfold Filter.count; split <;> [rfl; split <;> rfl]
  unfold Filter.sample Filter.settle
  split <;> simp_all

theorem Filter.sample_rejected {f : Filter} {b : Bool} (h : ¬3 ≤ (f.count b).run) : f.sample b = f.count b := if_neg h

/-- The samples of a block start at a line: a ring acceptance may make it ring, and nothing else happens. -/
theorem sampleLine_samples (input : BlockInput) (l : Fin 3) (s : State) : sampleLine input l s =
    let y := (lineAt s l).sampled (input.ring.getD l false) (input.loop.getD l false)
    if (lineAt s l).state = .idle ∧ (lineAt s l).ring.level = false ∧ y.ring.level = true then
      moveLine l .ringing .callRinging .ring [] (setLine l y s)
    else setLine l y s := by
  generalize hx : lineAt s l = x
  have hl (r : Filter) (b : Bool) : acceptLineInput l .loop (setLine l { x with ring := r, loop := x.loop.count b } s)
      = setLine l { x with ring := r, loop := x.loop.sample b } s := by
    simp only [acceptLineInput, lineAt_setLine, setLine_setLine]
    split
    · rfl
    · rename_i h
      rw [Filter.sample_rejected h]
  unfold sampleLine
  dsimp only
  rw [hx, hl]
  generalize input.ring.getD l false = r
  generalize input.loop.getD l false = q
  have hv := Filter.sample_level x.ring r
  have hs : (x.sampled r q).ring = x.ring.sample r := rfl
  simp only [acceptLineInput, lineAt_setLine, setLine_setLine, hs]
  by_cases h : 3 ≤ (x.ring.count r).run
  · rw [if_pos h] at hv
    rw [if_pos h]
    show callRings l (setLine l (x.sampled r q) s) = _
    have ht : (x.sampled r q).state = x.state := rfl
    simp only [callRings, lineAt_setLine, hv, hs, ht]
    cases x.ring.level <;> simp
  · rw [if_neg h] at hv
    rw [if_neg h, if_neg (by rw [hv]; simp)]
    unfold CallLine.sampled
    rw [Filter.sample_rejected h]

theorem moveLine_state (l : Fin 3) (new : CallState) (k : NoticeKind) (c : LineCause) (extra : List Word) (s : State) :
    (lineAt (moveLine l new k c extra s) l).state = new := by rw [(lineMoved l new k c extra s).line]

/-- A line that returns to IDLE stands in IDLE, or in RINGING at once. -/
theorem returnToIdle_state (l : Fin 3) (k : NoticeKind) (c : LineCause) (s : State) :
    (lineAt (returnToIdle l k c s) l).state = .idle ∨ (lineAt (returnToIdle l k c s) l).state = .ringing := by
  unfold returnToIdle callRings
  dsimp only
  split
  · exact .inr (moveLine_state ..)
  · exact .inl (moveLine_state ..)

theorem abandonCall_state (l : Fin 3) (s : State) : (lineAt (abandonCall l s) l).state = (lineAt s l).state
    ∨ (lineAt (abandonCall l s) l).state = .idle ∨ (lineAt (abandonCall l s) l).state = .ringing := by
  unfold abandonCall
  dsimp only
  split
  · exact .inr (returnToIdle_state ..)
  · exact .inl rfl

theorem endDead_state (l : Fin 3) (s : State) : (lineAt (endDead l s) l).state = (lineAt s l).state
    ∨ (lineAt (endDead l s) l).state = .idle ∨ (lineAt (endDead l s) l).state = .ringing := by
  unfold endDead
  dsimp only
  split
  · exact .inr (returnToIdle_state ..)
  · exact .inl rfl

theorem endClearing_state (l : Fin 3) (s : State) : (lineAt (endClearing l s) l).state = (lineAt s l).state
    ∨ (lineAt (endClearing l s) l).state = .idle ∨ (lineAt (endClearing l s) l).state = .ringing := by
  unfold endClearing
  dsimp only
  split
  · exact .inr (returnToIdle_state ..)
  · exact .inl rfl

theorem callerRow_next (f : State → State) {s : State} (hr : onLine s = true) (hc : s.settings.roles.caller = true) :
    callerRow f s = .next (f s) := by
  simp [callerRow, rowWhere, hr, hc]

theorem lineTick_ticked {before : CallLine} (input : BlockInput) (ups : Tab (List Int) 3) (l : Fin 3) {s : State}
    (hs : before.state = (lineAt s l).state) (hr : onLine s = true) (hc : s.settings.roles.caller = true) :
    LineTicked l before.holdsVoice (input.ring.getD l false) (input.loop.getD l false) (Tab.at ups l) s
      (lineTick before input ups l s) := by
  have ht : lineTick before input ups l s = readyTick l (lineAt s l).state (checkTick l before.holdsVoice (Tab.at ups l)
      (loopTick l (lineAt s l).state (timerTick l (lineAt s l).state (sampleLine input l s)))) := by
    simp only [lineTick, hs]
  rw [ht, sampleLine_samples]
  generalize hy : (lineAt s l).sampled (input.ring.getD l false) (input.loop.getD l false) = y
  have hst : y.state = (lineAt s l).state := by rw [← hy]; rfl
  have hre (z : CallLine) : onLine (setLine l z s) = true ∧ (setLine l z s).settings.roles.caller = true := ⟨hr, hc⟩
  have hrow (f : State → State) (z : CallLine) : callerRow f (setLine l z s) = .next (f (setLine l z s)) :=
    callerRow_next f (hre z).1 (hre z).2
  have lost (z : CallLine) (hz : z = y.loopCounted) (hm : seized (lineAt s l).state = true) : loopTick l (lineAt s l).state
      (timerTick l (lineAt s l).state (setLine l y s)) = loseCaller l (setLine l z s) := by
    have e1 : timerTick l (lineAt s l).state (setLine l y s) = setLine l y s := by
      unfold timerTick
      simp only [lineAt_setLine, hst, ne_eq, not_true_eq_false, if_false]
      revert hm
      cases (lineAt s l).state <;> simp [seized]
    rw [e1]
    unfold loopTick
    simp only [hm, if_true, lineAt_setLine, setLine_setLine, hz]
    rfl
  dsimp only
  constructor
  · intro hi
    rw [hi]
    simp only [hy]
    refine ⟨fun h1 h2 => ?_, fun h => ?_⟩
    · rw [if_pos (by simp [h1, h2])]
      have hm := lineMoved l .ringing .callRinging .ring [] (setLine l y s)
      generalize moveLine l .ringing .callRinging .ring [] (setLine l y s) = t at hm
      have hn : (lineAt t l).state = .ringing := by rw [hm.line]
      have e1 : timerTick l .idle t = t := by simp [timerTick, hn]
      have e2 : loopTick l .idle t = t := by simp [loopTick, seized]
      have e3 : checkTick l before.holdsVoice (Tab.at ups l) t = t := by simp [checkTick, hn]
      have e4 : readyTick l .idle t = t := by simp [readyTick]
      rw [e1, e2, e3, e4]
      exact hm
    · rw [if_neg (by rcases h with h | h <;> simp [h])]
      simp [timerTick, loopTick, seized, checkTick, readyTick, hst, hi]
  · intro i st hm hi
    have hne : (lineAt s l).state ≠ .idle := by rintro h; rw [h] at hi; subst hi; simp at hm
    rw [if_neg (fun h => hne h.1)]
    have done (u : State) (hu : (lineAt u l).state ≠ .checking) (h1 : seized st = false) (h2 : st ≠ .ready) :
        readyTick l st (checkTick l before.holdsVoice (Tab.at ups l) (loopTick l st u)) = u := by
      have e2 : loopTick l st u = u := by simp [loopTick, h1]
      rw [e2]
      have e3 : checkTick l before.holdsVoice (Tab.at ups l) u = u := by simp [checkTick, hu]
      rw [e3]
      simp [readyTick, h2]
    rw [hi]
    simp only [List.mem_cons, Prod.mk.injEq, List.not_mem_nil, or_false] at hm
    have hyt : y.state = st := hst.trans hi
    rcases hm with ⟨rfl, rfl⟩ | ⟨rfl, rfl⟩ | ⟨rfl, rfl⟩
    · have e : timerTick l .ringing (setLine l y s) = abandonCall l (setLine l { y with
          timer := if CallState.ringing = .ringing ∧ y.ring.level = true then 0 else min 8000 (y.timer + 1) } s) := by
        simp [timerTick, hyt, bump]
      have k := abandonCall_state l (setLine l { y with
        timer := if CallState.ringing = .ringing ∧ y.ring.level = true then 0 else min 8000 (y.timer + 1) } s)
      rw [lineAt_setLine] at k
      rw [e, done _ (fun h => by rw [h] at k; simp [hyt] at k) rfl (by simp)]
      simp only [hy]
      exact hrow _ _
    · have e : timerTick l .dead (setLine l y s) = endDead l (setLine l { y with
          timer := if CallState.dead = .ringing ∧ y.ring.level = true then 0 else min 8000 (y.timer + 1) } s) := by
        simp [timerTick, hyt, bump]
      have k := endDead_state l (setLine l { y with
        timer := if CallState.dead = .ringing ∧ y.ring.level = true then 0 else min 8000 (y.timer + 1) } s)
      rw [lineAt_setLine] at k
      rw [e, done _ (fun h => by rw [h] at k; simp [hyt] at k) rfl (by simp)]
      simp only [hy]
      exact hrow _ _
    · have e : timerTick l .clearing (setLine l y s) = endClearing l (setLine l { y with
          timer := if CallState.clearing = .ringing ∧ y.ring.level = true then 0 else min 8000 (y.timer + 1) } s) := by
        simp [timerTick, hyt, bump]
      have k := endClearing_state l (setLine l { y with
        timer := if CallState.clearing = .ringing ∧ y.ring.level = true then 0 else min 8000 (y.timer + 1) } s)
      rw [lineAt_setLine] at k
      rw [e, done _ (fun h => by rw [h] at k; simp [hyt] at k) rfl (by simp)]
      simp only [hy]
      exact hrow _ _
  · intro hm z hz
    have hzy : z = y.loopCounted := by simp only [z, hy]
    have hzs : z.state = (lineAt s l).state := by rw [hzy]; exact hst
    clear_value z
    have hm' : seized (lineAt s l).state = true := by
      simp only [List.mem_cons, List.not_mem_nil, or_false] at hm
      rcases hm with h | h | h | h | h <;> rw [h] <;> rfl
    rw [if_neg (fun h => by rw [h.1] at hm'; simp [seized] at hm'), lost z hzy hm']
    have hc : (lineAt (loseCaller l (setLine l z s)) l).state = .clearing := by
      unfold loseCaller
      simp only [lineAt_setLine]
      rw [if_pos ⟨by rw [hzs]; exact hm', hz⟩]
      exact moveLine_state ..
    rw [show checkTick l before.holdsVoice (Tab.at ups l) (loseCaller l (setLine l z s)) = loseCaller l (setLine l z s) by
      simp [checkTick, hc]]
    rw [show readyTick l (lineAt s l).state (loseCaller l (setLine l z s)) = loseCaller l (setLine l z s) by
      simp [readyTick, hc]]
    exact hrow _ _
  · intro z hz
    have hzy : z = y.loopCounted := by simp only [z, hy]
    have hzs : z.state = (lineAt s l).state := by rw [hzy]; exact hst
    clear_value z
    have stays (hm : seized (lineAt s l).state = true) : loopTick l (lineAt s l).state (timerTick l (lineAt s l).state
        (setLine l y s)) = setLine l z s := by
      rw [lost z hzy hm]
      unfold loseCaller
      simp only [lineAt_setLine]
      rw [if_neg (by omega)]
    refine ⟨fun hm => ?_, fun hm => ?_, fun hm => ?_⟩
    · simp only [List.mem_cons, List.not_mem_nil, or_false] at hm
      have hm' : seized (lineAt s l).state = true := by rcases hm with h | h | h <;> rw [h] <;> rfl
      rw [if_neg (fun h => by rw [h.1] at hm'; simp [seized] at hm'), stays hm']
      rcases hm with h | h | h <;> simp [checkTick, readyTick, hzs, h]
    · rw [if_neg (fun h => by rw [h.1] at hm; simp at hm), stays (by rw [hm]; rfl)]
      simp [checkTick, readyTick, hzs, hm, bump]
    · rw [if_neg (fun h => by rw [h.1] at hm; simp at hm), stays (by rw [hm]; rfl)]
      have last (u : State) : readyTick l (lineAt s l).state u = u := by simp [readyTick, hm]
      refine ⟨fun hv => ?_, fun v hb hv => ?_⟩
      · rw [last]
        unfold checkTick
        simp only [lineAt_setLine]
        rw [if_neg]
        rintro ⟨h1, -, h3⟩
        rcases hv with hv | hv
        · rw [h1] at hv; simp at hv
        · unfold CallLine.holdsVoice at h3
          split at h3
          · rename_i w hw
            exact hv w hw
          · simp at h3
      · rw [last]
        unfold checkTick
        simp only [lineAt_setLine]
        rw [if_pos ⟨hb, hzs.trans hm, by simp [CallLine.holdsVoice, hv]⟩]
        simp only [setLine_setLine]
        have hck : ({ z with
            checkCount := bump 512 z.checkCount
            checkPeak := if s.settings.checkLength - s.settings.checkLength / 2 < bump 512 z.checkCount then
                max z.checkPeak (samplesPeak (Tab.at ups l)) else z.checkPeak } : CallLine)
            = z.checked s.settings.checkLength (Tab.at ups l) := by
          simp [CallLine.checked, bump, samplesPeak_foldl]
        refine (hrow _ _).trans ?_
        rw [← hck]
        rfl

end Sys2Proof.Machine
end

