-- ==== Sys2Proof/Laws/LinkStream.lean ====
section
/-! SUPPORT. The receivers of the link streams (R208): a frame behind its marker is collected whole, a frame of a
wrong length is discarded at its length field. -/

namespace Sys2Proof.Machine

/-- The bytes still to come of a frame complete it. -/
theorem linkScan_body (length : Nat) (rest : List Byte) :
    ∀ (bs : List Byte), rest ≠ [] →
      linkScan length (.body bs rest.length) rest = (.hunt, [.frame (bs.reverse ++ rest)]) := by
  induction rest with
  | nil => intro _ h; exact absurd rfl h
  | cons b t ih =>
    intro bs _
    cases t with
    | nil => simp [linkScan, linkStep]
    | cons c u =>
      have h := ih (b :: bs) (by simp)
      rw [linkScan]
      simp only [List.length_cons, linkStep] at h ⊢
      rw [h]
      simp

/-- A frame of its kind's length, sent behind its marker, is collected from its length field on (R208). -/
theorem linkScan_frame (length : Nat) (bytes : List Byte) (hl : (halfAt bytes 0).toNat = length) (h1 : 1 ≤ length)
    (hn : bytes.length = length + 2) :
    linkScan length .hunt (onStream bytes) = (.hunt, [.frame bytes]) := by
  match bytes, hn with
  | a :: b :: rest, hn =>
    have hr : rest.length = length := by simpa using hn
    have h0 : (a ++ b).toNat = length := by simpa [halfAt, byteAt] using hl
    have hb := linkScan_body length rest [b, a] (by rintro rfl; simp at hr; omega)
    rw [hr] at hb
    simp [linkScan, linkStep, onStream, h0, hb]

/-- A wrong length is come to at the length field, and the hunt goes on from the next byte (R208). -/
theorem linkScan_wrongLength (length : Nat) (a b : Byte) (h : (a ++ b).toNat ≠ length) (rest : List Byte) :
    linkScan length .hunt (onStream (a :: b :: rest)) =
      ((linkScan length .hunt rest).1, .wrongLength :: (linkScan length .hunt rest).2) := by
  simp [linkScan, linkStep, onStream, h]

end Sys2Proof.Machine
end

