-- ==== Sys2Proof/Laws/PerInstr.lean ====
section
/-! SUPPORT. Statements made command by command: every command type lies in 1 to 50 (R210). -/

namespace Sys2Proof.Laws.Codes

/-- The command type of a host command is one of the fifty of R193, numbered from 1 (R210). -/
def Statement (i : Instr) : Prop := ∀ ty, commandType i = some ty → 1 ≤ ty ∧ ty ≤ 50

theorem event {i : Instr} (h : commandType i = none) : Statement i := by
  intro ty e
  rw [h] at e
  cases e

theorem command {i : Instr} {n : Nat} (h : commandType i = some n) (hn : 1 ≤ n ∧ n ≤ 50) : Statement i := by
  intro ty e
  rw [h] at e
  cases e
  exact hn

theorem powerOn : Statement .powerOn := event rfl

theorem resetAsserted : Statement .resetAsserted := event rfl

theorem resetReleased (boot : Bool) : Statement (.resetReleased boot) := event rfl

theorem flashReadComplete (flash : Option (List Byte)) : Statement (.flashReadComplete flash) := event rfl

theorem commandWriteComplete (bytes : List Byte) : Statement (.commandWriteComplete bytes) := event rfl

theorem responseReadComplete : Statement .responseReadComplete := event rfl

theorem readCounters : Statement .readCounters := command rfl (by decide)

theorem rejoin : Statement .rejoin := command rfl (by decide)

theorem readChannels : Statement .readChannels := command rfl (by decide)

theorem readTiers : Statement .readTiers := command rfl (by decide)

theorem setGain (slot gain : Word) : Statement (.setGain slot gain) := command rfl (by decide)

theorem setChannel (slot air cue : Word) : Statement (.setChannel slot air cue) := command rfl (by decide)

theorem setTrim (bus trim : Word) : Statement (.setTrim bus trim) := command rfl (by decide)

theorem readMeters : Statement .readMeters := command rfl (by decide)

theorem defineClip (clip format length : Word) (extents : List Word) : Statement (.defineClip clip format length extents) := command rfl (by decide)

theorem clipData (clip offset : Word) (bytes : List Byte) : Statement (.clipData clip offset bytes) := command rfl (by decide)

theorem sealClip (clip : Word) : Statement (.sealClip clip) := command rfl (by decide)

theorem deleteClip (clip : Word) : Statement (.deleteClip clip) := command rfl (by decide)

theorem setClip (clip trim segue : Word) : Statement (.setClip clip trim segue) := command rfl (by decide)

theorem setGroup (group mode : Word) (clips : List Word) (start : Word) : Statement (.setGroup group mode clips start) := command rfl (by decide)

theorem clearGroup (group : Word) : Statement (.clearGroup group) := command rfl (by decide)

theorem readClip (clip : Word) : Statement (.readClip clip) := command rfl (by decide)

theorem readGroup (group : Word) : Statement (.readGroup group) := command rfl (by decide)

theorem readExtents (first count : Word) : Statement (.readExtents first count) := command rfl (by decide)

theorem cueInsert (a b c d e f g h i j k l : Word) : Statement (.cueInsert a b c d e f g h i j k l) := command rfl (by decide)

theorem cueRemove (tag : Word) : Statement (.cueRemove tag) := command rfl (by decide)

theorem cueMove (tag position : Word) : Statement (.cueMove tag position) := command rfl (by decide)

theorem cueGain (tag gain : Word) : Statement (.cueGain tag gain) := command rfl (by decide)

theorem play : Statement .play := command rfl (by decide)

theorem stop (tag : Word) : Statement (.stop tag) := command rfl (by decide)

theorem seatReset : Statement .seatReset := command rfl (by decide)

theorem readCue : Statement .readCue := command rfl (by decide)

theorem readPlayer (player : Word) : Statement (.readPlayer player) := command rfl (by decide)

theorem readSeat : Statement .readSeat := command rfl (by decide)

theorem answerLine (line : Word) : Statement (.answerLine line) := command rfl (by decide)

theorem screenLine (line : Word) : Statement (.screenLine line) := command rfl (by decide)

theorem holdLine (line : Word) : Statement (.holdLine line) := command rfl (by decide)

theorem readyLine (line : Word) : Statement (.readyLine line) := command rfl (by decide)

theorem takeNext : Statement .takeNext := command rfl (by decide)

theorem takeCaller (node line : Word) : Statement (.takeCaller node line) := command rfl (by decide)

theorem dropCaller (node line : Word) : Statement (.dropCaller node line) := command rfl (by decide)

theorem hangUpCaller (node line : Word) : Statement (.hangUpCaller node line) := command rfl (by decide)

theorem readLines : Statement .readLines := command rfl (by decide)

theorem readAirQueue : Statement .readAirQueue := command rfl (by decide)

theorem readRequests : Statement .readRequests := command rfl (by decide)

theorem remoteOutput (output level : Word) : Statement (.remoteOutput output level) := command rfl (by decide)

theorem alertIssue (cls repeats clip key : Word) : Statement (.alertIssue cls repeats clip key) := command rfl (by decide)

theorem alertCancel (id : Word) : Statement (.alertCancel id) := command rfl (by decide)

theorem readAlerts : Statement .readAlerts := command rfl (by decide)

theorem readLink : Statement .readLink := command rfl (by decide)

theorem lineUpOn (route : Word) : Statement (.lineUpOn route) := command rfl (by decide)

theorem lineUpOff : Statement .lineUpOff := command rfl (by decide)

theorem readPanel : Statement .readPanel := command rfl (by decide)

theorem configure (image : List Byte) : Statement (.configure image) := command rfl (by decide)

theorem readStatus : Statement .readStatus := command rfl (by decide)

theorem readNotice : Statement .readNotice := command rfl (by decide)

theorem markBegin (elapsed : Nat) (input : BlockInput) : Statement (.markBegin elapsed input) := event rfl

theorem localExpiry (input : BlockInput) : Statement (.localExpiry input) := event rfl

theorem sendMark (input : BlockInput) : Statement (.sendMark input) := event rfl

theorem siteBlockStart (input : BlockInput) : Statement (.siteBlockStart input) := event rfl

theorem frameOffer (offset : Nat) : Statement (.frameOffer offset) := event rfl

theorem arbitrationLost : Statement .arbitrationLost := event rfl

theorem frameSendComplete : Statement .frameSendComplete := event rfl

theorem frameAbandoned (mark : Bool) : Statement (.frameAbandoned mark) := event rfl

theorem readbackMute : Statement .readbackMute := event rfl

theorem controlFrameAged : Statement .controlFrameAged := event rfl

theorem audioFrameReceived (f : RxAudio) : Statement (.audioFrameReceived f) := event rfl

theorem announceReceived (f : RxControl) : Statement (.announceReceived f) := event rfl

theorem alertFrameReceived (f : RxControl) : Statement (.alertFrameReceived f) := event rfl

theorem requestReceived (f : RxControl) : Statement (.requestReceived f) := event rfl

theorem setRemoteOutputReceived (f : RxControl) : Statement (.setRemoteOutputReceived f) := event rfl

theorem answerReceived (f : RxControl) : Statement (.answerReceived f) := event rfl

theorem lineJoinedMarks : Statement .lineJoinedMarks := event rfl

theorem lineJoinedAlone : Statement .lineJoinedAlone := event rfl

theorem announceDue : Statement .announceDue := event rfl

theorem peerLost (node : Fin 8) : Statement (.peerLost node) := event rfl

theorem peerAbsent (node : Fin 8) : Statement (.peerAbsent node) := event rfl

theorem channelGone (node slot : Fin 8) : Statement (.channelGone node slot) := event rfl

theorem programSilent : Statement .programSilent := event rfl

theorem programRestored : Statement .programRestored := event rfl

theorem dramWriteGrant : Statement .dramWriteGrant := event rfl

theorem dramWriteComplete : Statement .dramWriteComplete := event rfl

theorem fetchRequest (reader : Reader) : Statement (.fetchRequest reader) := event rfl

theorem fetchGrant : Statement .fetchGrant := event rfl

theorem fetchComplete : Statement .fetchComplete := event rfl

theorem playerLoad : Statement .playerLoad := event rfl

theorem entryDueAtTime (tag : Half) : Statement (.entryDueAtTime tag) := event rfl

theorem seguePointReached (player : Fin 2) : Statement (.seguePointReached player) := event rfl

theorem playerEnding (player : Fin 2) : Statement (.playerEnding player) := event rfl

theorem holdFadeComplete (player : Fin 2) : Statement (.holdFadeComplete player) := event rfl

theorem playersReleased : Statement .playersReleased := event rfl

theorem seatHolding : Statement .seatHolding := event rfl

theorem seatYielded : Statement .seatYielded := event rfl

theorem yieldTimerExpiry : Statement .yieldTimerExpiry := event rfl

theorem callRinging (line : Fin 3) : Statement (.callRinging line) := event rfl

theorem callAbandoned (line : Fin 3) : Statement (.callAbandoned line) := event rfl

theorem lineChecked (line : Fin 3) : Statement (.lineChecked line) := event rfl

theorem lineDeadTimeout (line : Fin 3) : Statement (.lineDeadTimeout line) := event rfl

theorem callerGone (line : Fin 3) : Statement (.callerGone line) := event rfl

theorem clearingComplete (line : Fin 3) : Statement (.clearingComplete line) := event rfl

theorem lineInputAccepted (line : Fin 3) (contact : Contact) : Statement (.lineInputAccepted line contact) := event rfl

theorem requestNoAnswer (tag : Half) : Statement (.requestNoAnswer tag) := event rfl

theorem receiverBegin (bytes : List Byte) : Statement (.receiverBegin bytes) := event rfl

theorem receiverEnd (bytes : List Byte) : Statement (.receiverEnd bytes) := event rfl

theorem receiverCancel (bytes : List Byte) : Statement (.receiverCancel bytes) := event rfl

theorem receiverTimeout : Statement .receiverTimeout := event rfl

theorem alertFrameRefresh (id : Nat) : Statement (.alertFrameRefresh id) := event rfl

theorem alertStart : Statement .alertStart := event rfl

theorem attentionEnd : Statement .attentionEnd := event rfl

theorem gapEnd : Statement .gapEnd := event rfl

theorem intervalEnd (id : Nat) : Statement (.intervalEnd id) := event rfl

theorem alertFadeComplete : Statement .alertFadeComplete := event rfl

theorem alertExpired (id : Nat) : Statement (.alertExpired id) := event rfl

theorem alertSilentRemoval (id : Nat) : Statement (.alertSilentRemoval id) := event rfl

theorem backFrameReceived (bytes : List Byte) : Statement (.backFrameReceived bytes) := event rfl

theorem backFrameMissing : Statement .backFrameMissing := event rfl

theorem fillerOn : Statement .fillerOn := event rfl

theorem fillerFadeInDone : Statement .fillerFadeInDone := event rfl

theorem fillerOff : Statement .fillerOff := event rfl

theorem forwardFrameReceived (bytes : List Byte) (levels : List Bool) : Statement (.forwardFrameReceived bytes levels) := event rfl

theorem missingEvent : Statement .missingEvent := event rfl

theorem feedLossLimit : Statement .feedLossLimit := event rfl

theorem feedValidRun (bytes : List Byte) (levels : List Bool) : Statement (.feedValidRun bytes levels) := event rfl

theorem backFrameSend : Statement .backFrameSend := event rfl

theorem siteStatusAccepted (level : Fin 8) : Statement (.siteStatusAccepted level) := event rfl

theorem siteReceiverBegin (bytes : List Byte) : Statement (.siteReceiverBegin bytes) := event rfl

theorem siteReceiverEnd (bytes : List Byte) : Statement (.siteReceiverEnd bytes) := event rfl

theorem siteReceiverCancel (bytes : List Byte) : Statement (.siteReceiverCancel bytes) := event rfl

theorem siteAlertExpiry (key : Word) : Statement (.siteAlertExpiry key) := event rfl

theorem siteAlertAiring : Statement .siteAlertAiring := event rfl

theorem siteAttentionEnd : Statement .siteAttentionEnd := event rfl

theorem siteGapEnd : Statement .siteGapEnd := event rfl

theorem siteAlertCutDone : Statement .siteAlertCutDone := event rfl

theorem inputChange (input : Fin 4) : Statement (.inputChange input) := event rfl

theorem startBitReceived : Statement .startBitReceived := event rfl

theorem noMarkAfterExpiry : Statement .noMarkAfterExpiry := event rfl

theorem invalidFrameReceived (f : RxFrame) : Statement (.invalidFrameReceived f) := event rfl

theorem receiverBadMessage (bytes : List Byte) : Statement (.receiverBadMessage bytes) := event rfl

theorem siteReceiverError (bytes : List Byte) : Statement (.siteReceiverError bytes) := event rfl

end Sys2Proof.Laws.Codes
end

