-- ==== Sys2Proof/Laws/Sine.lean ====
section
/-! SUPPORT. The sine table (R183): every entry is the integer nearest to 8,388,607 × sin(2πi / 256). -/

namespace Sys2Proof.Machine

/-- The scale of the rational approximations. -/
def sineScale : Int := 100000000000000000000

/-- cos(π / 128) and sin(π / 128) at that scale, rounded down. -/
def turnCos : Int := 99969881869620422011
def turnSin : Int := 2454122852291228803

theorem sqrt_between {x a b lo hi : ℝ} (ha : a ≤ x) (hb : x ≤ b) (l : lo ^ 2 ≤ a) (h : b ≤ hi ^ 2)
    (h1 : 0 ≤ hi) : lo ≤ √x ∧ √x ≤ hi :=
  ⟨Real.le_sqrt_of_sq_le (l.trans ha), Real.sqrt_le_iff.mpr ⟨h1, hb.trans h⟩⟩

theorem series_1 : (1.414213562373095048801688724209 : ℝ) ≤ Real.sqrtTwoAddSeries 0 1 ∧ Real.sqrtTwoAddSeries 0 1 ≤ 1.414213562373095048801688724210 := by
  rw [Real.sqrtTwoAddSeries]
  exact sqrt_between (a := 2) (b := 2) (by simp) (by simp)
    (by norm_num) (by norm_num) (by norm_num)

theorem series_2 : (1.847759065022573512256366378793 : ℝ) ≤ Real.sqrtTwoAddSeries 0 2 ∧ Real.sqrtTwoAddSeries 0 2 ≤ 1.847759065022573512256366378794 := by
  rw [Real.sqrtTwoAddSeries]
  exact sqrt_between (a := 3.414213562373095048801688724209) (b := 3.414213562373095048801688724210) (by linarith [series_1.1]) (by linarith [series_1.2])
    (by norm_num) (by norm_num) (by norm_num)

theorem series_3 : (1.961570560806460898252364472268 : ℝ) ≤ Real.sqrtTwoAddSeries 0 3 ∧ Real.sqrtTwoAddSeries 0 3 ≤ 1.961570560806460898252364472269 := by
  rw [Real.sqrtTwoAddSeries]
  exact sqrt_between (a := 3.847759065022573512256366378793) (b := 3.847759065022573512256366378794) (by linarith [series_2.1]) (by linarith [series_2.2])
    (by norm_num) (by norm_num) (by norm_num)

theorem series_4 : (1.990369453344393772489673906218 : ℝ) ≤ Real.sqrtTwoAddSeries 0 4 ∧ Real.sqrtTwoAddSeries 0 4 ≤ 1.990369453344393772489673906220 := by
  rw [Real.sqrtTwoAddSeries]
  exact sqrt_between (a := 3.961570560806460898252364472268) (b := 3.961570560806460898252364472269) (by linarith [series_3.1]) (by linarith [series_3.2])
    (by norm_num) (by norm_num) (by norm_num)

theorem series_5 : (1.997590912410344785429543209517 : ℝ) ≤ Real.sqrtTwoAddSeries 0 5 ∧ Real.sqrtTwoAddSeries 0 5 ≤ 1.997590912410344785429543209519 := by
  rw [Real.sqrtTwoAddSeries]
  exact sqrt_between (a := 3.990369453344393772489673906218) (b := 3.990369453344393772489673906220) (by linarith [series_4.1]) (by linarith [series_4.2])
    (by norm_num) (by norm_num) (by norm_num)

theorem series_6 : (1.999397637392408440231531299332 : ℝ) ≤ Real.sqrtTwoAddSeries 0 6 ∧ Real.sqrtTwoAddSeries 0 6 ≤ 1.999397637392408440231531299333 := by
  rw [Real.sqrtTwoAddSeries]
  exact sqrt_between (a := 3.997590912410344785429543209517) (b := 3.997590912410344785429543209519) (by linarith [series_5.1]) (by linarith [series_5.2])
    (by norm_num) (by norm_num) (by norm_num)

theorem cos_turn : |Real.cos (Real.pi / 128) * sineScale - turnCos| ≤ 2 := by
  have h : Real.cos (Real.pi / 128) = Real.sqrtTwoAddSeries 0 6 / 2 := by
    rw [← Real.cos_pi_over_two_pow 6]; norm_num
  obtain ⟨l, u⟩ := series_6
  rw [h, abs_le]
  simp only [sineScale, turnCos]
  push_cast
  constructor <;> linarith

theorem sin_turn : |Real.sin (Real.pi / 128) * sineScale - turnSin| ≤ 2 := by
  have h : Real.sin (Real.pi / 128) = √(2 - Real.sqrtTwoAddSeries 0 5) / 2 := by
    rw [← Real.sin_pi_over_two_pow_succ 5]; norm_num
  obtain ⟨l, u⟩ := sqrt_between (x := 2 - Real.sqrtTwoAddSeries 0 5) (a := 0.002409087589655214570456790481) (b := 0.002409087589655214570456790483)
    (lo := 0.049082457045824576063469058910) (hi := 0.049082457045824576063469058931) (by linarith [series_5.2]) (by linarith [series_5.1])
    (by norm_num) (by norm_num) (by norm_num)
  rw [h, abs_le]
  simp only [sineScale, turnSin]
  push_cast
  constructor <;> linarith

/-- The approximations of cos and sin at the next entry's angle. -/
def turnOnce (p : Int × Int) : Int × Int :=
  ((p.1 * turnCos - p.2 * turnSin) / sineScale, (p.2 * turnCos + p.1 * turnSin) / sineScale)

/-- The approximations of cos and sin at entry `k`'s angle. -/
def turned : Nat → Int × Int
  | 0 => (sineScale, 0)
  | k + 1 => turnOnce (turned k)

/-- The entries from `i` on, `n` of them, are within half of what the approximations give, less what these may be off. -/
def entriesFit : Nat → Nat → Int × Int → Bool
  | 0, _, _ => true
  | n + 1, i, p => decide ((8388607 * p.2 - sineEntry i * sineScale).natAbs + 8388607 * 100000000 ≤ sineScale.natAbs / 2)
      && entriesFit n (i + 1) (turnOnce p)

theorem table_fits : entriesFit 256 0 (sineScale, 0) = true := by decide +kernel

theorem entriesFit_at {n : Nat} : ∀ {i : Nat}, entriesFit n i (turned i) = true → ∀ j, i ≤ j → j < i + n →
    (8388607 * (turned j).2 - sineEntry j * sineScale).natAbs + 8388607 * 100000000 ≤ sineScale.natAbs / 2 := by
  induction n with
  | zero => intro i _ j h1 h2; omega
  | succ n ih =>
    intro i h j h1 h2
    simp only [entriesFit, Bool.and_eq_true, decide_eq_true_eq] at h
    by_cases e : j = i
    · subst e; exact h.1
    · exact ih (i := i + 1) h.2 j (by omega) (by omega)

/-- How far the approximations at entry `k` may be off. -/
noncomputable def turnError (k : Nat) : ℝ := 1000 * (26 / 25) ^ k

theorem turnError_le {k : Nat} (h : k ≤ 256) : turnError k ≤ 100000000 := by
  have : ((26 : ℝ) / 25) ^ k ≤ (26 / 25) ^ 256 := pow_le_pow_right₀ (by norm_num) h
  have h2 : ((26 : ℝ) / 25) ^ 256 ≤ 100000 := by norm_num
  unfold turnError; linarith

theorem floor_near (a : Int) : |((a / sineScale : Int) : ℝ) - (a : ℝ) / sineScale| ≤ 1 := by
  have hp : (0 : ℝ) < sineScale := by simp [sineScale]
  have h1 := Int.emod_add_mul_ediv a sineScale
  have h2 := Int.emod_nonneg a (show sineScale ≠ 0 by decide)
  have h3 := Int.emod_lt_of_pos a (show 0 < sineScale by decide)
  have h1' : ((a % sineScale : Int) : ℝ) + sineScale * ((a / sineScale : Int) : ℝ) = a := by exact_mod_cast h1
  have h2' : (0 : ℝ) ≤ ((a % sineScale : Int) : ℝ) := by exact_mod_cast h2
  have h3' : ((a % sineScale : Int) : ℝ) < sineScale := by exact_mod_cast h3
  have : ((a / sineScale : Int) : ℝ) - (a : ℝ) / sineScale = - (((a % sineScale : Int) : ℝ) / sineScale) := by
    rw [← h1']; field_simp; ring
  rw [this, abs_neg, abs_of_nonneg (by positivity), div_le_one hp]
  exact h3'.le

theorem turn_error {x c C u d n E : ℝ} (hn : 0 < n) (h1 : |x - c| ≤ E) (h2 : |C * n - u| ≤ 2) (h3 : |c| ≤ 2 * n)
    (h4 : |C| ≤ d) : |x * C - c * u / n| ≤ E * d + 4 := by
  have e : x * C - c * u / n = (x - c) * C + c * (C * n - u) / n := by field_simp; ring
  rw [e]
  refine (abs_add_le _ _).trans (add_le_add ?_ ?_)
  · rw [abs_mul]; exact mul_le_mul h1 h4 (abs_nonneg _) ((abs_nonneg _).trans h1)
  · rw [abs_div, abs_mul, abs_of_pos hn, div_le_iff₀ hn]
    calc |c| * |C * n - u| ≤ (2 * n) * 2 := mul_le_mul h3 h2 (abs_nonneg _) (by positivity)
      _ = 4 * n := by ring

theorem turned_near : ∀ k : Nat, k ≤ 256 →
    |Real.cos (k * (Real.pi / 128)) * sineScale - (turned k).1| ≤ turnError k
    ∧ |Real.sin (k * (Real.pi / 128)) * sineScale - (turned k).2| ≤ turnError k := by
  have hp : (0 : ℝ) < sineScale := by simp [sineScale]
  intro k
  induction k with
  | zero => intro _; simp [turned, turnError]
  | succ k ih =>
    intro hk
    obtain ⟨hc, hs⟩ := ih (by omega)
    have hB := turnError_le (k := k) (by omega)
    have bound : ∀ {x c : ℝ}, |x| ≤ 1 → |x * sineScale - c| ≤ turnError k → |c| ≤ 2 * sineScale := by
      intro x c hx h
      have h1 : |x * sineScale| ≤ sineScale := by rw [abs_mul, abs_of_pos hp]; nlinarith
      have h2 : |c| ≤ |x * sineScale| + |x * sineScale - c| := by
        have := abs_sub_abs_le_abs_sub c (x * sineScale)
        rw [abs_sub_comm] at this; linarith
      have h3 : (100000000 : ℝ) ≤ sineScale := by simp only [sineScale]; norm_num
      linarith
    have bc := bound (Real.abs_cos_le_one _) hc
    have bs := bound (Real.abs_sin_le_one _) hs
    have ct := cos_turn
    have st := sin_turn
    have sd : |Real.sin (Real.pi / 128)| ≤ 1 / 40 := by
      have : |Real.sin (Real.pi / 128) * sineScale| ≤ 2 + turnSin := by
        have := abs_sub_abs_le_abs_sub (Real.sin (Real.pi / 128) * sineScale) turnSin
        have h : |(turnSin : ℝ)| = turnSin := abs_of_nonneg (by simp only [turnSin]; norm_num)
        linarith
      rw [abs_mul, abs_of_pos hp, ← le_div_iff₀ hp] at this
      refine this.trans ?_
      rw [div_le_div_iff₀ hp (by norm_num)]
      simp only [sineScale, turnSin]; norm_num
    have cd : |Real.cos (Real.pi / 128)| ≤ 1 := Real.abs_cos_le_one _
    have a1 := turn_error hp hc ct bc cd
    have a2 := turn_error hp hs st bs sd
    have a3 := turn_error hp hs ct bs cd
    have a4 := turn_error hp hc st bc sd
    have step : ((k + 1 : Nat) : ℝ) * (Real.pi / 128) = k * (Real.pi / 128) + Real.pi / 128 := by push_cast; ring
    have grow : turnError k * 1 + 4 + (turnError k * (1 / 40) + 4) + 1 ≤ turnError (k + 1) := by
      have : (1 : ℝ) ≤ (26 / 25) ^ k := one_le_pow₀ (by norm_num)
      simp only [turnError, pow_succ]; linarith
    rw [step, Real.cos_add, Real.sin_add]
    have f1 := floor_near ((turned k).1 * turnCos - (turned k).2 * turnSin)
    have f2 := floor_near ((turned k).2 * turnCos + (turned k).1 * turnSin)
    push_cast at f1 f2
    rw [sub_div] at f1
    rw [add_div] at f2
    rw [abs_le] at a1 a2 a3 a4 f1 f2
    simp only [turned, turnOnce]
    rw [abs_le, abs_le]
    refine ⟨⟨?_, ?_⟩, ⟨?_, ?_⟩⟩ <;> linarith [a1.1, a1.2, a2.1, a2.2, a3.1, a3.2, a4.1, a4.2, f1.1, f1.2, f2.1, f2.2]

/-- Every entry of the sine table is the nearest integer to 8,388,607 × sin(2πi / 256) (R183). -/
theorem sineEntry_nearest (i : Nat) (h : i < 256) :
    |(sineEntry i : ℝ) - 8388607 * Real.sin (2 * Real.pi * i / 256)| ≤ 1 / 2 := by
  have hp : (0 : ℝ) < sineScale := by simp [sineScale]
  have fit := entriesFit_at (n := 256) (i := 0) table_fits i (Nat.zero_le _) (by omega)
  obtain ⟨-, near⟩ := turned_near i (by omega)
  have hB := turnError_le (k := i) (by omega)
  have ang : 2 * Real.pi * i / 256 = i * (Real.pi / 128) := by ring
  rw [ang]
  have fit' : |(8388607 : ℝ) * (turned i).2 - sineEntry i * sineScale| + 8388607 * 100000000 ≤ sineScale / 2 := by
    have h1 : (((8388607 * (turned i).2 - sineEntry i * sineScale).natAbs + 8388607 * 100000000 : Nat) : ℝ)
        ≤ ((sineScale.natAbs / 2 : Nat) : ℝ) := by exact_mod_cast fit
    push_cast [Nat.cast_natAbs] at h1
    have h2 : ((sineScale.natAbs / 2 : Nat) : ℝ) = sineScale / 2 := by simp only [sineScale]; norm_num
    rw [h2] at h1
    linarith
  have key : |(sineEntry i : ℝ) * sineScale - 8388607 * (Real.sin (i * (Real.pi / 128)) * sineScale)| ≤ sineScale / 2 := by
    rw [abs_le] at *
    have := abs_le.mp (show |(8388607 : ℝ) * (turned i).2 - sineEntry i * sineScale| ≤ sineScale / 2 - 8388607 * 100000000 by linarith)
    constructor <;> linarith [this.1, this.2, near.1, near.2]
  have e : (sineEntry i : ℝ) * sineScale - 8388607 * (Real.sin (i * (Real.pi / 128)) * sineScale)
      = ((sineEntry i : ℝ) - 8388607 * Real.sin (i * (Real.pi / 128))) * sineScale := by ring
  rw [e, abs_mul, abs_of_pos hp] at key
  have : |(sineEntry i : ℝ) - 8388607 * Real.sin (i * (Real.pi / 128))| * sineScale ≤ 1 / 2 * sineScale := by linarith
  exact le_of_mul_le_mul_right this hp

end Sys2Proof.Machine
end

