-- ==== Sys2Proof/Laws/SourceStage.lean ====
section
/-! SUPPORT. The source stage: what one slot's turn changes, and what the Contribution Table finds after it. -/

namespace Sys2Proof.Machine

/-! ## Entries found -/

theorem Entry.for_congr {e e' : Entry} (hn : e'.node = e.node) (hs : e'.slot = e.slot) (n j : Fin 8) :
    e'.for n j = e.for n j := by simp [Entry.for, hn, hs]

theorem Entry.for_other {e : Entry} {n j n' j' : Fin 8} (h : e.for n' j' = true) (d : n ≠ n' ∨ j ≠ j') :
    e.for n j = false := by
  simp only [Entry.for, Bool.and_eq_true, beq_iff_eq, Bool.and_eq_false_iff, beq_eq_false_iff_ne] at *
  rcases d with d | d
  · exact .inl (h.1 ▸ d.symm)
  · exact .inr (h.2 ▸ d.symm)

theorem newEntry_for (n j : Fin 8) (own : Bool) (a : Arrival) : (newEntry n j own a).for n j = true := by
  simp [Entry.for, newEntry]

/-- A change of one channel's entry leaves what is found for another. -/
theorem findEntry_change_other {n j n' j' : Fin 8} {f : Entry → Entry} (l : List Entry)
    (hn : ∀ e, (f e).node = e.node) (hs : ∀ e, (f e).slot = e.slot) (d : n ≠ n' ∨ j ≠ j') :
    findEntry n j (l.map fun e => if e.for n' j' then f e else e) = findEntry n j l := by
  induction l with
  | nil => rfl
  | cons x r ih =>
    simp only [findEntry, List.map_cons, List.find?_cons] at *
    by_cases hx : x.for n' j' = true
    · have h2 : (f x).for n j = false := (Entry.for_congr (hn x) (hs x) n j).trans (Entry.for_other hx d)
      simp [hx, Entry.for_other hx d, h2, ih]
    · simp only [hx, if_false, Bool.false_eq_true]
      rw [ih]

/-- A change of a channel's entry is what is found for it. -/
theorem findEntry_change {n j : Fin 8} {f : Entry → Entry} {l : List Entry} {e : Entry}
    (hn : ∀ e, (f e).node = e.node) (hs : ∀ e, (f e).slot = e.slot) (h : findEntry n j l = some e) :
    findEntry n j (l.map fun e => if e.for n j then f e else e) = some (f e) := by
  induction l with
  | nil => simp [findEntry] at h
  | cons x r ih =>
    have h2 := Entry.for_congr (hn x) (hs x) n j
    simp only [findEntry, List.map_cons, List.find?_cons] at *
    by_cases hx : x.for n j = true <;> simp_all

theorem findEntry_insert_other {n j : Fin 8} {e : Entry} (l : List Entry) (h : e.for n j = false) :
    findEntry n j (insertEntry e l) = findEntry n j l := by
  induction l with
  | nil => simp [insertEntry, findEntry, h]
  | cons x r ih =>
    simp only [insertEntry]
    split
    · simp [findEntry, h]
    · simp only [findEntry, List.find?_cons] at *
      split <;> simp_all

theorem findEntry_insert {n j : Fin 8} {e : Entry} {l : List Entry} (h : e.for n j = true)
    (hl : findEntry n j l = none) : findEntry n j (insertEntry e l) = some e := by
  induction l with
  | nil => simp [insertEntry, findEntry, h]
  | cons x r ih =>
    simp only [insertEntry]
    split
    · simp [findEntry, h]
    · simp only [findEntry, List.find?_cons] at *
      split <;> simp_all

/-! ## One slot's turn -/

/-- The AUDIO frame as which slot `k` queues a block (R6, R9, R47). -/
def frameOf (k : Fin 8) (b : SourceBlock) (s : State) : AudioFrame :=
  ⟨audioClass b.lineUp k b.tier, b.tier, b.air, b.cue, b.mono, b.last, Tab.at s.me.seq k, b.tag, b.samples⟩

/-- A block as slot `k`'s own arrival (R30, R47). -/
def arrivalFrom (k : Fin 8) (b : SourceBlock) (s : State) : Arrival :=
  ⟨s.clock.blockCount, channelTier k b.tier, b.air, b.cue, b.mono, b.last, b.tag, Tab.at s.me.seq k,
    monoSides b.mono b.samples⟩

/-- What slot `k`'s turn with the block `g` does, END owed and produced left as given: everything it can change, for its
own slot, and nothing for another. -/
structure SlotTurn (k : Fin 8) (g : Option SourceBlock) (owed produced : Bool) (s t : State) : Prop where
  frame : t = { s with
    me := { s.me with seq := t.me.seq, endOwed := t.me.endOwed, produced := t.me.produced }
    tx := { s.tx with audio := t.tx.audio }
    cu := { s.cu with table := t.cu.table } }
  others : ∀ j, j ≠ k → Tab.at t.me.seq j = Tab.at s.me.seq j ∧ Tab.at t.me.endOwed j = Tab.at s.me.endOwed j
    ∧ Tab.at t.me.produced j = Tab.at s.me.produced j ∧ Tab.at t.tx.audio j = Tab.at s.tx.audio j
  finds : ∀ n j, n ≠ s.settings.nodeId ∨ j ≠ k → findEntry n j t.cu.table = findEntry n j s.cu.table
  owes : Tab.at t.me.endOwed k = owed
  produces : Tab.at t.me.produced k = produced
  hands : ∀ b, g = some b → Tab.at t.me.seq k = Tab.at s.me.seq k + 1
    ∧ Tab.at t.tx.audio k = (if s.lu.state = .joined then some (frameOf k b s) else Tab.at s.tx.audio k)
    ∧ ∃ e, findEntry s.settings.nodeId k t.cu.table = some e ∧ e.arrival = some (arrivalFrom k b s)
  idles : g = none → Tab.at t.me.seq k = Tab.at s.me.seq k ∧ Tab.at t.tx.audio k = Tab.at s.tx.audio k
    ∧ findEntry s.settings.nodeId k t.cu.table = findEntry s.settings.nodeId k s.cu.table

theorem handBlock_turn (k : Fin 8) (b : SourceBlock) (s : State) :
    SlotTurn k (some b) (Tab.at s.me.endOwed k) (Tab.at s.me.produced k) s (handBlock k b s) := by
  unfold handBlock takeOwn queueAudio joined
  cases hj : (s.lu.state == LineState.joined)
  all_goals
    cases hf : findEntry s.settings.nodeId k s.cu.table with
    | none =>
      constructor <;> simp_all [addEntry, frameOf, arrivalFrom, Tab.at_put]
      all_goals try (intro j hj; simp [Ne.symm hj])
      · intro n j d
        exact findEntry_insert_other _ (Entry.for_other (newEntry_for _ _ _ _) d)
      · exact ⟨_, findEntry_insert (newEntry_for _ _ _ _) hf, rfl⟩
    | some e =>
      constructor <;> simp_all [changeEntry, frameOf, arrivalFrom, Tab.at_put]
      all_goals try (intro j hj; simp [Ne.symm hj])
      · intro n j d
        apply findEntry_change_other
        · intro e; rfl
        · intro e; rfl
        · exact d
      · refine ⟨_, findEntry_change ?_ ?_ hf, ?_⟩
        · intro e; rfl
        · intro e; rfl
        · rfl

/-- A turn whose flags were set before its block was handed. -/
theorem SlotTurn.ofHand {k : Fin 8} {b : SourceBlock} {s t : State} (p o : Tab Bool 8)
    (ho : ∀ j, j ≠ k → Tab.at o j = Tab.at s.me.endOwed j) (hp : ∀ j, j ≠ k → Tab.at p j = Tab.at s.me.produced j)
    (h : SlotTurn k (some b) (Tab.at o k) (Tab.at p k) { s with me := { s.me with endOwed := o, produced := p } } t) :
    SlotTurn k (some b) (Tab.at o k) (Tab.at p k) s t :=
  ⟨h.frame, fun j hj => ⟨(h.others j hj).1, (h.others j hj).2.1.trans (ho j hj), (h.others j hj).2.2.1.trans (hp j hj),
    (h.others j hj).2.2.2⟩, h.finds, h.owes, h.produces, h.hands, nofun⟩

/-- A desk or caller slot's turn (R48): END owed is cleared, and whether its flags make it produce is kept. -/
theorem sourceSlot_turn (k : Fin 8) (g : Option SourceBlock) (s : State) :
    SlotTurn k g false (slotFlags k s).isSome s (sourceSlot k g s) := by
  cases g with
  | none => constructor <;> simp_all [sourceSlot, Tab.at_put]; intro j hj; simp [Ne.symm hj]
  | some b =>
    have h := handBlock_turn k b { s with me := { s.me with
      endOwed := s.me.endOwed.put k false, produced := s.me.produced.put k (slotFlags k s).isSome } }
    have t := SlotTurn.ofHand _ _ (fun j hj => Tab.at_put_ne _ _ hj) (fun j hj => Tab.at_put_ne _ _ hj) h
    simp only [Tab.at_put, if_true] at t
    exact t

/-- A player slot's turn (R48): whether a block was given is kept. -/
theorem playerSourceSlot_turn (k : Fin 8) (g : Option SourceBlock) (s : State) :
    SlotTurn k g (Tab.at s.me.endOwed k) g.isSome s (playerSourceSlot k g s) := by
  cases g with
  | none => constructor <;> simp_all [playerSourceSlot, Tab.at_put]; intro j hj; simp [Ne.symm hj]
  | some b =>
    have h := handBlock_turn k b { s with me := { s.me with produced := s.me.produced.put k true } }
    have t := SlotTurn.ofHand (s := s) (o := s.me.endOwed) _ (fun j hj => rfl) (fun j hj => Tab.at_put_ne _ _ hj) h
    simp only [Tab.at_put, if_true] at t
    exact t

/-! ## The turns of several slots -/

/-- What the turns of the slots `ks` do, one after another: each slot's turn as it would be alone. -/
structure SlotTurns (ks : List (Fin 8)) (g : Fin 8 → Option SourceBlock) (owed produced : Fin 8 → Bool) (s t : State) :
    Prop where
  frame : t = { s with
    me := { s.me with seq := t.me.seq, endOwed := t.me.endOwed, produced := t.me.produced }
    tx := { s.tx with audio := t.tx.audio }
    cu := { s.cu with table := t.cu.table } }
  others : ∀ j, j ∉ ks → Tab.at t.me.seq j = Tab.at s.me.seq j ∧ Tab.at t.me.endOwed j = Tab.at s.me.endOwed j
    ∧ Tab.at t.me.produced j = Tab.at s.me.produced j ∧ Tab.at t.tx.audio j = Tab.at s.tx.audio j
  finds : ∀ n j, n ≠ s.settings.nodeId ∨ j ∉ ks → findEntry n j t.cu.table = findEntry n j s.cu.table
  owes : ∀ k ∈ ks, Tab.at t.me.endOwed k = owed k
  produces : ∀ k ∈ ks, Tab.at t.me.produced k = produced k
  hands : ∀ k ∈ ks, ∀ b, g k = some b → Tab.at t.me.seq k = Tab.at s.me.seq k + 1
    ∧ Tab.at t.tx.audio k = (if s.lu.state = .joined then some (frameOf k b s) else Tab.at s.tx.audio k)
    ∧ ∃ e, findEntry s.settings.nodeId k t.cu.table = some e ∧ e.arrival = some (arrivalFrom k b s)
  idles : ∀ k ∈ ks, g k = none → Tab.at t.me.seq k = Tab.at s.me.seq k ∧ Tab.at t.tx.audio k = Tab.at s.tx.audio k
    ∧ findEntry s.settings.nodeId k t.cu.table = findEntry s.settings.nodeId k s.cu.table

variable {ks : List (Fin 8)} {g : Fin 8 → Option SourceBlock} {owed produced : Fin 8 → Bool} {s t u : State} {k : Fin 8}

theorem SlotTurns.nil : SlotTurns [] g owed produced s s := by constructor <;> simp

/-- One more slot takes its turn. -/
theorem SlotTurns.snoc (h : SlotTurns ks g owed produced s t) (hk : k ∉ ks)
    (v : SlotTurn k (g k) (owed k) (produced k) t u) : SlotTurns (ks ++ [k]) g owed produced s u := by
  have hset : t.settings = s.settings := by rw [h.frame]
  have hlu : t.lu = s.lu := by rw [h.frame]
  have hclk : t.clock = s.clock := by rw [h.frame]
  have hseq := (h.others k hk).1
  have hf : ∀ b, frameOf k b t = frameOf k b s := fun b => by unfold frameOf; rw [hseq]
  have ha : ∀ b, arrivalFrom k b t = arrivalFrom k b s := fun b => by unfold arrivalFrom; rw [hseq, hclk]
  have split : ∀ j, j ∉ ks ++ [k] → j ≠ k ∧ j ∉ ks := by simp_all
  constructor
  · rw [v.frame, h.frame]
  · intro j hj
    have a := v.others j (split j hj).1
    have b := h.others j (split j hj).2
    simp_all
  · intro n j hj
    rw [v.finds n j (hset ▸ hj.imp_right fun q => (split j q).1), h.finds n j (hj.imp_right fun q => (split j q).2)]
  · intro j hj
    by_cases q : j = k
    · exact q ▸ v.owes
    · rw [(v.others j q).2.1]; exact h.owes j (by simpa [q] using hj)
  · intro j hj
    by_cases q : j = k
    · exact q ▸ v.produces
    · rw [(v.others j q).2.2.1]; exact h.produces j (by simpa [q] using hj)
  · intro j hj b hb
    by_cases q : j = k
    · subst q
      have w := v.hands b hb
      rwa [hset, hlu, hf, ha, hseq, (h.others j hk).2.2.2] at w
    · rw [(v.others j q).1, (v.others j q).2.2.2, v.finds _ j (.inr q)]
      exact h.hands j (by simpa [q] using hj) b hb
  · intro j hj hb
    by_cases q : j = k
    · subst q
      have w := v.idles hb
      rwa [hset, hseq, (h.others j hk).2.2.2, h.finds _ j (.inr hk)] at w
    · rw [(v.others j q).1, (v.others j q).2.2.2, v.finds _ j (.inr q)]
      exact h.idles j (by simpa [q] using hj) hb

theorem SlotTurns.flags (h : SlotTurns ks g owed produced s t) (j : Fin 8) : slotFlags j t = slotFlags j s := by
  rw [h.frame]; rfl

/-- A desk or caller slot's turn after others. -/
theorem SlotTurns.openSlot (h : SlotTurns ks g owed produced s t) (hk : k ∉ ks) (ho : owed k = false)
    (hp : produced k = (slotFlags k s).isSome) : SlotTurns (ks ++ [k]) g owed produced s (sourceSlot k (g k) t) :=
  h.snoc hk (by have v := sourceSlot_turn k (g k) t; rwa [h.flags, ← ho, ← hp] at v)

/-- A player slot's turn after others. -/
theorem SlotTurns.playerSlot (h : SlotTurns ks g owed produced s t) (hk : k ∉ ks) (ho : owed k = Tab.at s.me.endOwed k)
    (hp : produced k = (g k).isSome) : SlotTurns (ks ++ [k]) g owed produced s (playerSourceSlot k (g k) t) :=
  h.snoc hk (by have v := playerSourceSlot_turn k (g k) t; rwa [(h.others k hk).2.1, ← ho, ← hp] at v)

/-! ## The stage -/

/-- The block that the source stage hands for a slot (R47, R48). -/
def stageBlock (input : BlockInput) (ups : Tab (List Int) 3) (a b alert : Option SourceBlock) (s : State) (k : Fin 8) :
    Option SourceBlock :=
  if k = 2 then a else if k = 3 then b else if k = 4 then alert else slotBlock k input ups s

/-- Everything the source stage does (R41, R47, R48): each slot takes its turn with its block, and the gains advance. -/
theorem sourceStage_turns (input : BlockInput) (ups : Tab (List Int) 3) (a b alert : Option SourceBlock) (s : State) :
    ∃ t, sourceStage input ups a b alert s = advanceSources t
      ∧ SlotTurns [0, 1, 5, 6, 7, 2, 3, 4] (stageBlock input ups a b alert s)
        (fun k => if k = 2 ∨ k = 3 ∨ k = 4 then Tab.at s.me.endOwed k else false)
        (fun k => if k = 2 ∨ k = 3 ∨ k = 4 then (stageBlock input ups a b alert s k).isSome else (slotFlags k s).isSome) s t := by
  refine ⟨_, rfl, ?_⟩
  have h := SlotTurns.nil (g := stageBlock input ups a b alert s)
    (owed := fun k => if k = 2 ∨ k = 3 ∨ k = 4 then Tab.at s.me.endOwed k else false)
    (produced := fun k => if k = 2 ∨ k = 3 ∨ k = 4 then (stageBlock input ups a b alert s k).isSome
      else (slotFlags k s).isSome) (s := s)
  have h := h.openSlot (k := 0) (by decide) rfl rfl
  have h := h.openSlot (k := 1) (by decide) rfl rfl
  have h := h.openSlot (k := 5) (by decide) rfl rfl
  have h := h.openSlot (k := 6) (by decide) rfl rfl
  have h := h.openSlot (k := 7) (by decide) rfl rfl
  have h := h.playerSlot (k := 2) (by decide) rfl rfl
  have h := h.playerSlot (k := 3) (by decide) rfl rfl
  exact h.playerSlot (k := 4) (by decide) rfl rfl

end Sys2Proof.Machine
end

