-- ==== Sys2Proof/Tests/Slice0.lean ====
section
/-! SUPPORT. The model's own tests: what `wellFormed` refuses, the worked numbers of the manual, and for each statement
with hypotheses a concrete state and operands that meet them (`witness_<Statement>`). -/

namespace Sys2Proof.Tests

set_option Elab.async false

open Sys2Proof.Machine

/-! ## Small states -/

/-- A RUNNING node 2 with the given roles, JOINED with stamp 7 at block count 1,000. -/
def node (r : Roles) : State :=
  { State.reset with
    cp := { State.reset.cp with device := .running, resetHeld := false }
    settings := { Settings.initial with nodeId := 2, roles := r }
    clock := ⟨0, true, 1000, some 0, false⟩
    lu := { State.reset.lu with state := .joined, stamp := 7 } }

/-- A studio node with every studio role. -/
def studio : State := node ⟨true, true, true, true, true, false⟩

/-- A studio node with no role. -/
def plain : State := node Roles.none

/-- A SITE node. -/
def site : State := { node ⟨false, false, false, false, false, true⟩ with lu := State.reset.lu }

/-- The message that spells a host command, with tag 7. -/
def messageOf (i : Instr) : CommandMessage := ⟨BitVec.ofNat 16 ((commandType i).getD 0), 7, commandParams i⟩

/-- The state with the Control Port ACTING on `i`. -/
def asked (i : Instr) (s : State) : State :=
  { s with cp := { s.cp with port := .acting, slot := some (messageOf i) } }

/-- The message of `i` is read back as `i`. -/
def reads (i : Instr) : Bool := decodeCommand (messageOf i).type.toNat (messageOf i).params == some i

theorem asked_acting (i : Instr) (s : State) (h : reads i = true) : Acting (asked i s) i (messageOf i) :=
  ⟨rfl, rfl, by simpa [reads] using h⟩

/-- A RUNNING node asked `i` meets `p`. -/
def meets (i : Instr) (s : State) (p : State → Bool) : Bool :=
  reads i && s.cp.device == .running && p (asked i s)

theorem meets_running {i : Instr} {s : State} {p : State → Bool} (h : meets i s p = true) :
    Running (asked i s) i (messageOf i) ∧ p (asked i s) = true := by
  simp only [meets, Bool.and_eq_true, beq_iff_eq] at h
  exact ⟨⟨asked_acting i s h.1.1, h.1.2⟩, h.2⟩

/-- A control frame from `k` as it reaches a receiver, its CRC right. -/
def controlOf (k : Fin 8) (b : ControlBody) : RxControl :=
  let body := bodyBytes b
  let f : RxControl := ⟨BitVec.ofNat 3 (controlClass b), k, 0, BitVec.ofNat 3 (controlKind b),
    BitVec.ofNat 7 body.length, 0, body, 0⟩
  { f with crc := crc32 (rxControlBits f) }

/-- The state with a frame being received. -/
def hearing (s : State) : State := { s with lu := { s.lu with receiving := true } }

/-- The state after a frame that was received to its last CRC bit. -/
def gapped : State := { studio with lu := { studio.lu with gap := true } }

/-! ## Well-formedness -/

/-- A block period without signal or contact. -/
def quiet : BlockInput :=
  ⟨List.replicate 8 silence, List.replicate 3 (List.replicate 16 0), List.replicate 4 false, List.replicate 3 false,
    List.replicate 3 false, 99⟩

theorem test_wellFormed_accepts : wellFormed (.localExpiry quiet) = true ∧ wellFormed (.setGain 7 9000) = true
    ∧ wellFormed (.frameOffer 48959) = true := by decide +kernel

theorem test_wellFormed_tdm : wellFormed (.localExpiry { quiet with tdm := [] }) = false := by decide
theorem test_wellFormed_sample :
    wellFormed (.localExpiry { quiet with tdm := List.replicate 8 (List.replicate 48 (8388608, 0)) }) = false := by
  decide +kernel
theorem test_wellFormed_phone :
    wellFormed (.markBegin 0 { quiet with phone := List.replicate 3 (List.replicate 16 32768) }) = false := by
  decide +kernel
theorem test_wellFormed_status : wellFormed (.sendMark { quiet with status := [] }) = false := by decide +kernel
theorem test_wellFormed_ring : wellFormed (.siteBlockStart { quiet with ring := [] }) = false := by decide +kernel
theorem test_wellFormed_loop : wellFormed (.siteBlockStart { quiet with loop := [] }) = false := by decide +kernel
theorem test_wellFormed_offer : wellFormed (.frameOffer 48960) = false := by decide
theorem test_wellFormed_audio :
    wellFormed (.audioFrameReceived ⟨1, 3, 0, 1, true, false, false, false, 0, 0, 31, [], 0⟩) = false := by decide
theorem test_wellFormed_body : wellFormed (.invalidFrameReceived (.control ⟨0, 3, 0, 1, 40, 0, [], 0⟩)) = false := by decide
theorem test_wellFormed_kind : wellFormed (.announceReceived ⟨3, 3, 0, 2, 0, 0, [], 0⟩) = false
    ∧ wellFormed (.alertFrameReceived ⟨0, 3, 0, 1, 0, 0, [], 0⟩) = false
    ∧ wellFormed (.requestReceived ⟨2, 3, 0, 4, 0, 0, [], 0⟩) = false
    ∧ wellFormed (.setRemoteOutputReceived ⟨2, 3, 0, 4, 0, 0, [], 0⟩) = false
    ∧ wellFormed (.answerReceived ⟨2, 3, 0, 3, 0, 0, [], 0⟩) = false := by decide
theorem test_wellFormed_levels : wellFormed (.forwardFrameReceived [] []) = false
    ∧ wellFormed (.feedValidRun [] []) = false := by decide
theorem test_wellFormed_message : wellFormed (.clipData 0 0 (List.replicate 1017 0)) = false := by decide +kernel

/-! ## Worked numbers of the manual -/

/-- The check value of the CRC (Frame and Message Formats): the ASCII characters 1 to 9. -/
theorem test_crc : crcBytes [0x31, 0x32, 0x33, 0x34, 0x35, 0x36, 0x37, 0x38, 0x39] = 0xFC891918#32 := by decide +kernel

/-- The END example of the receiver's message format. -/
theorem test_receiver_end : receiverFrame 2 (be32 0x3A410C07#32) = [0x7E, 0x02, 0x04, 0x3A, 0x41, 0x0C, 0x07, 0x6C] := by
  decide

/-! ## What the statements of the machine and the port assume -/

theorem witness_StepTakesFrontCommand :
    (studio.withQueue [.play, .readCue]).pending = .play :: [.readCue] ∧ studio.pending = [] := ⟨rfl, rfl⟩

theorem witness_EveryStepKeepsPortAndDram :
    (∃ t, step (studio.withQueue [.lineJoinedMarks]) = .next t ∧ PortOk (studio.withQueue [.lineJoinedMarks]).cp
      ∧ BootOk (studio.withQueue [.lineJoinedMarks]).cp)
    ∧ ∃ s t, step s = .next t ∧ s.dram = [(5, 1#8)] ∧ Memory.wf s.dram = true :=
  ⟨⟨_, rfl, ⟨by decide, by decide, by decide +kernel, by decide, by decide, by decide, by decide⟩,
      by decide, by decide⟩,
    { studio with dram := [(5, 1#8)], pending := [.dramWriteGrant] }, _, rfl, rfl, by decide⟩

theorem witness_ImageStaysInForce : Instr.play ≠ .powerOn ∧ Instr.play ≠ .resetAsserted ∧ studio.cp.device = .running
    ∧ studio.cp.resetHeld = false ∧ studio.cp.boot ≠ .reading ∧ ∃ t, exec .play studio = .next t :=
  ⟨by decide, by decide, rfl, rfl, by decide, _, rfl⟩

theorem witness_HostMessageRoundTrip : ∃ bytes, wellFormed (.setGain 7 9000) = true
    ∧ commandType (.setGain 7 9000) = some 5 ∧ encodeCommand 65535 (.setGain 7 9000) = some bytes :=
  ⟨_, by decide +kernel, rfl, rfl⟩

theorem witness_PowerOnAndResetLoadResetValues :
    State.reset.cp.resetHeld = true ∧ State.reset.cp.device = .unconfigured := by decide

theorem witness_NotConfiguredBeforeImage : Acting (asked .play State.reset) .play (messageOf .play)
    ∧ commandType .play ≠ none ∧ (asked .play State.reset).cp.device = .unconfigured
    ∧ (∀ img, Instr.play ≠ .configure img) ∧ Instr.play ≠ .readStatus ∧ Instr.play ≠ .readNotice :=
  ⟨asked_acting _ _ (by decide +kernel), by decide, rfl, by simp, by decide, by decide⟩

/-- A written message in IDLE, two that are malformed (of 1 byte, and with a whole header), and one in ACTING and in
READY. -/
theorem witness_PortTakesAndYieldsMessages :
    studio.cp.port = .idle ∧ studio.cp.resetHeld = false ∧ State.reset.cp.resetHeld = true
    ∧ (asked .play studio).cp.resetHeld = false ∧ (answer (messageOf .play) .ok [] studio).cp.resetHeld = false
    ∧ (∃ ty tag ps, decodeMessage ((encodeCommand 7 .play).getD []) = some (ty, tag, ps, .play))
    ∧ decodeMessage [0#8] = none ∧ decodeMessage [0#8, 5, 0, 7] = none
    ∧ (asked .play studio).cp.port = .acting
    ∧ (answer (messageOf .play) .ok [] studio).cp.port = .ready
    ∧ (∃ r, (answer (messageOf .play) .ok [] studio).cp.response = some r) :=
  ⟨rfl, rfl, rfl, rfl, rfl, ⟨_, _, _, rfl⟩, by decide, by decide, rfl, rfl, _, rfl⟩

/-- Notices of no item, one, two, three and more. -/
def noticesOfEachLength : List Notice :=
  [⟨.startIgnored, 5, []⟩, ⟨.lineJoined, 5, [word 0]⟩, ⟨.siteStatus, 5, [word 3, word 4]⟩,
    ⟨.inputChange, 5, [word 1, word 0, word 2]⟩, ⟨.playersHeld, 5, [word 0, word 1, word 2, word 3]⟩]

/-- The studio node with one notice queued. -/
def noticed (n : Notice) : State := { studio with cp := studio.cp.post n }

theorem witness_ReadNoticeAndReadStatus :
    Acting (asked .readNotice studio) .readNotice (messageOf .readNotice)
    ∧ (asked .readNotice studio).cp.notices = []
    ∧ (∀ n, Acting (asked .readNotice (noticed n)) .readNotice (messageOf .readNotice))
    ∧ (∀ n ∈ noticesOfEachLength, (asked .readNotice (noticed n)).cp.notices = [n])
    ∧ noticesOfEachLength.map (fun n => n.items.length) = [0, 1, 2, 3, 4]
    ∧ Acting (asked .readStatus studio) .readStatus (messageOf .readStatus) :=
  ⟨asked_acting _ _ (by decide +kernel), rfl, fun _ => asked_acting _ _ (by decide +kernel), by decide +kernel, rfl,
    asked_acting _ _ (by decide +kernel)⟩

/-- The words of a two-item and a three-item notice, as READ NOTICE gives them. -/
theorem test_notice_words : (noticeWords ⟨.siteStatus, 5, [word 3, word 4]⟩).take 2 = [word 3, word 4]
    ∧ noticeWords ⟨.inputChange, 5, [word 1, word 0, word 2]⟩ = [word 1, word 0, word 2] := by decide

/-- An image of field words: node id 2 and no role, everything else at its default. -/
def imageOf (fields : List (Nat × Nat)) : List Byte :=
  let given : List (Nat × Nat) := [(0, 2), (1, 0), (2, 0), (11, 0)] ++ (List.range 8).map (fun i => (3 + i, 0))
    ++ (List.range 12).map fun i => (24 + i, 0)
  let body := be32 imageMarker ++ be32 (word 304) ++ (List.range 76).flatMap fun i =>
    be32 (match (fields ++ given).find? fun x => x.1 = i with | some x => word x.2 | none => wordNone)
  body ++ be32 (crcBytes body)

/-- The part reading its flash at start-up, and the part waiting for the host's image. -/
def starting (reading : Bool) : State := { State.reset with
  cp := { State.reset.cp with resetHeld := false, boot := if reading then .reading else .none } }

set_option maxRecDepth 100000 in
/-- A CONFIGURE in each device state; images that pass, fail at field 1, hold a wrong CRC, and are short. -/
theorem witness_ConfigureTakesImage :
    Acting (asked (.configure (imageOf [])) (starting false)) (.configure (imageOf []))
      (messageOf (.configure (imageOf [])))
    ∧ studio.cp.device = .running ∧ (starting true).cp.device = .unconfigured ∧ (starting true).cp.boot = .reading
    ∧ (starting false).cp.device = .unconfigured ∧ (starting false).cp.boot ≠ .reading
    ∧ examineImage (imageOf [(0, 8)]) = .error 1
    ∧ (∃ st, examineImage (imageOf []) = .ok st)
    ∧ examineImage (imageOf []) = .ok (settingsOf (fieldWord (imageOf [])))
    ∧ (imageOf []).take imageLength = imageOf []
    ∧ ([] : List Byte).length ≠ imageLength
    ∧ (imageOf []).length = imageLength ∧ headerOk (imageOf []) = true
    ∧ imageCrcOk ((imageOf []).set 315 0) = false ∧ headerOk ((imageOf []).set 315 0) = true
    ∧ imageCrcOk (imageOf [(0, 8)]) = true ∧ fieldFault (fieldWord (imageOf [(0, 8)])) = some 1 := by
  have crc : imageCrcOk (imageOf []) = true := by decide +kernel
  have fields : fieldFault (fieldWord (imageOf [])) = none := by decide +kernel
  have size : (imageOf []).length = imageLength := by decide +kernel
  have head : headerOk (imageOf []) = true := by decide +kernel
  have good : examineImage (imageOf []) = .ok (settingsOf (fieldWord (imageOf []))) := by
    simp [examineImage, crc, fields, size, head]
  have bad : fieldFault (fieldWord (imageOf [(0, 8)])) = some 1 := by decide +kernel
  have badCrc : imageCrcOk (imageOf [(0, 8)]) = true := by decide +kernel
  have badHead : headerOk (imageOf [(0, 8)]) = true := by decide +kernel
  have badSize : (imageOf [(0, 8)]).length = imageLength := by decide +kernel
  refine ⟨asked_acting _ _ (by decide +kernel), rfl, rfl, rfl, rfl, by decide, ?_, ⟨_, good⟩, good, ?_, by decide,
    size, head, by decide +kernel, by decide +kernel, badCrc, bad⟩
  · simp [examineImage, bad, badCrc, badSize, badHead]
  · rw [← size, List.take_length]

set_option maxRecDepth 100000 in
/-- The clauses on the capture clips: an image that gives clip 252 extent 5 and the others none. -/
theorem witness_ConfigureTakesImage_captures :
    let fw := fieldWord (imageOf [(24, 524288), (25, 5), (26, 1)])
    imageCrcOk (imageOf [(24, 524288), (25, 5), (26, 1)]) = true ∧ fieldFault fw = none
    ∧ Tab.at (settingsOf fw).captures 0 = some ⟨524288, [5]⟩ ∧ Tab.at (settingsOf fw).captures 1 = none :=
  ⟨by decide +kernel, by decide +kernel, by decide +kernel, by decide +kernel⟩

/-- R74: the acceptance gives the capture clip its map and the ownership of its extents, and no other extent changes hands. -/
theorem test_capture_extents :
    let s := takeCaptures { studio with settings := { studio.settings with
      captures := studio.settings.captures.put 0 (some ⟨524288, [5]⟩) } }
    (clipAt s 252).map = [5] ∧ Tab.at s.cs.owner 5 = some 252 ∧ Tab.at s.cs.owner 4 = none ∧ Tab.at s.cs.owner 6 = none := by
  decide +kernel

/-! ## What the statements of the studio line assume -/

/-- A LISTENING node with the counts given. -/
def listening (good none_ : Nat) : State :=
  { studio with lu := { studio.lu with state := .listening, goodMarks := good, noMarks := none_ } }

/-- A MUTED node. -/
def muted : State := { studio with lu := { studio.lu with state := .muted } }

/-- The node with a local expiry open, `n` bit times after it. -/
def expired (n : Nat) (s : State) : State := { s with clock := { s.clock with timer := n, expiryOpen := true } }

theorem witness_RejoinEntersListening :
    meets .rejoin site (fun s => s.settings.roles.site)
    && meets .rejoin studio (fun s => !s.settings.roles.site && s.settings.roles.playout) = true := by decide +kernel

theorem witness_BlockStartsAdvanceBlockCount :
    receives studio = true ∧ studio.clock.expiryOpen = false
    ∧ receives (expired 0 muted) = true ∧ 64 < (expired 0 muted).clock.timer + 65
    ∧ (expired 0 muted).clock.expiryOpen = true ∧ (expired 0 muted).clock.timer + 64 ≤ 64
    ∧ (listening 0 0).lu.state = .listening ∧ muted.lu.state = .muted ∧ studio.lu.state = .joined
    ∧ atSite site = true := by decide

theorem witness_BlockStartRunsEveryUnit :
    receives studio = true ∧ studio.clock.expiryOpen = false
    ∧ receives (expired 0 muted) = true ∧ 64 < (expired 0 muted).clock.timer + 65
    ∧ (listening 0 0).lu.state = .listening ∧ muted.lu.state = .muted ∧ studio.lu.state = .joined
    ∧ atSite site = true := by decide

theorem witness_LineIsJoinedByMarksOrAlone :
    (listening 64 4).lu.state = .listening ∧ (listening 64 4).au.table = [] ∧ (listening 64 4).tx.control.length < 8
    ∧ 64 ≤ (listening 64 4).lu.goodMarks ∧ 4 ≤ (listening 64 4).lu.noMarks
    ∧ (∀ n ∈ [2, 3], (expired 0 (listening 0 n)).clock.expiryOpen = true
      ∧ (expired 0 (listening 0 n)).lu.state = .listening ∧ (expired 0 (listening 0 n)).lu.noMarks = n)
    ∧ (expired 0 muted).clock.expiryOpen = true ∧ (expired 0 muted).lu.state = .muted := by decide

/-- A frame in an AUDIO slot's entry. -/
def audioFrame : AudioFrame := ⟨1, .live, true, false, false, false, 9, 0, silence⟩

/-- The node with an AUDIO frame for slot 0 and the control frames given in its queues. -/
def queued (c : List ControlFrame) (s : State) : State :=
  { s with tx := { s.tx with audio := s.tx.audio.put 0 (some audioFrame), control := c } }

/-- The body of an ANSWER, and of a REQUEST of tag 5. -/
def anAnswer : ControlBody := .answer ⟨4, 5, .accepted, 1, 6⟩
def aRequest : RequestBody := ⟨.take, 5, 4, 1, 0⟩

/-- The same node with an AUDIO frame of another class in slot 0. -/
def audioOf (cls : Nat) (s : State) : State :=
  { s with tx := { s.tx with audio := s.tx.audio.put 0 (some { audioFrame with cls := cls }) } }

theorem witness_FrameOfferSendsLowestField :
    studio.lu.state = .joined ∧ studio.lu.receiving = false ∧ studio.tx.sending = none
    ∧ audioOffers 46560 studio ++ controlOffer 46560 studio = []
    ∧ audioOffers 46560 (queued [⟨0, anAnswer, 0⟩] studio)
      ++ controlOffer 46560 (queued [⟨0, anAnswer, 0⟩] studio) ≠ []
    ∧ Tab.at (queued [] studio).tx.audio 0 = some audioFrame ∧ 46560 + 2400 ≤ 48960
    ∧ (queued [⟨0, .announce (announceBody plain), 0⟩, ⟨1, anAnswer, 0⟩] studio).tx.control.find?
      (fun f => decide (48600 + controlTimes f.body ≤ 48960)) = some ⟨1, anAnswer, 0⟩
    ∧ (∀ c, Tab.at (audioOf c (queued [⟨0, anAnswer, 0⟩] studio)).tx.audio 0 = some { audioFrame with cls := c })
    ∧ 1 * 512 + 2 * 64 + 0 * 8 < controlClass anAnswer * 512 + 2 * 64 + 0 * 8 + controlKind anAnswer
    ∧ controlClass anAnswer * 512 + 2 * 64 + 0 * 8 + controlKind anAnswer < 4 * 512 + 2 * 64 + 0 * 8 := by
  refine ⟨rfl, rfl, rfl, by decide +kernel, by decide +kernel, rfl, by decide, by decide +kernel, fun c => rfl,
    by decide, by decide⟩

/-- The node sending a frame from `src`. -/
def sends (src : SendSource) (announce : Bool) (run : Nat) (s : State) : State :=
  { s with tx := { s.tx with sending := some ⟨src, announce, []⟩ }, lu := { s.lu with mismatchRun := run } }

theorem witness_FramesLeaveTheSender :
    (sends (.slot 0) false 0 (queued [] studio)).tx.sending = some ⟨.slot 0, false, []⟩
    ∧ studio.lu.state ≠ .offline ∧ studio.tx.sending = none
    ∧ (∀ b ∈ [anAnswer, .request aRequest, .announce (announceBody studio)],
      (sends (.control ⟨3, b, 0⟩) true 1 (queued [⟨3, b, 0⟩] studio)).tx.sending = some ⟨.control ⟨3, b, 0⟩, true, []⟩)
    ∧ controlKind (.announce (announceBody studio)) = 1 ∧ controlKind anAnswer = 4
    ∧ (∀ n ∈ [0, 1], (sends (.control ⟨3, anAnswer, 0⟩) true n studio).lu.mismatchRun < 2)
    ∧ (sends (.slot 0) false 2 studio).lu.mismatchRun ≤ 2
    ∧ (sends (.slot 0) true 2 studio).lu.mismatchRun = 2 ∧ (sends (.slot 0) true 2 studio).lu.state = .joined
    ∧ 3 ≤ (sends (.slot 0) true 3 studio).lu.mismatchRun
    ∧ studio.settings.roles.playout = true ∧ plain.settings.roles.playout = false :=
  ⟨rfl, by decide, rfl, fun _ _ => rfl, rfl, rfl, by decide, by decide, rfl, rfl, by decide, rfl, rfl⟩

/-- The node with a request of tag 5 to node 4 in phase `ph` after `w` block starts. -/
def requesting (ph : RequestPhase) (w : Nat) (s : State) : State :=
  { s with ku := { s.ku with requests := [⟨5, .take, 4, 1, 0, ph, w⟩] } }

/-- The node whose queued REQUEST has aged 8 blocks. -/
def aged : State := requesting .queued 0 (queued [⟨3, .request aRequest, 8⟩] studio)

/-- An own record, not owed a frame. -/
def agedAlert : Alert :=
  ⟨9, 512, .command, .test, 60, 0, 1, 1, 120000, none, false, .pending, .attention, 0, 5, false, false, false, 0, 0, 0, false⟩

theorem witness_AgedControlFramesAreDropped :
    (aged.tx.control.filter fun g => 8 ≤ g.age) = [⟨3, .request aRequest, 8⟩]
    ∧ aged.ku.requests.find? (fun x => x.tag == aRequest.tag) = some ⟨5, .take, 4, 1, 0, .queued, 0⟩
    ∧ (∀ f ∈ studio.tx.control, f.age < 8)
    ∧ (let s := queued (List.replicate 7 ⟨1, anAnswer, 0⟩ ++ [⟨2, .announce (announceBody plain), 0⟩])
        { studio with lu := { studio.lu with announceCount := 16 } }
      s.lu.state = .joined ∧ 16 ≤ s.lu.announceCount ∧ 8 ≤ s.tx.control.length
      ∧ s.tx.control = List.replicate 7 ⟨1, anAnswer, 0⟩ ++ [⟨2, .announce (announceBody plain), 0⟩]
      ∧ controlClass anAnswer < controlClass (.announce (announceBody plain))
      ∧ controlClass (.announce (announceBody plain)) ≤ controlClass (.announce (announceBody plain))) := by decide +kernel

/-- R10 and R142: of two aged frames the ALERT frame's record is owed a fresh one, and the REQUEST ends NOT_SENT after it. -/
theorem test_aged_frames :
    let s := { aged with
      au := { aged.au with table := [agedAlert] }
      tx := { aged.tx with control := [⟨1, .alert (alertBody agedAlert none), 8⟩, ⟨3, .request aRequest, 9⟩, ⟨4, anAnswer, 7⟩] } }
    (dropAged s).au.table = [{ agedAlert with frameOwed := true }] ∧ (dropAged s).ku.requests = []
    ∧ (dropAged s).tx.control = [⟨4, anAnswer, 7⟩]
    ∧ (dropAged s).cp.notices.map Notice.kind = [.controlDropped, .controlDropped, .requestDone] := by decide +kernel

/-- An AUDIO frame of node 4's slot 1, in a block of silence, with the CRC of its bits. -/
def soundOf (k : Fin 8) : RxAudio :=
  let f : RxAudio := ⟨1, k, 1, 1, true, false, false, false, 9, 0, 31, silence, 0⟩
  { f with crc := crc32 (rxAudioBits f) }

/-- A table entry of node 4's slot 1, its last sequence number and its arrival given. -/
def entryOf (seq : Byte) (a : Option Arrival) : Entry :=
  { newEntry 4 1 false (arrivalOf (soundOf 4) 0) with mono := false, tag := 0, seq := seq, arrival := a }

/-- The node with a table of entries, receiving. -/
def tabled (t : List Entry) (full : Bool) : State :=
  hearing { studio with cu := { studio.cu with table := t, fullReported := full } }

set_option maxRecDepth 100000 in
theorem test_sound_passes : RxAudio.passes (soundOf 4) = true ∧ RxAudio.passes (soundOf 2) = true := by decide +kernel

theorem witness_ReceivedFrameIsCountedOrTaken :
    (tabled [] false).lu.state ≠ .offline ∧ (tabled [] false).lu.receiving = true
    ∧ RxFrame.passes (.control { controlOf 4 anAnswer with len := 7 }) = false
    ∧ RxFrame.passes (.control (controlOf 4 anAnswer)) = true
    ∧ RxControl.passes (controlOf 4 anAnswer) = true
    ∧ (soundOf 2).node = studio.settings.nodeId ∧ (soundOf 4).node ≠ studio.settings.nodeId
    ∧ findEntry 4 1 (tabled [entryOf 8 none] false).cu.table = some (entryOf 8 none) ∧ (soundOf 4).seq ≠ (entryOf 8 none).seq
    ∧ findEntry 4 1 (tabled [entryOf 9 none] false).cu.table = some (entryOf 9 none) ∧ (soundOf 4).seq = (entryOf 9 none).seq
    ∧ findEntry 4 1 (tabled [] false).cu.table = none
    ∧ (tabled (List.replicate 15 { entryOf 9 none with slot := 2 }) false).cu.table.length
      + unfilledReserved (tabled (List.replicate 15 { entryOf 9 none with slot := 2 }) false) = 23
    ∧ 24 ≤ (tabled (List.replicate 16 { entryOf 9 none with slot := 2 }) true).cu.table.length
      + unfilledReserved (tabled (List.replicate 16 { entryOf 9 none with slot := 2 }) true)
    ∧ (tabled [] true).cu.fullReported = true ∧ studio.tx.sending = none ∧ (hearing studio).lu.receiving = true
    ∧ gapped.lu.gap = true ∧ gapped.lu.receiving = false ∧ (16 : Nat) ≤ 16 ∧ 16 < (17 : Nat)
    ∧ studio.lu.receiving = false ∧ studio.lu.gap = false := by decide +kernel

/-- The clause on CHANNELS_FULL: a full channel store whose flag is clear. -/
theorem witness_ReceivedFrameIsCountedOrTaken_full :
    let s := tabled (List.replicate 16 { entryOf 9 none with slot := 2 }) false
    24 ≤ s.cu.table.length + unfilledReserved s ∧ s.cu.fullReported = false ∧ findEntry 4 1 s.cu.table = none := by
  decide +kernel

/-- R1 and R11: a mark begun in the last bit time of a frame's gap counts TRUNCATED, one begun in the next does not. -/
theorem test_mark_in_gap : Tab.at (cutOff 16 gapped).counters Counter.truncated.index = 1
    ∧ Tab.at (cutOff 17 gapped).counters Counter.truncated.index = 0 ∧ (cutOff 17 gapped).lu.gap = false := by
  decide +kernel

/-- An announce of node `k` with a stamp. -/
def announceOf (k : Fin 8) (stamp : Half) : RxControl := controlOf k (.announce { announceBody plain with stamp := stamp })

/-- A peer 4 in state `st`, unheard for `n` block starts. -/
def peered (st : PeerState) (n : Nat) (s : State) : State :=
  { s with peers := s.peers.put 4 ⟨st, 9, ⟨false, false, false, false, true, false⟩, n, none⟩ }

theorem witness_AnnouncesAreTakenAndSent :
    RxControl.passes (announceOf 4 9) = true ∧ (announceOf 4 9).kind = 1 ∧ (announceOf 4 9).node ≠ studio.settings.nodeId
    ∧ (hearing plain).settings.roles.caller = false ∧ (parseAnnounce (announceOf 4 9).body).roles.link = false
    ∧ (∀ st ∈ [PeerState.absent, .present, .lost], ∀ old : Half, old = 9 ∨ old = 8 →
      (Tab.at ({ hearing plain with peers := plain.peers.put 4 ⟨st, old, Roles.none, 3, none⟩ }).peers 4).state = st)
    ∧ RxControl.passes (announceOf 2 9) = true ∧ (announceOf 2 9).node = studio.settings.nodeId
    ∧ RxControl.passes (announceOf 2 7) = true ∧ (parseAnnounce (announceOf 2 7).body).stamp = (hearing studio).lu.stamp
    ∧ (parseAnnounce (announceOf 2 9).body).stamp ≠ (hearing studio).lu.stamp
    ∧ (hearing studio).lu.state = .joined ∧ (hearing muted).lu.state = .muted
    ∧ (hearing (listening 0 0)).lu.state = .listening
    ∧ 16 ≤ ({ studio with lu := { studio.lu with announceCount := 16 } }).lu.announceCount
    ∧ studio.tx.control.length < 8 ∧ plain.settings.roles.playout = false
    ∧ (Tab.at (peered .present 64 studio).peers 4).state = .present ∧ 64 ≤ (Tab.at (peered .present 64 studio).peers 4).since
    ∧ (Tab.at (peered .lost 1088 studio).peers 4).state = .lost
    ∧ 1088 ≤ (Tab.at (peered .lost 1088 studio).peers 4).since ∧ (Tab.at studio.peers 4).state = .absent := by
  refine ⟨by decide +kernel, by decide +kernel, by decide +kernel, rfl, by decide +kernel, ?_, by decide +kernel,
    by decide +kernel, by decide +kernel, by decide +kernel, by decide +kernel, rfl, rfl, rfl, by decide, by decide, rfl,
    by decide, by decide, by decide, by decide, by decide⟩
  intro st _ old _
  rfl

/-! ## What the statements of the view and the mix assume -/

theorem witness_ReadCommandsReturnTheirState :
    ([Instr.readCounters, .readChannels, .readTiers, .readClip 255, .readGroup 15, .readExtents 511 64, .readCue, .readSeat
      , .readLines, .readAirQueue, .readRequests, .readPanel].all fun i =>
      meets i studio fun s => !s.settings.roles.site && s.settings.roles.playout && s.settings.roles.caller) = true := by
  decide +kernel

/-- A block counted 1,000 as it arrives. -/
def arrived : Arrival := arrivalOf (soundOf 4) 1000

theorem witness_PresenceAndTiersDecided :
    (∃ a, (entryOf 8 (some arrived)).arrival = some a ∧ a.block = 1000)
    ∧ (∀ a, (entryOf 8 (some arrived)).arrival = some a → a.block ≠ 999)
    ∧ { entryOf 8 none with endPending := true }.endPending = true ∧ (entryOf 8 none).endPending = false
    ∧ (entryOf 8 none).missing = 0 ∧ 0 < { entryOf 8 none with missing := 1 }.missing
    ∧ findEntry 4 1 [{ entryOf 8 none with missing := 64 }] = some { entryOf 8 none with missing := 64 }
    ∧ (∀ e ∈ (tabled [entryOf 8 none] false).cu.table, e.missing < 63)
    ∧ (recomputeTiers studio).cu.inForce = studio.cu.inForce
    ∧ (recomputeTiers { studio with cu := { studio.cu with inForce := some .live } }).cu.inForce ≠ some .live
    ∧ (∃ k, studio.cu.weights.get k = (recomputeTiers studio).cu.targets.get k)
    ∧ (∃ k, ({ studio with cu := { studio.cu with weights := ⟨0, 0, 0, 0⟩ } }).cu.weights.get k
      < (recomputeTiers { studio with cu := { studio.cu with weights := ⟨0, 0, 0, 0⟩ } }).cu.targets.get k)
    ∧ (∃ k, (recomputeTiers { studio with cu := { studio.cu with weights := ⟨17, 17, 17, 17⟩ } }).cu.targets.get k
      < ({ studio with cu := { studio.cu with weights := ⟨17, 17, 17, 17⟩ } }).cu.weights.get k) :=
  ⟨⟨_, rfl, rfl⟩, by simp [entryOf, arrived, arrivalOf], rfl, rfl, rfl, by decide, rfl,
    by simp [tabled, entryOf, newEntry, hearing], by decide, by decide, ⟨.live, by decide⟩, ⟨.live, by decide⟩,
    ⟨.live, by decide⟩⟩

/-- A ramp from 0 to 4,096 over 2 blocks, at block `b`. -/
def rising (b : Nat) : Ramp := ⟨0, 4096, 0, 2, b⟩

theorem witness_RampedGainIsLinearToTarget :
    (Ramp.rest 5).length ≤ (Ramp.rest 5).position ∧ (rising 0).position < (rising 0).length
    ∧ (rising 0).position + 1 < (rising 0).length ∧ (rising 1).position + 1 = (rising 1).length
    ∧ (rising 0).start ≤ (rising 0).target ∧ ({ rising 0 with start := 4096, target := 0 }).target ≤ 4096 := by decide

theorem witness_GainTargetsAndSampleLimits :
    (Ramp.rest 5).current = min 8192 5 ∧ (-8388608 : Int) ≤ (8388607 * 4096 + 2048) / 4096
    ∧ ((8388607 : Int) * 4096 + 2048) / 4096 ≤ 8388607 ∧ silence.length = 48 ∧ (16 : Nat) ≤ 16 := by decide

/-- The node with line-up ON. -/
def tested : State :=
  { studio with tg := { studio.tg with
      lineUp := .on, voices := studio.tg.voices.put 1 { Voice.reset with holder := some .lineUp } } }

/-- The node whose desk input 2 owes its END block. -/
def owing : State := { studio with me := { studio.me with endOwed := studio.me.endOwed.put 1 true } }

theorem witness_SourceStageHandsBlocks :
    Tab.at studio.counters Counter.overrun.index ≤ 65535 ∧ studio.lu.state = .joined ∧ muted.lu.state ≠ .joined
    ∧ studio.tg.lineUp ≠ .on ∧ studio.settings.roles.desk = true ∧ plain.settings.roles.desk = false
    ∧ (∀ a c, (Tab.at ({ studio with me := { studio.me with
      desk := studio.me.desk.put 0 { Tab.at studio.me.desk 0 with air := a, cue := c } } }).me.desk 0).air = a)
    ∧ studio.settings.roles.caller = true ∧ (lineAt studio 0).state ≠ .onAir ∧ (Tab.at studio.me.caller 0).cue = false
    ∧ tested.tg.lineUp = .on ∧ lineUpVoice tested = some 1 ∧ owing.lu.state = .joined
    ∧ (slotBlock 1 quiet (Vector.replicate 3 []) owing).isSome = true
    ∧ slotBlock 0 quiet (Vector.replicate 3 []) owing = none := by decide +kernel

/-- A block that a player hands. -/
def handed : SourceBlock := ⟨true, false, false, false, .playout, 9, false, silence⟩

/-- R47 and R48: the stage hands the END block that slot 1 owes and player A's block, and none for slot 0. -/
theorem test_source_stage :
    let t := sourceStage quiet (Vector.replicate 3 []) (some handed) none none owing
    (t.tx.audio.toList.map Option.isSome = [false, true, true, false, false, false, false, false])
    ∧ t.me.endOwed.toList = List.replicate 8 false ∧ Tab.at t.me.produced 2 = true ∧ Tab.at t.me.seq 2 = 1 := by
  decide +kernel

theorem witness_MixCommandsSetSources :
    (([1, 2, 5, 7, 8].all fun n => meets (.setGain n 8193) studio fun s =>
      !s.settings.roles.site && s.settings.roles.desk && s.settings.roles.caller)
    && ([0, 5].all fun n => meets (.setGain n 0) plain fun s => !s.settings.roles.desk && !s.settings.roles.caller)
    && ([0, 1, 2, 5, 7].all fun n => meets (.setChannel n 0 1) studio fun s =>
      !s.settings.roles.site && s.settings.roles.desk && s.settings.roles.caller && s.tg.lineUp != .on)
    && meets (.setChannel 7 1 0) studio (fun s => s.settings.roles.caller)
    && ([1, 5].all fun n => meets (.setChannel n 0 1) plain fun s => !s.settings.roles.desk && !s.settings.roles.caller)
    && ([Instr.setChannel 8 0 1, .setChannel 0 2 0, .setChannel 0 0 2].all fun i =>
      meets i studio (fun s => !s.settings.roles.site) && meets i site fun s => s.settings.roles.site)
    && meets (.setGain 0 0) site (fun s => s.settings.roles.site)) = true
    ∧ (0 : Word) = wordFlag false ∧ (1 : Word) = wordFlag true := by decide +kernel

/-- A node whose silence monitor stands as given, PROGRAM's last peak being `peak`. -/
def monitored (silent : Bool) (quietRun soundRun peak : Nat) : State :=
  { studio with me := { studio.me with
      silent := silent, quietRun := quietRun, soundRun := soundRun, meters := studio.me.meters.put 0 ⟨peak, peak, 0⟩ } }

theorem witness_TrimsMetersAndSilence :
    (([0, 2, 3, 5].all fun b => meets (.setTrim b 9000) studio fun s => !s.settings.roles.site && s.settings.roles.caller)
    && meets (.setTrim 3 9000) plain (fun s => !s.settings.roles.site && !s.settings.roles.caller)
    && meets (.setTrim 6 9000) studio (fun s => !s.settings.roles.site)
    && meets (.setTrim 6 9000) site (fun s => s.settings.roles.site)
    && meets .readMeters studio (fun s => !s.settings.roles.site)
    && meets .readMeters site (fun s => s.settings.roles.site)) = true
    ∧ (monitored false 8000 0 0).me.silent = false
    ∧ (monitored false 8000 0 0).settings.silenceLimit ≤ (monitored false 8000 0 0).me.quietRun
    ∧ (monitored true 0 48 9000).me.silent = true ∧ 48 ≤ (monitored true 0 48 9000).me.soundRun
    ∧ programPeak (monitored false 7999 0 8388) < (monitored false 7999 0 8388).settings.silenceFloor
    ∧ (monitored false 7999 0 8388).me.quietRun < (monitored false 7999 0 8388).settings.silenceLimit
    ∧ (monitored true 0 47 8389).settings.silenceFloor ≤ programPeak (monitored true 0 47 8389)
    ∧ (monitored true 0 47 8389).me.soundRun + 1 = 48 ∧ (monitored true 0 46 8389).me.soundRun + 1 < 48
    ∧ (monitored false 7999 0 8388).me.quietRun + 1 = (monitored false 7999 0 8388).settings.silenceLimit
    ∧ (monitored false 7998 0 8388).me.quietRun + 1 < (monitored false 7998 0 8388).settings.silenceLimit
    ∧ programPeak (monitored true 8000 5 0) < (monitored true 8000 5 0).settings.silenceFloor := by decide +kernel

/-- R59: a single quiet block interrupts a sound run while SILENT, and a single loud one a quiet run before it. -/
theorem test_monitor : (silenceMonitor (monitored true 8000 47 8388)).me.soundRun = 0
    ∧ (silenceMonitor (monitored true 8000 47 8388)).me.silent = true
    ∧ (silenceMonitor (monitored false 7999 0 8389)).me.quietRun = 0 := by decide

/-! ## What the statements of the clip store assume -/

/-- Clip 40 of 100 M16 frames with map (3), queued and written as given. -/
def clip40 (st : ClipState) (queued written : Nat) (sealing : Bool) : Clip :=
  ⟨st, .m16, 100, [3], queued, written, sealing, 100, 4096, false, 0⟩

/-- The node with clip 40 as given. -/
def clipped (c : Clip) : State := setClip 40 c studio

theorem witness_ClipIsDefinedAndFilled :
    (meets (.defineClip 40 0 524288 [511]) studio (fun s => clipAt s 40 = Clip.empty
        ∧ 524288 * bytesPerFrame .m16 ≤ 1 * 1048576 ∧ Tab.at s.cs.owner 511 = none)
    && meets (.defineClip 40 0 100 [511]) { studio with cs := { studio.cs with owner := studio.cs.owner.put 511 (some 9) } }
      (fun s => [(511 : Fin 512)].find? (fun e => (Tab.at s.cs.owner e).isSome) = some 511
        ∧ Tab.at s.cs.owner 511 = some 9)
    && meets (.defineClip 252 0 100 [511]) studio (fun _ => true)
    && meets (.defineClip 40 0 100 [511]) (clipped (clip40 .ready 0 0 false)) (fun s => (clipAt s 40).state ≠ .empty)
    && meets (.clipData 40 64 [1]) (clipped (clip40 .filling 65 0 false)) (fun s => (clipAt s 40).state = .filling
        ∧ (clipAt s 40).sealPending = false ∧ 64 ≠ (clipAt s 40).queued)
    && meets (.clipData 40 199 [1]) (clipped (clip40 .filling 199 0 false)) (fun s => (clipAt s 40).queued = 199
        ∧ s.cs.fill = [] ∧ 199 + 1 ≤ (clipAt s 40).length * 2 ∧ (clipAt s 40).length * 2 ≤ 1 * 1048576)
    && ([62, 63].all fun n => meets (.clipData 40 199 [1])
        { clipped (clip40 .filling 199 0 false) with cs := { (clipped (clip40 .filling 199 0 false)).cs with
          fill := List.replicate n (.data 40 [1]) } }
        fun s => s.cs.fill.length = n ∧ writeWaits s = true)) = true := by decide +kernel

/-- Clip 40 of 600,000 M16 frames with map (40, 7), queued up to its last byte before the extent boundary. -/
def clip40Long : Clip := ⟨.filling, .m16, 600000, [40, 7], 1048575, 0, false, 0, 4096, false, 0⟩

/-- The clause on a run that crosses into another extent: its two bytes lie at the end of extent 40 and at the start of
extent 7. -/
theorem witness_ClipIsDefinedAndFilled_boundary :
    meets (.clipData 40 1048575 [1, 2]) (clipped clip40Long) (fun s => (clipAt s 40).queued = 1048575
      ∧ 1048575 + 2 ≤ (clipAt s 40).length * bytesPerFrame (clipAt s 40).format
      ∧ (clipAt s 40).length * bytesPerFrame (clipAt s 40).format ≤ (clipAt s 40).map.length * 1048576
      ∧ translate (clipAt s 40).map 1048575 = some 42991615 ∧ translate (clipAt s 40).map 1048576 = some 7340032
      ∧ (let t := queueBytes 40 [1, 2] s
        t.cs.fill = [.data 40 [1, 2]] ∧ t.cs.drain.map (fun d => (d.run.addressOf 0, d.run.addressOf 1)) = some (42991615, 7340032)))
      = true := by decide +kernel

/-- The node with one cue entry: tag 9, its source, state and start mode as given. -/
def cueOf9 (src : CueSource) (st : CueState) (mode : StartMode) : CueEntry :=
  ⟨9, src, mode, 1000, 4096, 0, 3, .playout, .resume, .remove, st, false, 0⟩

def cued (l : List CueEntry) (s : State) : State := { s with pu := { s.pu with cues := l } }

/-- Group 3 of clips 70, 71 and 72. -/
def grouped (m : GroupMode) (start pointer : Nat) : State :=
  { studio with cs := { studio.cs with groups := studio.cs.groups.put 3 ⟨[70, 71, 72], m, start, pointer⟩ } }

theorem witness_ClipsAndGroupsAreChanged :
    (meets (.sealClip 40) (clipped (clip40 .filling 200 200 false)) (fun s => (clipAt s 40).written = 100 * 2)
    && meets (.sealClip 40) (clipped (clip40 .filling 200 199 false)) (fun s => (clipAt s 40).written ≠ 100 * 2)
    && meets (.sealClip 40) (clipped (clip40 .filling 200 199 true)) (fun s => (clipAt s 40).sealPending)
    && meets (.deleteClip 40) (clipped (clip40 .ready 200 200 false)) (fun s => clipReference 40 s = none)
    && meets (.deleteClip 40) (cued [cueOf9 (.clip 40) .waiting .manual] (clipped (clip40 .ready 200 200 false)))
      (fun s => clipReference 40 s = some (0, 9))
    && meets (.setGroup 15 1 [40] 0) (clipped (clip40 .ready 200 200 false)) (fun s => (clipAt s 40).state ≠ .empty)
    && meets (.clearGroup 15) studio (fun s => s.pu.cues = [])
    && meets (.clearGroup 15) (cued [cueOf9 (.group 15) .waiting .manual] studio) (fun s => s.pu.cues.length = 1)) = true
    ∧ (Tab.at studio.cs.groups 3).clips = [] ∧ Tab.at (grouped .single 3 1).cs.groups 3 = ⟨[70, 71, 72], .single, 3, 1⟩
    ∧ Tab.at (grouped .sweep 2 2).cs.groups 3 = ⟨[70, 71, 72], .sweep, 2, 2⟩ := by decide +kernel

theorem witness_SetClipTakesTrimAndSegue :
    (meets (.setClip 40 8193 101) (clipped (clip40 .ready 200 200 false)) (fun s => (clipAt s 40).state = .ready)
    && meets (.setClip 40 8192 100) (clipped (clip40 .filling 200 199 true)) (fun s => (clipAt s 40).state = .filling)
    && meets (.setClip 41 0 0) (clipped (clip40 .ready 200 200 false)) (fun s => (clipAt s 41).state = .empty)
    && meets (.setClip 252 0 0) studio (fun _ => true) && meets (.setClip 256 0 0) studio (fun _ => true)) = true := by
  decide +kernel

/-- The worked rotation group: SINGLE from the last clip to the first, SWEEP from its start. -/
theorem test_rotation : (resolveGroup 3 (grouped .single 3 3)).2 = [72]
    ∧ Tab.at (resolveGroup 3 (grouped .single 3 1)).1.cs.groups 3 = ⟨[70, 71, 72], .single, 3, 3⟩
    ∧ (resolveGroup 3 (grouped .single 3 1)).2 = [70] ∧ (resolveGroup 3 (grouped .sweep 2 2)).2 = [71, 70] := by
  decide +kernel

/-- The worked clip map (R64), in map (40, 7). -/
theorem test_clip_map : translate [40, 7] 1048575 = some 42991615 ∧ translate [40, 7] 1048576 = some 7340032
    ∧ translate [40, 7] 1048577 = some 7340033 := by decide +kernel

/-- A fill run whose bytes cross into another extent after the first, and the node whose write of it is under way. -/
def splitRun : FillRun := ⟨40, 198, 2, 100, some (1, 300)⟩
def writing (rest : List FillEntry) (marks : Bool) (c : Clip) : State :=
  { clipped c with cs := { (clipped c).cs with
      port := .write marks, fill := .data 40 [1, 2] :: rest, drain := some ⟨splitRun, 0⟩ } }

/-- A player of clip 40 at its start, in state `st`. -/
def player (st : PlayerState) : Player :=
  { Player.idle with
    state := st
    entry := some ⟨9, .playout, 4096, 0, 3, .resume⟩
    stream := [⟨40, true, 4096, 100, .m16, 100⟩] }

/-- The node whose player A is `x`, with clip 40 READY. -/
def playing (x : Player) : State :=
  let s := clipped (clip40 .ready 200 200 false)
  { s with pu := { s.pu with players := s.pu.players.put 0 x } }

/-- A player of the EMPTY clip 41, not asked for before: no frame to fetch. -/
def bare (st : PlayerState) : Player := { player st with stream := [⟨41, false, 4096, 0, .m16, 0⟩] }

/-- The node whose alert player holds clip 40, in MESSAGE. -/
def airing40 : State :=
  let s := clipped (clip40 .ready 200 200 false)
  { s with au := { s.au with player := { s.au.player with state := .message, clip := some 40 } } }

/-- A fetch of clip 40 from frame `f`. -/
def fetch (r : Reader) (f : Nat) (live : Bool) : Fetch := ⟨r, 40, f, f, live⟩

def waitingFor (f : Fetch) (s : State) : State := { s with cs := { s.cs with waiting := [f], lastKind := .write } }
def inFlight (f : Fetch) (s : State) : State := { s with cs := { s.cs with port := .fetch f (List.replicate 48 (1, 2)) } }

/-- The nodes whose filler player, or site alert player, holds clip 40. -/
def filling40 (r : Roles) : State :=
  let s := clipped (clip40 .ready 200 200 false)
  { s with settings := { s.settings with roles := r, fillerClip := some 40 } }

def siteAiring40 : State :=
  let s := filling40 ⟨false, false, false, false, false, true⟩
  { s with site := { s.site with player := { s.site.player with state := .message, clip := some 40 } } }

theorem witness_DramServesWritesAndFetches :
    ({ writing [] true (clip40 .filling 200 198 true) with cs := { (writing [] true (clip40 .filling 200 198 true)).cs with
      port := .free } }).cs.port = .free
    ∧ writeWaits (writing [] true (clip40 .filling 200 198 true)) = true ∧ studio.cs.waiting = []
    ∧ studio.cs.lastKind = .fetch
    ∧ splitRun.addressOf 0 ≠ splitRun.addressOf 1
    ∧ (∀ q w, Memory.wf (writing [] true (clip40 .filling 200 q w)).dram = true)
    ∧ (∀ st ∈ [PlayerState.playing, .loading], (playerAt (playing (bare st)) 0).asks = true
      ∧ (seekStream (playing (bare st)) (bare st).stream (bare st).fetchPosition).2 = none
      ∧ hasFetch (playerReader 0) (playing (bare st)) = false)
    ∧ (∀ d, (cueOf (cued [{ cueOf9 (.clip 41) .waiting .manual with due := d }] (playing (bare .loading))) 9).map
        CueEntry.due = some d)
    ∧ holdPresent (playing (bare .loading)) = false
    ∧ (∀ e ∈ ([] : List FillEntry).head?, e ≠ .address splitRun)
    ∧ (clipAt (writing [] true (clip40 .filling 200 198 true)) 40).written + 2 = 100 * 2
    ∧ (clipAt (writing [] true (clip40 .filling 200 197 true)) 40).written + 2 ≠ 100 * 2
    ∧ (playerAt (playing (player .loading)) 0).asks = true ∧ hasFetch (playerReader 0) (playing (player .loading)) = false
    ∧ airing40.au.player.clip = some 40 ∧ airing40.au.player.state ≠ .idle ∧ airing40.au.player.buffer.length ≤ 3024
    ∧ airing40.au.player.fetchPosition < (clipAt airing40 40).length ∧ hasFetch .alert airing40 = false
    ∧ (waitingFor (fetch .alert 52 true) airing40).cs.waiting = [fetch .alert 52 true]
    ∧ writeWaits (waitingFor (fetch .alert 52 true) airing40) = false
    ∧ (∃ b, fetchOutcome airing40 (fetch .alert 52 true) = .ok b)
    ∧ fetchOutcome airing40 (fetch .alert 100 false) = .pastEnd
    ∧ fetchOutcome (clipped (clip40 .filling 200 199 false)) (fetch .alert 52 false) = .notWritten
    ∧ (inFlight (fetch .alert 0 true) airing40).cs.port = .fetch (fetch .alert 0 true) (List.replicate 48 (1, 2))
    ∧ (fetch .alert 0 true).place = airing40.au.player.fetchPosition
    ∧ (playerAt (playing (player .playing)) 0).state = .playing
    ∧ (playerAt (playing (player .playing)) 0).stream = [⟨40, true, 4096, 100, .m16, 100⟩]
    ∧ (fetch (playerReader 0) 0 true).place = (playerAt (playing (player .playing)) 0).fetchPosition
    ∧ siteAiring40.cp.device = .running ∧ siteAiring40.settings.roles.site = true
    ∧ siteAiring40.site.player.clip = some 40 ∧ hasFetch .siteAlert siteAiring40 = false
    ∧ siteAiring40.site.player.fetchPosition < (clipAt siteAiring40 40).length
    ∧ (filling40 studio.settings.roles).settings.fillerClip = some 40
    ∧ (clipAt (filling40 studio.settings.roles) 40).state = .ready
    ∧ (filling40 studio.settings.roles).settings.roles.link = true
    ∧ (filling40 studio.settings.roles).link.filler.buffer.length ≤ 3024
    ∧ siteAiring40.site.filler.buffer.length ≤ 3024 ∧ hasFetch .siteFiller siteAiring40 = false
    ∧ (fetch .siteAlert 0 true).place = siteAiring40.site.player.fetchPosition
    ∧ (fetch .siteFiller 0 true).place = siteAiring40.site.filler.fetchPosition
    ∧ (fetch .filler 0 true).place = studio.link.filler.fetchPosition
    ∧ (∀ st, ∃ e, cueOf (cued [cueOf9 (.clip 40) st .manual] (playing (player .loading))) 9 = some e)
    ∧ (playerAt (playing (player .loading)) 0).detached = false
    ∧ plain.settings.roles.link = false ∧ plain.settings.roles.site = false
    ∧ (∃ e, ([40, 7] : List (Fin 512))[1048576 / 1048576]? = some e)
    ∧ (∃ a, translate (clip40 .ready 200 200 false).map (99 * bytesPerFrame .m16 + 1) = some a) := by
  refine ⟨rfl, by decide +kernel, rfl, rfl, by decide, fun _ _ => rfl, by decide +kernel, fun _ => rfl, by decide, by simp,
    by decide +kernel, by decide +kernel, by decide +kernel,
    by decide +kernel, rfl, by decide, by decide, by decide +kernel, by decide, rfl, by decide +kernel, ?_,
    by decide +kernel, by decide +kernel, rfl, rfl, by decide +kernel, by decide +kernel, by decide +kernel, rfl, rfl,
    rfl, by decide +kernel, by decide +kernel, rfl, by decide +kernel, rfl, by decide, by decide, by decide +kernel, rfl,
    rfl, rfl, fun st => ⟨_, rfl⟩, rfl, rfl, rfl, ⟨_, rfl⟩, ⟨_, rfl⟩⟩
  exact ⟨List.replicate 48 (0, 0), by decide +kernel⟩

/-- A player whose clip ends at its first frame, its buffer thus ready, and one with the buffer ready by its frames. -/
def cutShort (st : PlayerState) : Player := { player st with stream := [⟨40, true, 4096, 0, .m16, 0⟩] }
def buffered (st : PlayerState) (n : Nat) : Player := { player st with buffer := List.replicate n ⟨(1, 1), true, 0⟩ }

/-- The clauses on completions without frames: NOT_WRITTEN and PAST_END at each reader, wanted and not; a player that stays as
it is, one that becomes LOADED with its entry not due, not in the list or detached, and one that starts. -/
theorem witness_DramServesWritesAndFetches_completions :
    (∀ live : Bool, ∀ r ∈ [Reader.playerA, .playerB, .alert, .filler, .siteAlert, .siteFiller],
      let unwritten := waitingFor (fetch r 52 live) (clipped (clip40 .filling 200 199 false))
      let past := waitingFor (fetch r 100 live) (clipped (clip40 .ready 200 200 false))
      unwritten.cs.port = .free ∧ writeWaits unwritten = false ∧ unwritten.cs.lastKind = .write
      ∧ fetchOutcome unwritten (fetch r 52 live) = .notWritten ∧ fetchOutcome past (fetch r 100 live) = .pastEnd)
    ∧ (cutShort .loading).ready = true ∧ (buffered .loading 3071).ready = false ∧ (buffered .loading 3072).ready = true
    ∧ (buffered .playing 3072).state ≠ .loading
    ∧ cueOf (playing (cutShort .loading)) (heldTag (cutShort .loading)) = none
    ∧ (∀ d, (cueOf (cued [{ cueOf9 (.clip 40) .waiting .manual with due := d }] (playing (cutShort .loading))) 9).map
      CueEntry.due = some d)
    ∧ ({ cutShort .loading with detached := true }).detached = true
    ∧ cutStream (player .loading).stream 0 = (cutShort .loading).stream := by
  decide +kernel

/-- R73, R86, R88: a PAST_END at frame 0 leaves a LOADING player's stream fully fetched, so that it becomes LOADED, or starts
where its entry is due; a NOT_WRITTEN leaves it LOADING and bars it from asking. -/
theorem test_fetch_completions :
    let grant (c : Clip) (d : Bool) : State := deliverAny (grantFetch (waitingFor (fetch .playerA 0 true)
      (cued [{ cueOf9 (.clip 40) .loaded .manual with due := d }] (setClip 40 c (playing (player .loading))))))
    (playerAt (grant { clip40 .ready 0 0 false with length := 0 } false) 0).state = .loaded
    ∧ (playerAt (grant { clip40 .ready 0 0 false with length := 0 } true) 0).state = .playing
    ∧ (playerAt (grant (clip40 .filling 200 0 false) true) 0).state = .loading
    ∧ (playerAt (grant (clip40 .filling 200 0 false) true) 0).notWritten = true
    ∧ (playerAt (grant (clip40 .filling 200 0 false) true) 0).asks = false := by decide +kernel

/-- R88: a NOT_WRITTEN still counts for a player that has become IDLE since, so that its next entry asks at the next block
start. -/
theorem test_not_written_kept :
    let s := idlePlayer 0 (playing { player .loading with notWritten := true })
    (playerAt s 0).notWritten = true ∧ (playerAt (loadEntry 0 (cueOf9 (.clip 40) .waiting .manual) s) 0).notWritten = true
    ∧ (playerAt (playoutTick s) 0).notWritten = false
    ∧ (playerAt (deliverAny (grantFetch (waitingFor (fetch .playerA 52 false)
      (setClip 40 (clip40 .filling 200 199 false) (playing (player .loading)))))) 0).notWritten = true := by decide +kernel

/-! ## What the statements of playout and the seat assume -/

/-- A CUE INSERT of clip 40 with tag 9 at place 1. -/
def insert9 : Instr := .cueInsert 1 9 0 40 1 1000 9000 256 3 2 0 0

/-- `n` entries of other tags. -/
def others (n : Nat) : List CueEntry := (List.range n).map fun k =>
  { cueOf9 (.clip 40) .waiting .manual with tag := BitVec.ofNat 16 (k + 20) }

/-- A LOADED entry of tag 8, due, behind `n` others, held by player A. -/
def pushedOut (n : Nat) (c : Clip) : State :=
  let e := cueOf9 (.clip 40) .loaded .manual
  let x := player .loaded
  cued (others n ++ [{ e with tag := 8, due := true }])
    { playing { x with entry := x.entry.map fun h => { h with tag := 8 } } with cs := (clipped c).cs }

theorem witness_CueEntriesInsertedAndRemoved :
    ([0, 31].all (fun n => meets insert9 (cued (others n) (clipped (clip40 .ready 200 200 false))) fun s =>
      s.settings.roles.playout ∧ cueOf s 9 = none ∧ s.pu.cues.length < 32 ∧ sourceEmpty (.clip 40) s = false
      ∧ sourceProtected (.clip 40) = false ∧ ∀ x ∈ s.pu.cues, x.state ≠ .loaded)
    && meets insert9 (cued (others 32) (clipped (clip40 .ready 200 200 false))) (fun s => 32 ≤ s.pu.cues.length)
    && meets insert9 (cued [cueOf9 (.clip 40) .waiting .manual] studio) (fun s => cueOf s 9 ≠ none)
    && meets insert9 studio (fun s => sourceEmpty (.clip 40) s)
    && ([0, 65536].all fun w => meets (.cueInsert 1 w 0 40 1 1000 9000 256 3 2 0 0) studio (fun s => s.settings.roles.playout)
      && meets (.cueRemove w) studio fun s => !s.settings.roles.site)
    && meets (.cueRemove 9) studio (fun s => cueOf s 9 = none ∧ s.settings.roles.site = false)
    && meets (.cueRemove 9) (cued [cueOf9 (.clip 40) .waiting .manual] studio)
      (fun s => cueOf s 9 ≠ none ∧ playerOf s 9 = none)
    && ([PlayerState.loading, .loaded, .playing].all fun st =>
      meets (.cueRemove 9) (cued [cueOf9 (.clip 40) .loaded .manual] (playing (player st)))
        fun s => cueOf s 9 ≠ none ∧ playerOf s 9 = some 0 ∧ (playerAt s 0).state = st)
    && ([HoldPhase.fading, .waiting].all fun h =>
      meets (.cueRemove 9) (cued [cueOf9 (.clip 40) .held .manual] (playing { player .held with phase := h }))
        fun s => cueOf s 9 ≠ none ∧ playerOf s 9 = some 0 ∧ (playerAt s 0).phase = h)
    && meets (.cueRemove 9) (cued [cueOf9 (.clip 40) .playing .manual] (playing (player .ending)))
      (fun s => cueOf s 9 ≠ none ∧ playerOf s 9 = some 0)
    && meets insert9 (pushedOut 1 (clip40 .ready 200 200 false)) (fun s => cueOf s 9 = none
      ∧ (s.pu.cues.drop 1).head?.map CueEntry.tag = some 8 ∧ playerOf s 8 = some 0)) = true := by decide +kernel

/-- R86: an insert ahead of the LOADED entry at place 2 makes it WAITING again and its player IDLE; the due flag stays. -/
theorem test_pushed_out :
    let s := pushedOut 1 (clip40 .ready 200 200 false)
    let t := trimWindow { s with pu := { s.pu with cues := cueOf9 (.clip 40) .waiting .manual :: s.pu.cues } }
    (t.pu.cues.map CueEntry.state) = [.waiting, .waiting, .waiting] ∧ (playerAt t 0).state = .idle
    ∧ (t.pu.cues.map CueEntry.due) = [false, false, true] := by decide +kernel

/-- The clause on a LOADED entry moved out of the first two places. -/
theorem witness_CueMoveAndCueGain_loaded :
    meets (.cueMove 8 3) { pushedOut 0 (clip40 .ready 200 200 false) with pu := { (pushedOut 0 (clip40 .ready 200 200 false)).pu with
      cues := (pushedOut 0 (clip40 .ready 200 200 false)).pu.cues ++ others 2 } } (fun s =>
      (cueOf s 8).any (fun e => e.state == .loaded && !atFront s e) ∧ playerOf s 8 = some 0) = true := by decide +kernel

theorem witness_CueMoveAndCueGain :
    (meets (.cueMove 9 2) (cued (cueOf9 (.clip 40) .waiting .manual :: others 2) studio) (fun s =>
      (cueOf s 9).any (fun e => !atFront s e) ∧ ∀ x ∈ s.pu.cues, x.state ≠ .loaded)
    && meets (.cueMove 9 2) (cued (cueOf9 (.clip 40) .playing .manual :: others 2) (playing (player .playing)))
      (fun s => (cueOf s 9).any (fun e => atFront s e))
    && meets (.cueGain 9 8193) (cued (others 2) studio) (fun s => cueOf s 9 = none)
    && ([0, 65536].all fun w => meets (.cueMove w 2) studio (fun s => !s.settings.roles.site)
      && meets (.cueGain w 2) studio fun s => !s.settings.roles.site)
    && meets (.cueGain 9 8193) (cued [cueOf9 (.clip 40) .waiting .manual] studio) (fun s => playerOf s 9 = none)
    && meets (.cueGain 9 8193) (cued [cueOf9 (.clip 40) .loaded .manual] (playing (player .loaded)))
      (fun s => playerOf s 9 = some 0 ∧ (playerAt s 0).entry.isSome
        ∧ (playerAt s 0).stream[(playerAt s 0).part]?.isSome)) = true := by decide +kernel

theorem witness_PlayAndStop :
    (meets .play studio (fun s => s.pu.cues = [] ∧ s.settings.roles.playout)
    && meets .play (cued [cueOf9 (.clip 40) .playing .manual] studio) (fun s => s.pu.cues ≠ [] ∧ firstToPlay s = none)
    && meets .play (cued [cueOf9 (.clip 40) .waiting .manual] studio) (fun s =>
      firstToPlay s = some (cueOf9 (.clip 40) .waiting .manual) ∧ playerOf s 9 = none)
    && meets .play (cued [cueOf9 (.clip 40) .loaded .manual] (playing (player .loaded))) (fun s =>
      firstToPlay s = some (cueOf9 (.clip 40) .loaded .manual) ∧ playerOf s 9 = some 0
        ∧ (playerAt s 0).state = .loaded ∧ (playerAt s 0).detached = false ∧ (playerAt s 0).reload = none
        ∧ holdPresent s = false)
    && meets (.stop 9) studio (fun s => cueOf s 9 = none)
    && ([0, 65536].all fun w => meets (.stop w) studio fun s => s.settings.roles.playout ∧ !s.settings.roles.site)
    && ([CueState.waiting, .loaded].all fun st => meets (.stop 9) (cued [cueOf9 (.clip 40) st .manual] studio)
      fun s => (cueOf s 9).any fun e => e.state = st)
    && meets (.stop 9) (cued [cueOf9 (.clip 40) .playing .manual] (playing (player .playing)))
      (fun s => playerOf s 9 = some 0 ∧ (playerAt s 0).state = .playing ∧ (playerAt s 0).entry.isSome)
    && meets (.stop 9) (cued [cueOf9 (.clip 40) .held .manual] (playing (player .held)))
      (fun s => playerOf s 9 = some 0 ∧ (playerAt s 0).phase = .fading)) = true := by decide +kernel

/-- The clauses on the starts and on STOP under a hold: a LOADED player that plays from where it stands, resumes, or restarts,
with a hold and without one, one that still loads, and a HELD, WAITING one. -/
theorem witness_PlayAndStop_starts :
    (∀ r ∈ [none, some HoldBehaviour.resume, some .restart], ∀ held : Bool,
      let s := cued [cueOf9 (.clip 40) .loaded .manual] (playing { player .loaded with reload := r, holdPosition := 7 })
      let s := { s with pu := { s.pu with holdLatch := held } }
      firstToPlay s = some (cueOf9 (.clip 40) .loaded .manual) ∧ playerOf s 9 = some 0 ∧ (playerAt s 0).state = .loaded
      ∧ cueOf s 9 = some (cueOf9 (.clip 40) .loaded .manual) ∧ holdPresent s = held)
    ∧ (let s := cued [cueOf9 (.clip 40) .loaded .manual] (playing (player .loading))
      playerOf s 9 = some 0 ∧ (playerAt s 0).state ≠ .loaded)
    ∧ meets (.stop 9) (cued [cueOf9 (.clip 40) .held .manual] (playing { player .held with phase := .waiting })) (fun s =>
      playerOf s 9 = some 0 ∧ (cueOf s 9).any (fun e => e.state == .held) ∧ (playerAt s 0).state = .held
      ∧ (playerAt s 0).phase = .waiting) = true
    ∧ meets (.stop 9) plain (fun s => !s.settings.roles.playout) = true := by decide +kernel

/-- R92, R99: PLAY starts the entry of a LOADED player behind those at the front, HELD under a hold cause. -/
theorem test_play_starts : ∀ held : Bool,
    let s := cued (others 1 ++ [{ cueOf9 (.clip 40) .loaded .manual with dueSince := 2 }]) (playing (player .loaded))
    let t := makeDue 9 { s with pu := { s.pu with holdLatch := held } }
    t.pu.cues.map CueEntry.tag = [9, 20] ∧ (playerAt t 0).state = (if held then .held else .playing)
    ∧ t.cp.notices = [⟨.entryStarted, 1000, [word 0, word 9, wordFlag held]⟩] := by decide +kernel

theorem witness_EntriesAreLoadedAndComeDue :
    (∀ src ∈ [CueSource.clip 40, .group 3], (cued [cueOf9 src .waiting .manual] studio).settings.roles.playout = true
      ∧ (playerAt (cued [cueOf9 src .waiting .manual] studio) 0).state = .idle
      ∧ ((cued [cueOf9 src .waiting .manual] studio).pu.cues.take 2).find? (fun e => e.state == .waiting)
        = some (cueOf9 src .waiting .manual))
    ∧ (playerAt (playing (player .playing)) 0).state ≠ .idle ∧ (playerAt (playing (player .playing)) 1).state = .idle
    ∧ studio.pu.cues.take 2 = []
    ∧ ([0, 1, 2].all fun p => meets (.readPlayer p) studio fun s => s.settings.roles.playout) = true
    ∧ meets (.readPlayer 0) plain (fun s => !s.settings.roles.playout) = true
    ∧ cueOf (cued [cueOf9 (.clip 40) .waiting .atTime] studio) 9 = some (cueOf9 (.clip 40) .waiting .atTime)
    ∧ (studio.clock.blockCount - (cueOf9 (.clip 40) .waiting .atTime).startTime).toNat < 2147483648
    ∧ 2147483648 ≤ (studio.clock.blockCount - ({ cueOf9 (.clip 40) .waiting .atTime with startTime := 1001 }).startTime).toNat
    ∧ playerOf (cued [cueOf9 (.clip 40) .waiting .atTime] studio) 9 = none
    ∧ (playerAt (playing { player .playing with position := 100 }) 0).segueGiven = false
    ∧ 100 ≤ (playerAt (playing { player .playing with position := 100 }) 0).position
    ∧ follower 9 (playing { player .playing with position := 100 }) = none
    ∧ follower 9 (cued (cueOf9 (.clip 40) .playing .manual
      :: [{ cueOf9 (.clip 41) .waiting .follow with tag := 10 }]) (playing { player .playing with position := 100 }))
      = some 10 := by decide +kernel

theorem witness_PlayersProduceTheirBlocks :
    (playerAt (playing (player .loaded)) 0).produces = false
    ∧ (∀ n ∈ [0, 47, 48], let s := playing { player .playing with buffer := List.replicate n ⟨(1, 1), true, 0⟩ }
      (playerAt s 0).produces = true ∧ (playerAt s 0).entry = some ⟨9, .playout, 4096, 0, 3, .resume⟩
      ∧ ((playerAt s 0).buffer.take 48).all (fun f => decide (f.part ≤ (playerAt s 0).part)) = true
      ∧ (playerAt s 0).buffer.length = n ∧ (playerAt s 0).fullyFetched = false ∧ (playerAt s 0).underrunTold = false)
    ∧ (∀ n ∈ [0, 100], let s := playing { player .playing with low := true, fetchPosition := n }
      (playerAt s 0).produces = true ∧ (playerAt s 0).fullyFetched = (n == 100))
    ∧ streamLength (player .playing).stream = some 100
    ∧ (∀ n ∈ [51, 52], (playerAt (playing { player .playing with position := n }) 0).position = n)
    ∧ (∀ st ∈ [PlayerState.ending, .held], ∀ n ∈ [6, 7], let s := playing (player st)
      let t := { s with me := { s.me with playerEnvelope := s.me.playerEnvelope.put 0 ⟨4096, 0, 4096, 8, n⟩ } }
      (playerAt t 0).produces = true ∧ (playerAt t 0).state = st ∧ (Tab.at t.me.playerEnvelope 0).position = n) := by
  decide +kernel

theorem witness_BlockIsMixedAndSentForward :
    (∀ b, Tab.at ({ studio with settings := { studio.settings with
      outMap := studio.settings.outMap.put 0 b } }).settings.outMap 0 = b)
    ∧ studio.settings.roles.caller = true ∧ plain.settings.roles.caller = false := ⟨fun _ => rfl, rfl, rfl⟩

/-- A player that is fully fetched is not low (R88). -/
theorem test_low_clears : ({ player .held with low := true, fetchPosition := 100 }).clearLow.low = false
    ∧ ({ player .held with low := true, fetchPosition := 99 }).clearLow.low = true := by decide

/-- A line on air hears the programme without itself, one in READY the programme at the hold weight of 4, one in IDLE
nothing (R54); a sample of 100 at the LIVE weight of 16. -/
theorem test_mix_minus :
    let own : Entry :=
      ⟨2, 5, .live, true, false, true, true, 0, .present, 0, none, List.replicate 48 (100, 100), 0, false⟩
    let s : State := { studio with settings := { studio.settings with holdWeight := 4 }, cu := { studio.cu with table := [own] } }
    let heard (l : Fin 3) (st : CallState) : Block :=
      mixMinusAcc l quiet (programAcc s) (setLine l { CallLine.reset with state := st } s)
    programAcc s = List.replicate 48 (1600, 1600) ∧ heard 0 .onAir = List.replicate 48 (0, 0)
      ∧ heard 1 .onAir = List.replicate 48 (1600, 1600) ∧ heard 1 .ready = List.replicate 48 (400, 400)
      ∧ heard 1 .idle = zeroAcc := by decide +kernel

/-- A HELD player with its fade done, and one WAITING with its buffer ready. -/
def heldDone : Player := { player .held with ended := true }
def heldReady : Player := { player .held with phase := .waiting, buffer := List.replicate 3072 ⟨(0, 0), true, 0⟩ }

theorem witness_EndingHoldAndRelease :
    (playerAt (playing { player .playing with fetchPosition := 100 }) 0).state = .playing
    ∧ (100 : Nat) ≤ (playerAt (playing { player .playing with fetchPosition := 100 }) 0).fetchPosition
    ∧ 100 - (playerAt (playing { player .playing with fetchPosition := 100 }) 0).position ≤ 48 * 3
    ∧ (playerAt (playing heldDone) 0).phase = .fading ∧ (playerAt (playing heldDone) 0).ended = true
    ∧ (playerAt (playing heldDone) 0).cause = .complete ∧ (playerAt (playing heldDone) 0).detached = false
    ∧ (playerAt (playing heldReady) 0).phase = .waiting ∧ (playerAt (playing heldReady) 0).ready = true
    ∧ (playerAt (playing heldReady) 1).state ≠ .held
    ∧ ({ playing heldReady with pu := { (playing heldReady).pu with releaseReached := true } }).pu.releaseReached = true
    ∧ (playerAt studio 0).state ≠ .held := by decide +kernel

/-- The node whose player A is `x`, of an entry with tag 9 in state `st` and a FOLLOW entry of tag 10 after it. -/
def followed (st : CueState) (x : Player) : State :=
  cued [cueOf9 (.clip 40) st .manual, { cueOf9 (.clip 41) .waiting .follow with tag := 10 }] (playing x)

/-- A HELD, WAITING player of an entry with the hold behaviour given. -/
def heldBy (b : HoldBehaviour) (ready : Bool) : Player :=
  { player .held with
    phase := .waiting, holdPosition := 7, entry := some ⟨9, .playout, 4096, 0, 3, b⟩
    buffer := List.replicate (if ready then 3072 else 3071) ⟨(0, 0), true, 0⟩ }

/-- The clauses on entries that end: COMPLETE at a block start, stopped at the end of a hold fade, and let go. -/
theorem witness_EndingHoldAndRelease_ends :
    (∀ st ∈ [PlayerState.playing, .ending], ∀ d : Bool, let s := followed .playing { player st with ended := true, detached := d }
      (playerAt s 0).state = st ∧ (playerAt s 0).ended = true ∧ (playerAt s 0).detached = d ∧ cueOf s 9 ≠ none)
    ∧ (∀ d : Bool, let s := followed .held { heldDone with cause := .stop, detached := d }
      (playerAt s 0).phase = .fading ∧ (playerAt s 0).ended = true ∧ (playerAt s 0).cause ≠ .complete ∧ cueOf s 9 ≠ none)
    ∧ (playerAt studio 0).ended = false := by decide +kernel

/-- The clauses on releases: RESUME, RESTART and SKIP, ready and one frame short of it, with a FOLLOW entry and without; a
player still FADING; a marked one at a release count of 15 and of 16. -/
theorem witness_EndingHoldAndRelease_releases :
    (∀ b ∈ [HoldBehaviour.resume, .restart, .skip], ∀ r : Bool, ∀ n ∈ [15, 16],
      let s := followed .held { heldBy b r with releaseDue := true }
      let s := { s with pu := { s.pu with releaseReached := true, releaseCount := n } }
      (playerAt s 0).state = .held ∧ (playerAt s 0).phase = .waiting ∧ (playerAt s 0).ready = r
      ∧ (playerAt s 0).detached = false ∧ (playerAt s 1).state ≠ .held ∧ cueOf s 9 ≠ none ∧ holdPresent s = false
      ∧ follower 9 s = some 10 ∧ playerOf s 10 = none ∧ s.pu.releaseCount = n)
    ∧ follower 9 (cued [cueOf9 (.clip 40) .held .manual] (playing (heldBy .skip true))) = none
    ∧ (playerAt (playing (player .held)) 0).phase = .fading := by decide +kernel

/-- R97, R100: the block start that takes the release count from 15 to 16 releases a player whose buffer is ready, reloads one
that is a frame short, and ends a SKIP entry, whose follower comes due; from 14, and under a hold, nobody is released. -/
theorem test_releases :
    let after (b : HoldBehaviour) (r : Bool) (n : Nat) (hold : Bool) : State :=
      let s := followed .held (heldBy b r)
      releaseTick { s with pu := { s.pu with releaseCount := n, holdLatch := hold } }
    let shape (s : State) : PlayerState × List (CueState × Bool) :=
      ((playerAt s 0).state, s.pu.cues.map fun e => (e.state, e.due))
    shape (after .resume true 15 false) = (.playing, [(.playing, false), (.waiting, false)])
    ∧ (playerAt (after .resume true 15 false) 0).position = 7
    ∧ shape (after .restart false 15 false) = (.loading, [(.loaded, true), (.waiting, false)])
    ∧ shape (after .skip true 15 false) = (.idle, [(.waiting, true)])
    ∧ shape (after .resume true 14 false) = (.held, [(.held, false), (.waiting, false)])
    ∧ shape (after .resume true 15 true) = (.held, [(.held, false), (.waiting, false)])
    ∧ (after .resume true 15 true).pu.releaseCount = 0 := by decide +kernel

/-- The seat in a state, with the counts that end it. -/
def seated (st : SeatState) (s : State) : State :=
  { s with pu := { s.pu with seat := st, bidCount := 64, airRun := 128, yieldTimer := 4096 } }

/-- The node after its own announce, SILENCE set. -/
def silenced (s : State) : State :=
  { s with peers := s.peers.put 2 ⟨.self, 7, s.settings.roles, 0, some { announceBody s with silence := true }⟩ }

/-- The node with a PRESENT peer of a lower or higher node id in a seat state. -/
def facing (k : Fin 8) (st : SeatState) (s : State) : State :=
  { s with peers := s.peers.put k ⟨.present, 9, Roles.none, 0, some { announceBody s with seat := st }⟩ }

theorem witness_SeatChangesHands :
    ({ cued (others 1) studio with settings := { studio.settings with seatEnable := true } }).settings.seatEnable = true
    ∧ (cued (others 1) studio).lu.state = .joined ∧ (cued (others 1) studio).pu.cues ≠ [] ∧ studio.pu.cues = []
    ∧ studio.pu.seat = .standby ∧ (∀ k, (Tab.at studio.peers k).state ≠ .present)
    ∧ (∀ k ∈ [(1 : Fin 8), 5], ∀ st ∈ [SeatState.bidding, .holding],
      (Tab.at (facing k st studio).peers k).state = .present
      ∧ (Tab.at (facing k st studio).peers k).body.map AnnounceBody.seat = some st)
    ∧ (1 : Fin 8) < studio.settings.nodeId ∧ (seated .holding studio).pu.seat = .holding
    ∧ (seated .bidding studio).pu.seat = .bidding ∧ 64 ≤ (seated .bidding studio).pu.bidCount
    ∧ (silenced (seated .holding studio)).pu.seat = .holding ∧ 128 ≤ (silenced (seated .holding studio)).pu.airRun
    ∧ linkSilent (silenced (seated .holding studio)) = true
    ∧ (∀ p, (playerAt (silenced (seated .holding studio)) p).state = .idle)
    ∧ (playerAt (silenced (seated .holding (playing (player .playing)))) 0).state = .playing
    ∧ linkSilent (silenced (seated .holding (playing (player .playing)))) = true
    ∧ (∀ n ∈ [4094, 4095], ({ seated .yielded studio with pu := { (seated .yielded studio).pu with yieldTimer := n } }).pu.yieldTimer
      = n)
    ∧ (seated .yielded studio).pu.seat = .yielded ∧ 4096 ≤ (seated .yielded studio).pu.yieldTimer
    ∧ (meets .seatReset (seated .yielded studio) (fun s => s.settings.roles.playout)
      && meets .seatReset studio (fun s => s.pu.seat ≠ .yielded)) = true := by decide +kernel

/-! ## What the statements of the caller lines assume -/

/-- The node with line 1 (index 0) in a state, and the record it then holds. -/
def line0 (st : CallState) (f : CallLine → CallLine) (s : State) : State :=
  setLine 0 (f { CallLine.reset with state := st }) s

theorem witness_LineCommandsMoveLine :
    (meets (.answerLine 1) (line0 .ringing id studio) (fun s => (lineAt s 0).state = .ringing
        ∧ s.settings.roles.caller ∧ s.tg.waitList = [] ∧ freePoolVoice s = some 1)
    && meets (.answerLine 1) { line0 .ringing id studio with tg := { studio.tg with waitList := [.lineUp] } }
      (fun s => s.tg.waitList ≠ [])
    && meets (.answerLine 3) studio (fun s => (lineAt s 2).state ≠ .ringing)
    && ([(Instr.screenLine 1, CallState.screening), (.holdLine 1, .holding), (.readyLine 1, .ready)].all fun x =>
      ([CallState.screening, .holding, .ready, .checking, .onAir].all fun st =>
        meets x.1 (line0 st id studio) fun s => (lineAt s 0).state = st))
    && ([Instr.answerLine 0, .screenLine 4, .holdLine 0, .readyLine 4].all fun i =>
      meets i studio (fun s => s.settings.roles.caller) && meets i plain fun s => !s.settings.roles.caller)) = true := by
  decide +kernel

/-- The node with line 1 READY at the head of the Air Queue, and `n` lines on air. -/
def queuedCaller (n : Nat) : State :=
  let s := line0 .ready id studio
  { s with ku := { s.ku with airQueue := [⟨2, 0, 900⟩], onAir := n } }

theorem witness_CallerCommandsOnOwnAndOnRefusal :
    (([Instr.takeCaller 2 1, .takeNext].all fun i => [1, 2].all fun n =>
      meets i (queuedCaller n) fun s => s.settings.roles.caller ∧ (lineAt s 0).state = .ready ∧ s.ku.onAir = n
        ∧ s.settings.maxOnAir = 2 ∧ s.ku.airQueue.head? = some ⟨2, 0, 900⟩)
    && meets (.takeCaller 2 1) studio (fun s => (lineAt s 0).state ≠ .ready)
    && ([CallState.onAir, .holding].all fun st => meets (.dropCaller 2 1) (line0 st id studio) fun s =>
      (lineAt s 0).state = st)
    && ([CallState.checking, .onAir, .ringing].all fun st => meets (.hangUpCaller 2 1) (line0 st id studio) fun s =>
      (lineAt s 0).state = st)
    && ([Instr.takeCaller 8 1, .dropCaller 2 0, .hangUpCaller 2 4].all fun i =>
      meets i plain (fun s => !s.settings.roles.caller) && meets i studio fun s => s.settings.roles.caller)
    && meets .takeNext plain (fun s => !s.settings.roles.caller) && meets .takeNext studio (fun s => s.ku.airQueue = [])
    && meets (.remoteOutput 1 0) site (fun s => s.settings.roles.site)
    && ([0, 5].all fun o => meets (.remoteOutput o 0) studio fun s => !s.settings.roles.site)
    && ([1, 4].all fun o => meets (.remoteOutput o 0) plain fun s => !s.settings.roles.link
      ∧ ∀ k, (Tab.at s.peers k).state ≠ .present)) = true := by decide +kernel

/-- A CALLER node without the LINK role, with peer 4 as given. -/
def callerNode (st : PeerState) : State := peered st 0 (node ⟨false, false, true, false, false, false⟩)

/-- `n` requests of tags from 20. -/
def requests (n : Nat) : List Request := (List.range n).map fun k => ⟨BitVec.ofNat 16 (k + 20), .take, 4, 1, 0, .sent, 0⟩

theorem witness_PeerCommandBecomesRequest :
    ([Instr.takeCaller 4 3, .dropCaller 4 1, .hangUpCaller 4 1, .takeNext, .remoteOutput 4 70000].all fun i =>
      [7, 8].all fun n =>
        meets i { callerNode .present with ku := { studio.ku with requests := requests n, airQueue := [⟨4, 0, 900⟩] } }
          fun s => s.settings.roles.caller ∧ !s.settings.roles.link ∧ s.settings.nodeId = 2 ∧ s.lu.state = .joined
            ∧ (Tab.at s.peers 4).state = .present ∧ (Tab.at s.peers 4).roles.link ∧ s.ku.requests.length = n
            ∧ s.tx.control.length < 8 ∧ (∀ j, j < 4 → (Tab.at s.peers j).state ≠ .present)
            ∧ s.ku.airQueue.head? = some ⟨4, 0, 900⟩
            ∧ (∀ r ∈ s.ku.requests, r.tag ≠ if s.ku.tagCounter = 65535#16 then 1#16 else s.ku.tagCounter + 1))
    && meets (.takeCaller 4 1) { callerNode .present with lu := (listening 0 0).lu } (fun s => s.lu.state ≠ .joined)
    && ([PeerState.absent, .lost].all fun st => meets (.takeCaller 4 1) (callerNode st) fun s =>
      (Tab.at s.peers 4).state ≠ .present) = true := by decide +kernel

/-- Node 4's announce with its first line summary and the echo given. -/
def summaryOf (x : LineSummary) (echo : Option Nat) : RxControl :=
  controlOf 4 (.announce { announceBody plain with
    roles := { Roles.none with link := true }, echo := echo, lines := #v[x, ⟨.idle, 0⟩, ⟨.idle, 0⟩] })

/-- The clauses on the Air Queue and the echo: each line summary against an empty queue and one with an entry of waiting 100,
at the two sides of the 24 block starts that keep it, and an echo of an own record and of a heard one. -/
theorem witness_AnnouncesAreTakenAndSent_airQueue :
    (hearing (callerNode .present)).settings.roles.caller = true ∧ airFind 4 0 (hearing (callerNode .present)) = none
    ∧ (∀ n ∈ [0, 75, 76, 65535], RxControl.passes (summaryOf ⟨.ready, n⟩ none) = true
      ∧ Tab.at (parseAnnounce (summaryOf ⟨.ready, n⟩ none).body).lines 0 = ⟨.ready, n⟩)
    ∧ Tab.at (parseAnnounce (summaryOf ⟨.onAir, 5⟩ none).body).lines 0 = ⟨.onAir, 5⟩
    ∧ (∀ id ∈ [512, 1024], (parseAnnounce (summaryOf ⟨.idle, 0⟩ (some id)).body).roles.link = true
      ∧ (parseAnnounce (summaryOf ⟨.idle, 0⟩ (some id)).body).echo = some id)
    ∧ (let s := { callerNode .present with ku := { studio.ku with airQueue := [⟨4, 0, 900⟩] } }
      airFind 4 0 s = some ⟨4, 0, 900⟩ ∧ (s.clock.blockCount - 900).toNat = 76 + 24
      ∧ airFind 4 1 s = none ∧ airFind 4 2 s = none) := by decide +kernel

/-- A line in CHECKING with pool voice 1, its check complete with peak `p`. -/
def checked (p : Nat) : State :=
  line0 .checking (fun x => { x with voice := .held 1, checkCount := 200, checkPeak := p }) studio

theorem witness_LineTimersAndInputsMoveLine :
    studio.cp.device = .running ∧ studio.settings.roles.site = false ∧ studio.settings.roles.caller = true
    ∧ (lineAt (line0 .idle (fun x => { x with ring := ⟨true, 0, 0⟩ }) studio) 0).ring.level = true
    ∧ (∀ x ∈ [(CallState.ringing, 8000), (.dead, 16), (.clearing, 500)], ∀ b,
      (lineAt (line0 x.1 (fun y => { y with timer := x.2, ring := ⟨b, 0, 0⟩ }) studio) 0).state = x.1
      ∧ x.2 ≤ (lineAt (line0 x.1 (fun y => { y with timer := x.2, ring := ⟨b, 0, 0⟩ }) studio) 0).timer)
    ∧ (∀ st ∈ [CallState.checking, .screening, .holding, .ready, .onAir],
      (lineAt (line0 st (fun x => { x with loopAbsent := 200 }) studio) 0).state = st
      ∧ 200 ≤ (lineAt (line0 st (fun x => { x with loopAbsent := 200 }) studio) 0).loopAbsent)
    ∧ (∀ p ∈ [2099, 2100, 4200000, 4200001], (lineAt (checked p) 0).state = .checking ∧ (lineAt (checked p) 0).checkPeak = p
      ∧ (lineAt (checked p) 0).voice = .held 1 ∧ (checked p).settings.checkLength ≤ (lineAt (checked p) 0).checkCount
      ∧ (checked p).settings.deadFloor = 2100 ∧ (checked p).settings.echoCeiling = 4200000)
    ∧ 3 ≤ (lineAt (line0 .idle (fun x => { x with loop := ⟨true, 3, 0⟩ }) studio) 0).loop.run
    ∧ (∀ b, 3 ≤ (lineAt (line0 .idle (fun x => { x with ring := ⟨b, 3, 0⟩ }) studio) 0).ring.run
      ∧ (lineAt (line0 .idle (fun x => { x with ring := ⟨b, 3, 0⟩ }) studio) 0).ring.level = b) := by decide +kernel

/-- A contact about to accept: two samples that differ from its level are taken. -/
def nearly (level : Bool) : Filter := ⟨level, 2, 0⟩

/-- The clauses on a block start: each count on both sides of its limit, each ring level, and a line with a voice and without. -/
theorem witness_LineTimersAndInputsMoveLine_counts :
    (∀ x ∈ [(CallState.ringing, 7999), (.ringing, 8000), (.dead, 15), (.dead, 16), (.clearing, 499), (.clearing, 500)], ∀ b,
      let l := lineAt (line0 x.1 (fun y => { y with timer := x.2, ring := ⟨b, 0, 0⟩ }) studio) 0
      l.state = x.1 ∧ l.timer = x.2 ∧ (l.sampled b false).ring.level = b)
    ∧ (∀ st ∈ [CallState.checking, .screening, .holding, .ready, .onAir], ∀ n ∈ [198, 199],
      let l := lineAt (line0 st (fun y => { y with loopAbsent := n }) studio) 0
      l.state = st ∧ (l.sampled false false).loopCounted.loopAbsent = n + 1)
    ∧ (∀ n ∈ [198, 199], let l := lineAt (line0 .checking (fun y => { y with voice := .held 1, checkCount := n }) studio) 0
      l.holdsVoice = true ∧ (l.sampled false false).loopCounted.voice = .held 1
      ∧ (l.checked 200 [-5, 3]).checkCount = n + 1 ∧ (l.checked 200 [-5, 3]).checkPeak = 5)
    ∧ (∀ b, let l := lineAt (line0 .idle (fun y => { y with ring := nearly b }) studio) 0
      l.ring.level = b ∧ (l.sampled (!b) false).ring.level = !b ∧ (l.sampled b false).ring.level = b)
    ∧ studio.settings.checkLength = 200 := by decide +kernel

/-- R107, R189: a contact accepts on the third sample that differs, with the hold-off at 64, during which nothing counts. -/
theorem test_contact_filter : (nearly false).sample true = ⟨true, 0, 64⟩ ∧ (nearly false).sample false = ⟨false, 0, 0⟩
    ∧ ((⟨true, 0, 1⟩ : Filter).sample false = ⟨true, 0, 0⟩) ∧ ((⟨true, 0, 0⟩ : Filter).sample false = ⟨true, 1, 0⟩) := by
  decide

/-- R110: the peak takes the blocks of the last half of the check alone, 101 to 200 of 200. -/
theorem test_check_half :
    let l := lineAt (line0 .checking (fun y => { y with voice := .held 1 }) studio) 0
    (({ l with checkCount := 99 }).checked 200 [-9]).checkPeak = 0 ∧ (({ l with checkCount := 100 }).checked 200 [-9]).checkPeak = 9 := by
  decide

/-- A REQUEST of node 4 for item `item` of node `k`. -/
def requestOf (v : Verb) (k item : Nat) : RxControl := controlOf 4 (.request ⟨v, 5, k, item, 300⟩)

/-- An ANSWER of node 4 with tag 5 for requester `k`. -/
def answerOf (k : Nat) : RxControl := controlOf 4 (.answer ⟨k, 5, .accepted, 1, 6⟩)

theorem witness_RequestsAreActedOnAndEnded :
    (hearing studio).lu.receiving = true ∧ (hearing studio).lu.state = .joined ∧ (hearing studio).tx.control.length < 8
    ∧ (∀ x ∈ [(Verb.take, 2, 0), (.take, 2, 4), (.take, 2, 1), (.drop, 2, 3), (.hangUp, 2, 2), (.take, 3, 1)],
      RxControl.passes (requestOf x.1 x.2.1 x.2.2) = true ∧ (requestOf x.1 x.2.1 x.2.2).kind = 3
      ∧ (requestOf x.1 x.2.1 x.2.2).node ≠ studio.settings.nodeId
      ∧ parseRequest (requestOf x.1 x.2.1 x.2.2).body = some ⟨x.1, 5, x.2.1, x.2.2, 300⟩)
    ∧ (hearing muted).lu.state ≠ .joined ∧ plain.settings.roles.caller = false
    ∧ (lineAt (queuedCaller 1) 0).state = .ready ∧ (queuedCaller 1).ku.onAir < (queuedCaller 1).settings.maxOnAir
    ∧ (queuedCaller 2).settings.maxOnAir ≤ (queuedCaller 2).ku.onAir
    ∧ (lineAt (line0 .onAir id studio) 0).state = .onAir ∧ (lineAt studio 0).state = .idle
    ∧ (∀ k ∈ [2, 3], RxControl.passes (answerOf k) = true ∧ (answerOf k).kind = 4 ∧ (answerOf k).node ≠ studio.settings.nodeId
      ∧ parseAnswer (answerOf k).body = some ⟨k, 5, .accepted, 1, 6⟩)
    ∧ (hearing (requesting .sent 32 studio)).ku.requests.find? (fun r => r.tag == 5)
      = some ⟨5, .take, 4, 1, 0, .sent, 32⟩
    ∧ (hearing (requesting .queued 0 studio)).ku.requests.find? (fun r => r.tag == 5)
      = some ⟨5, .take, 4, 1, 0, .queued, 0⟩
    ∧ (hearing (requesting .sent 31 studio)).lu.receiving = true ∧ studio.ku.requests = [] := by decide +kernel

/-- The clauses on the wait count at a block start: a request on both sides of its last block, and a QUEUED one. -/
theorem witness_RequestsAreActedOnAndEnded_counts :
    (∀ n ∈ [30, 31], (requesting .sent n studio).ku.requests = [⟨5, .take, 4, 1, 0, .sent, n⟩])
    ∧ (requestTick (requesting .sent 30 studio)).ku.requests = [⟨5, .take, 4, 1, 0, .sent, 31⟩]
    ∧ (requestTick (requesting .sent 31 studio)).ku.requests = []
    ∧ (requestTick (requesting .queued 31 studio)).ku.requests = [⟨5, .take, 4, 1, 0, .queued, 31⟩] := by decide +kernel

/-! ## What the statements of the alerts assume -/

/-- Alert `id`, without a clip, in state `st`. -/
def alert (id : Nat) (st : AlertState) (cls : AlertClass) : Alert :=
  ⟨BitVec.ofNat 32 (id + 100000), id, .command, cls, 60, 0, 1, 1, 120000, none, false, st, .attention, 0, 5, false, false, false,
    0, 0, 0, false⟩

/-- The node with alert records. -/
def alerted (l : List Alert) (s : State) : State := { s with au := { s.au with table := l } }

/-- Four own records of the highest class. -/
def fullTable : List Alert := (List.range 4).map fun k => alert (512 + k) .interval .emergency

/-- The clauses on displacement: a full table of own and heard TEST records, one of them airing. The lowest is the heard
record 1030 of age 0, or without it own record 514. -/
def outranked (heard : Bool) : List Alert :=
  [alert 512 .airing .test, { alert 513 .pending .test with age := 4 }, { alert 514 .interval .test with age := 1 },
    if heard then { alert 1030 .pending .test with age := 0 } else { alert 1030 .pending .test with age := 2 }]

theorem witness_displacement : ∀ h : Bool,
    (alerted (outranked h) studio).au.table.length = 4
    ∧ Lowest (if h then { alert 1030 .pending .test with age := 0 } else { alert 514 .interval .test with age := 1 })
      (alerted (outranked h) studio)
    ∧ AlertClass.emergency.ctorIdx < AlertClass.test.ctorIdx ∧ FramesRoom (alerted (outranked h) studio) := by
  intro h
  refine ⟨by cases h <;> rfl, ⟨⟨by cases h <;> decide, ?_⟩, by cases h <;> decide, ?_⟩, by decide, fun _ => by
    cases h <;> decide⟩ <;>
    cases h <;> decide

theorem witness_AlertIssueAdmitsRecord :
    (meets (.alertIssue 3 8 wordNone 77) site (fun s => s.settings.roles.site)
    && ([(0 : Word), 77].all fun key => meets (.alertIssue 3 8 wordNone key) studio fun s =>
      !s.settings.roles.site ∧ s.au.table.length < 4 ∧ (s.lu.state = .joined → s.tx.control.length < 8)
      ∧ s.au.recent = [] ∧ alertOf s (2 * 256 + s.au.originSeq.toNat) = none)
    && meets (.alertIssue 4 8 wordNone 77) studio (fun _ => true) && meets (.alertIssue 3 8 256 77) studio (fun _ => true)
    && meets (.alertIssue 3 8 252 77) studio (fun _ => true)
    && meets (.alertIssue 3 8 251 77) studio (fun s => (clipAt s 251).state = .empty)
    && meets (.alertIssue 3 8 40 77) (clipped (clip40 .ready 200 200 false)) (fun s => (clipAt s 40).state ≠ .empty)
    && meets (.alertIssue 3 8 40 77) { clipped (clip40 .ready 200 200 false) with au := { studio.au with recent := [77] } }
      (fun s => 77 ∈ s.au.recent)
    && meets (.alertIssue 3 8 wordNone 77) (alerted fullTable studio) (fun s => 4 ≤ s.au.table.length
      ∧ ∀ x ∈ s.au.table, x.state ≠ .airing → x.cls.ctorIdx < AlertClass.test.ctorIdx)) = true := by decide +kernel

/-- The clause on the ALERT frames of a node that joins: two own records and a heard one. -/
theorem witness_LineIsJoinedByMarksOrAlone_alerts :
    let s := alerted [alert 512 .pending .test, alert 1030 .pending .test, alert 513 .airing .test] (listening 64 4)
    s.lu.state = .listening ∧ (s.au.table.filter fun r => r.id / 256 = s.settings.nodeId.val).map Alert.id = [512, 513]
    ∧ 2 + s.tx.control.length < 8 ∧ 64 ≤ s.lu.goodMarks ∧ 4 ≤ s.lu.noMarks
    ∧ (joinByMarks s).tx.control.map (fun f => controlKind f.body) = [2, 2, 1] := by decide +kernel

theorem witness_OwnAlertsEnd :
    (meets (.alertCancel 512) site (fun s => s.settings.roles.site)
    && meets (.alertCancel 512) studio (fun s => ∀ r ∈ s.au.table, r.id ≠ 512)
    && ([512, 1024].all fun id => meets (.alertCancel (BitVec.ofNat 32 id)) (alerted [alert id .pending .test] studio) fun s =>
      s.au.table = [alert id .pending .test])) = true
    ∧ (∀ id ∈ [512, 1024], Sole (alert id .pending .test) (alerted [alert id .pending .test] studio))
    ∧ 512 / 256 = studio.settings.nodeId.val ∧ 1024 / 256 ≠ studio.settings.nodeId.val
    ∧ studio.cp.device = .running ∧ studio.settings.roles.alert = true ∧ studio.au.framer = .hunt
    ∧ (alert 512 .pending .test).key ≠ 0
    ∧ (∀ n ∈ [59998, 59999, 60000], Sole { alert 512 .pending .test with minuteCount := n, duration := 1 }
      (alerted [{ alert 512 .pending .test with minuteCount := n, duration := 1 }] studio)) := by
  refine ⟨by decide +kernel, ?_, by decide, by decide, rfl, rfl, rfl, by decide, ?_⟩
  all_goals
    intro n _
    exact ⟨List.mem_cons_self, fun x h _ => by simpa [alerted] using h⟩

/-- The node with own alert 512 CAPTURING into clip 252, whose marks are as given. -/
def capturing (written : Nat) : State :=
  let s := alerted [{ alert 512 .capturing .warning with origin := .receiver, clip := some 252 }] studio
  setClip 252 ⟨.filling, .m16, 524288, [9], 101, written, false, 0, 4096, true, 524288⟩ s

/-- The same with `q` bytes queued and `n` entries in the fill queue. -/
def capturingAt (q n : Nat) : State :=
  let s := capturing 0
  let s := setClip 252 { clipAt s 252 with queued := q } s
  { s with cs := { s.cs with fill := List.replicate n (.data 40 [1]) } }

/-- R75 and R138: with 61 entries in the fill queue a block is queued; with 62 the capture is closed. -/
theorem test_capture_block : ((captureTick quiet 512 (capturingAt 96 61)).cs.fill.length = 64
    ∧ (clipAt (captureTick quiet 512 (capturingAt 96 61)) 252).queued = 192)
    ∧ (captureTick quiet 512 (capturingAt 96 62)).cs.fill.length = 62
    ∧ (clipAt (captureTick quiet 512 (capturingAt 96 62)) 252).length = 48 := by decide +kernel

/-- The node with a BEGIN half read, `n` block starts ago. -/
def framing (n : Nat) : State :=
  { studio with au := { studio.au with framer := .header (some 1), framerBlocks := n } }

theorem witness_ReceiverMessagesTaken :
    studio.cp.device = .running ∧ studio.settings.roles.site = false ∧ studio.settings.roles.alert = true
    ∧ studio.au.framer = .hunt ∧ (77 : Word) ≠ 0 ∧ studio.au.table = [] ∧ studio.au.recent = []
    ∧ (∃ r ∈ (alerted [alert 512 .pending .test] studio).au.table, r.key = 100512)
    ∧ 4 ≤ (alerted fullTable studio).au.table.length
    ∧ (∀ x ∈ (alerted fullTable studio).au.table, x.state ≠ .airing → x.cls.ctorIdx < AlertClass.warning.ctorIdx)
    ∧ (studio.lu.state = .joined → studio.tx.control.length < 8)
    ∧ captureFree studio 252 = false
    ∧ captureFree (setClip 252 { Clip.empty with map := [9], capacity := 524288 } studio) 252 = true
    ∧ (∀ n ∈ [100, 101], (clipAt (capturing n) 252).queued / 2 = 50 ∧ ∃ r ∈ (capturing n).au.table, r.state = .capturing
      ∧ r.clip = some 252 ∧ ∀ x ∈ (capturing n).au.table, x = r)
    ∧ (∃ r ∈ (alerted [alert 512 .pending .test] studio).au.table, r.state ≠ .capturing)
    ∧ ([] : List Byte).foldl (· + ·) ((2 : Byte) + 0 + 1) ≠ 0 ∧ wordAt (be32 0) 0 = 0
    ∧ (4, 4) ∉ [(1, 8), (2, 4), (3, 4)] ∧ 3 < (byteAt (be32 77 ++ [4, 0, 1, 1]) 4).toNat
    ∧ (∀ n ∈ [15, 16], (framing n).au.framer ≠ .hunt ∧ (framing n).au.framerBlocks = n)
    ∧ plain.settings.roles.alert = false
    ∧ (∀ q ∈ [0, 1048479, 1048480], ∀ n ∈ [0, 61, 62],
      (∃ r, Sole r (capturingAt q n) ∧ r.id = 512 ∧ r.state = .capturing ∧ r.clip = some 252)
      ∧ (clipAt (capturingAt q n) 252).queued = q ∧ (capturingAt q n).cs.fill.length = n
      ∧ q < 2 * (clipAt (capturingAt q n) 252).capacity
      ∧ 2 * (clipAt (capturingAt q n) 252).capacity ≤ (clipAt (capturingAt q n) 252).map.length * 1048576)
    ∧ (capturingAt 0 0).cs.fill = [] ∧ writeWaits (capturingAt 0 61) = true := by
  refine ⟨rfl, rfl, rfl, rfl, by decide, rfl, rfl, ⟨_, List.mem_cons_self, rfl⟩, by decide, by decide, by decide,
    by decide +kernel, by decide +kernel, ?_, ⟨_, List.mem_cons_self, by decide⟩, by decide, by decide, by decide,
    by decide, by decide, rfl, ?_, rfl, by decide +kernel⟩
  · intro n h
    simp only [List.mem_cons, List.not_mem_nil, or_false] at h
    refine ⟨?_, _, List.mem_cons_self, rfl, rfl, fun x h => ?_⟩
    · rcases h with rfl | rfl <;> decide +kernel
    · simpa [capturing, alerted, setClip] using h
  · intro q hq n hn
    refine ⟨⟨_, ⟨List.mem_cons_self, fun x h _ => by simpa [capturingAt, capturing, alerted, setClip] using h⟩,
      rfl, rfl, rfl⟩, ?_⟩
    simp only [List.mem_cons, List.not_mem_nil, or_false] at hq hn
    rcases hq with rfl | rfl | rfl <;> rcases hn with rfl | rfl | rfl <;> decide +kernel

/-- A frame of alert 1024 from node 4. -/
def alertFrame (st : AlertState) (ended : Option EndReason) : RxControl :=
  controlOf 4 (.alert (alertBody { alert 1024 st .warning with age := 3 } ended))

/-- The items that it carries. -/
def heard (st : AlertState) (ended : Option EndReason) : Option AlertBody := parseAlert (alertFrame st ended).body

theorem witness_AlertFramesKeepHeardRecords :
    (hearing studio).lu.receiving = true
    ∧ (∀ x ∈ [(AlertState.pending, none), (.airing, none), (.pending, some EndReason.complete), (.pending, some .duplicate)],
      RxControl.passes (alertFrame x.1 x.2) = true ∧ (alertFrame x.1 x.2).kind = 2
      ∧ (alertFrame x.1 x.2).node ≠ studio.settings.nodeId
      ∧ (heard x.1 x.2).any (fun b => b.id == 1024 && b.key == 101024 && b.ended == x.2.isSome) = true)
    ∧ (∀ st ∈ [AlertState.pending, .airing], Sole (alert 1024 st .warning) (alerted [alert 1024 st .warning] studio))
    ∧ 1024 / 256 ≠ studio.settings.nodeId.val ∧ studio.au.table = []
    ∧ (101024 : Word) ∈ ({ studio with au := { studio.au with recent := [101024] } }).au.recent
    ∧ 4 ≤ (alerted fullTable studio).au.table.length
    ∧ (∀ x ∈ (alerted fullTable studio).au.table, x.cls.ctorIdx < AlertClass.warning.ctorIdx)
    ∧ (∀ n ∈ [255, 256], Sole { alert 512 .pending .test with sinceFrame := n }
      (alerted [{ alert 512 .pending .test with sinceFrame := n }] studio))
    ∧ (∀ n ∈ [1023, 1024], Sole { alert 1024 .pending .test with silence := n }
      (alerted [{ alert 1024 .pending .test with silence := n }] studio)) := by
  refine ⟨rfl, by decide +kernel, ?_, by decide, rfl, by simp, by decide, by decide, ?_, ?_⟩
  all_goals
    intro n _
    exact ⟨List.mem_cons_self, fun x h _ => by simpa [alerted] using h⟩

/-- The clauses on duplicates and on the yield: alert 1024 of node 4 with key 101024, heard while an own record (of node 2),
a heard one of a higher and one of a lower origin holds the key, while a heard one holds the id with another key, and AIRING
while own record 512 of a lower class is AIRING too. -/
theorem witness_AlertFramesKeepHeardRecords_duplicates :
    (∀ id ∈ [512, 768, 1280], Sole { alert id .pending .test with key := 101024 }
      (alerted [{ alert id .pending .test with key := 101024 }] (hearing studio)))
    ∧ (heard .pending none).map AlertBody.id = some 1024 ∧ 512 / 256 = studio.settings.nodeId.val
    ∧ 768 / 256 < 1024 / 256 ∧ 1024 / 256 < 1280 / 256
    ∧ Sole { alert 1024 .pending .test with key := 5 } (alerted [{ alert 1024 .pending .test with key := 5 }] (hearing studio))
    ∧ (heard .airing none).map AlertBody.cls = some .warning ∧ AlertClass.warning.ctorIdx < AlertClass.test.ctorIdx
    ∧ Sole (alert 512 .airing .test) (alerted [alert 512 .airing .test] (hearing studio))
    ∧ FrameRoom (alerted [alert 512 .airing .test] (hearing studio)) := by
  refine ⟨fun n _ => ?_, by decide +kernel, by decide, by decide, by decide, ?_, by decide +kernel, by decide, ?_,
    fun _ => by decide⟩
  all_goals exact ⟨List.mem_cons_self, fun x h _ => by simpa [alerted] using h⟩

/-- The clauses on the yield to a frame that is not admitted: own record 512 AIRING while the frame's key is a recent one, is
held by a heard record of a lower or the same origin, by the own record itself, or the id is held with another key. -/
theorem witness_AlertFramesKeepHeardRecords_yields :
    let own := alert 512 .airing .test
    (∀ s ∈ [{ alerted [own] (hearing studio) with au := { (alerted [own] studio).au with recent := [101024] } },
        alerted [own, { alert 768 .pending .test with key := 101024 }] (hearing studio),
        alerted [own, { alert 1025 .pending .test with key := 101024 }] (hearing studio),
        alerted [own, { alert 513 .pending .test with key := 101024 }] (hearing studio),
        alerted [{ own with key := 101024 }] (hearing studio),
        alerted [own, { alert 1024 .pending .test with key := 5 }] (hearing studio)],
      (∀ x ∈ s.au.table, x.id / 256 = s.settings.nodeId.val → x.state = .airing → x.id = 512)
      ∧ (s.au.table.map Alert.id).Nodup ∧ s.tx.control.length < 7
      ∧ ((heard .airing none).map fun b => ((takeAlertFrame b s).au.table.find? (fun r => r.id == 512)).map Alert.state)
        = some (some .pending)) := by decide +kernel

/-- The clause on an own record with a frame of a lower origin: node 4 hears alert 512 of node 2. -/
theorem witness_AlertFramesKeepHeardRecords_lower :
    let s := alerted [{ alert 1024 .pending .test with key := 100512 }] { hearing studio with
      settings := { studio.settings with nodeId := 4 } }
    Sole { alert 1024 .pending .test with key := 100512 } s ∧ 1024 / 256 = s.settings.nodeId.val ∧ 512 / 256 < 1024 / 256
    ∧ (parseAlert (alertBody (alert 512 .pending .test) none |> fun b => (controlOf 2 (.alert b)).body)).any
      (fun b => b.id == 512 && b.key == 100512 && b.state == .pending) = true :=
  ⟨⟨List.mem_cons_self, fun x h _ => by simpa [alerted] using h⟩, by decide, by decide, by decide +kernel⟩

/-- The node airing own alert 512, its player in state `p`, with the clip given. -/
def onAirAt (p : AlertPlay) (phase : AlertPhase) (n remaining : Nat) (c : Option (Fin 256)) (at_ : Ramp) : State :=
  let s := alerted [{ alert 512 .airing .warning with phase := phase, phaseCount := n, remaining := remaining }] studio
  { s with
    au := { s.au with player := { s.au.player with state := p, alert := some 512, clip := c } }
    me := { s.me with alertEnvelope := at_ } }

/-- The node airing own alert 512 with clip 40, which has 100 frames: its player holds `n` frames from frame `at_` on. -/
def message40 (at_ n remaining : Nat) : State :=
  let s := setClip 40 (clip40 .ready 200 200 false) (onAirAt .message .message 0 remaining (some 40) (Ramp.rest 4096))
  { s with au := { s.au with
      table := s.au.table.map fun r => { r with clip := some 40 }
      player := { s.au.player with
        position := at_, fetchPosition := at_ + n, buffer := List.replicate n (1, 2), handed := true } } }

/-- R89, R148 and R149: with 10 frames held a block of the clip's middle counts UNDERRUN; the block at frame 52 is the
clip's last, marked END, and the airing goes on to INTERVAL or ends; the one at frame 51 is not. -/
theorem test_message_block : (produceAlert (message40 48 10 1)).1.au.player.underruns = 1
    ∧ (produceAlert (message40 48 10 1)).1.au.player.fetchPosition = 96
    ∧ ((produceAlert (message40 52 48 2)).1.au.table.map Alert.state = [.interval])
    ∧ (produceAlert (message40 52 48 1)).1.au.table = [] ∧ (produceAlert (message40 52 48 1)).1.au.player.state = .idle
    ∧ ((produceAlert (message40 52 48 1)).2.map SourceBlock.last = some true)
    ∧ (produceAlert (message40 51 48 1)).2.map SourceBlock.last = some false := by decide +kernel

theorem witness_AiringRunsThroughItsPhases :
    candidate (alerted [alert 512 .pending .warning] studio) = some (alert 512 .pending .warning)
    ∧ (alerted [alert 512 .pending .warning] studio).cu.inForce ≠ some .alert
    ∧ (alerted [alert 512 .pending .warning] studio).au.player.state = .idle
    ∧ (∀ n ∈ [899999, 900000],
      candidate { alerted [{ alert 512 .pending .test with testWait := n }] studio with
        cu := { studio.cu with inForce := some .live } } = some { alert 512 .pending .test with testWait := n })
    ∧ (∀ x ∈ [(AlertPlay.tone, AlertPhase.attention, 8000), (.tone, .attention, 7999), (.silent, .gap, 499)
        , (.silent, .gap, 500)],
      Sole ({ alert 512 .airing .warning with phase := x.2.1, phaseCount := x.2.2, remaining := 1 })
        (onAirAt x.1 x.2.1 x.2.2 1 none (Ramp.rest 0))
      ∧ (onAirAt x.1 x.2.1 x.2.2 1 none (Ramp.rest 0)).au.player.alert = some 512
      ∧ (onAirAt x.1 x.2.1 x.2.2 1 none (Ramp.rest 0)).au.player.state = x.1)
    ∧ Sole ({ alert 512 .airing .warning with phase := .gap, phaseCount := 500, remaining := 2 })
        (onAirAt .silent .gap 500 2 none (Ramp.rest 0))
    ∧ (onAirAt .silent .gap 500 1 (some 40) (Ramp.rest 0)).au.player.clip = some 40
    ∧ (∀ n ∈ [119999, 120000], Sole { alert 512 .interval .warning with phaseCount := n }
      (alerted [{ alert 512 .interval .warning with phaseCount := n }] studio))
    ∧ (onAirAt .fading .gap 0 1 none (Ramp.rest 0)).me.alertEnvelope.atRest = true
    ∧ (onAirAt .fading .gap 0 1 (some 252) (Ramp.rest 0)).au.player.clip = some 252
    ∧ (onAirAt .fading .gap 0 1 none ⟨4096, 0, 4096, 8, 3⟩).me.alertEnvelope.atRest = false
    ∧ (∀ p ∈ [AlertPlay.tone, .silent, .message, .fading], (onAirAt p .gap 499 1 none (Ramp.rest 0)).au.player.state ≠ .idle)
    ∧ (∀ n ∈ [51, 52], ∀ k ∈ [1, 2],
      Sole { alert 512 .airing .warning with phase := .message, phaseCount := 0, remaining := k, clip := some 40 } (message40 n 48 k)
      ∧ (message40 n 48 k).au.player.clip = some 40 ∧ (message40 n 48 k).au.player.state = .message
      ∧ (message40 n 48 k).au.player.alert = some 512 ∧ (message40 n 48 k).au.player.position = n
      ∧ (clipAt (message40 n 48 k) 40).length = 100) := by
  refine ⟨by decide +kernel, by decide, rfl, by decide +kernel, ?_, ?_, rfl, ?_, by decide, rfl, by decide, by decide, ?_⟩
  · intro x _
    exact ⟨⟨List.mem_cons_self, fun y h _ => by simpa [onAirAt, alerted] using h⟩, rfl, rfl⟩
  · exact ⟨List.mem_cons_self, fun y h _ => by simpa [onAirAt, alerted] using h⟩
  · intro n _
    exact ⟨List.mem_cons_self, fun x h _ => by simpa [alerted] using h⟩
  · intro n _ k _
    exact ⟨⟨List.mem_cons_self, fun y h _ => by simpa [message40, onAirAt, alerted, setClip] using h⟩, rfl, rfl, rfl, rfl,
      by simp [message40, clipAt, setClip, onAirAt, Tab.at, Tab.put, clip40]⟩

/-- The clauses on a cut and on the wait of a TEST record: an airing that has handed no block, one that has, and an own TEST
record held back by LIVE alone. -/
theorem witness_AiringRunsThroughItsPhases_cut :
    (∀ h : Bool, let s := { onAirAt .tone .attention 0 1 none (Ramp.rest 4096) with
        au := { (onAirAt .tone .attention 0 1 none (Ramp.rest 4096)).au with
          player := { (onAirAt .tone .attention 0 1 none (Ramp.rest 4096)).au.player with handed := h } } }
      s.au.player.alert = some 512 ∧ s.au.player.handed = h ∧ s.au.player.state = .tone)
    ∧ candidate studio = none
    ∧ (let s := { alerted [{ alert 512 .pending .test with testWait := 899999 }] studio with
          cu := { studio.cu with inForce := some .live } }
      candidate s = some { alert 512 .pending .test with testWait := 899999 } ∧ s.cu.inForce = some .live
      ∧ s.au.player.state = .idle ∧ (startTick s).au.table = [{ alert 512 .pending .test with testWait := 900000 }]) := by
  decide +kernel

theorem witness_ReadAlertsAndReadLink :
    (([Instr.readAlerts, .readLink].all fun i => meets i site (fun s => s.settings.roles.site)
      && meets i studio fun s => !s.settings.roles.site && s.settings.roles.link)
    && meets .readLink plain fun s => !s.settings.roles.link) = true := by decide +kernel

/-! ## What the statements of the link and the site assume -/

theorem witness_RemoteOutputsAreSet :
    ([1, 4].all (fun o => meets (.remoteOutput o 300) studio fun s => !s.settings.roles.site && s.settings.roles.link))
    = true
    ∧ (∀ x ∈ [(2, 1), (2, 4), (2, 0), (2, 5), (3, 1)], RxControl.passes (requestOf .setRemoteOutput x.1 x.2) = true
      ∧ (requestOf .setRemoteOutput x.1 x.2).kind = 3
      ∧ parseRequest (requestOf .setRemoteOutput x.1 x.2).body = some ⟨.setRemoteOutput, 5, x.1, x.2, 300⟩)
    ∧ (hearing studio).lu.state = .joined ∧ (hearing studio).settings.roles.link = true
    ∧ (hearing plain).settings.roles.link = false := by decide +kernel

/-- A back frame with count 9, and the event and echo given. -/
def backFrame (e : Option BackEvent) (echo : Option Nat) : List Byte :=
  backBytes ⟨9, .feeding, 1000, -3, Vector.replicate 8 true, e, echo, 2, 70⟩

/-- The node's link as it stands after `n` missing frames, in state `st`. -/
def linked (st : LinkState) (last : Option Half) (history : List BackOutcome) (wait run : Nat) (s : State) : State :=
  { s with link := { s.link with
      state := st, lastSiteCount := last, history := history, backWait := wait, missingRun := run } }

theorem witness_BackFramesAndLinkState :
    studio.cp.device = .running ∧ studio.settings.roles.site = false ∧ studio.settings.roles.link = true
    ∧ studio.link.stream = .hunt ∧ (∀ b ∈ ([0, 0x5A] : List Byte), b ≠ 0xA5#8) ∧ ((0 : Byte) ++ (26 : Byte)).toNat ≠ 25
    ∧ ((backFrame none none).set 26 0).length = 27 ∧ halfAt ((backFrame none none).set 26 0) 0 = 25
    ∧ parseBack ((backFrame none none).set 26 0) = none
    ∧ (∀ x ∈ [(none, none), (none, some 512), (some ⟨1, 77, .warning⟩, none), (some ⟨2, 77, .warning⟩, none)
        , (some ⟨3, 100512, .warning⟩, none)],
      (parseBack (backFrame x.1 x.2)).any (fun f => f.count == 9 && f.event == x.1 && f.echo == x.2) = true)
    ∧ (linked .up (some 9) [] 0 0 studio).link.lastSiteCount = some 9
    ∧ studio.link.lastSiteCount ≠ some 9
    ∧ (alert 512 .pending .test).confirmed = false
    ∧ Sole (alert 512 .pending .test) (alerted [alert 512 .pending .test] studio)
    ∧ (linked .up none [] 5 0 studio).link.backWait < 6
    ∧ 6 ≤ (linked .up none (List.replicate 3 .missing) 6 14 studio).link.backWait
    ∧ (linked .up none (List.replicate 3 .missing) 6 14 studio).link.state = .up
    ∧ (linked .degraded none [] 6 15 studio).link.missingRun + 1 = 16 :=
  ⟨rfl, rfl, rfl, rfl, by decide, by decide, by decide +kernel, by decide +kernel, by decide +kernel, by decide +kernel, rfl,
    by decide, rfl, ⟨List.mem_cons_self, fun x h _ => by simpa [alerted] using h⟩, by decide, by decide, rfl, rfl⟩

/-- The clauses on SITE_STATE, SITE_STATUS and the back wait. -/
theorem witness_BackFramesAndLinkState_notices :
    studio.link.reportState = .noFeed ∧ studio.link.status ≠ Vector.replicate 8 true
    ∧ (parseBack (backFrame none none)).any (fun f => f.state == .feeding && f.levels == Vector.replicate 8 true) = true
    ∧ (linked .down none [] 0 0 studio).link.state = .down ∧ (linked .up none [] 6 0 studio).link.state ≠ .down
    ∧ (backTick (linked .up none [] 5 0 studio)).link.backWait = 2 := by decide +kernel

/-- The node's filler in state `st`, its gain given, after `n` silent blocks. -/
def fillered (st : FillerState) (g : Ramp) (n : Nat) (s : State) : State :=
  { s with link := { s.link with filler := { s.link.filler with state := st, gain := g }, fillerDelay := n } }

theorem witness_FillerFollowsSilence :
    (∀ st, (fillered st (Ramp.rest 0) 2000 studio).settings.fillerDelay ≤ (fillered st (Ramp.rest 0) 2000 studio).link.fillerDelay)
    ∧ (fillered .off (Ramp.rest 0) 1999 studio).link.fillerDelay < studio.settings.fillerDelay
    ∧ (clipAt { clipped (clip40 .ready 200 200 false) with
        settings := { studio.settings with fillerClip := some 40 } } 40).state = .ready
    ∧ (fillered .fadingIn (Ramp.rest 4096) 0 studio).link.filler.gain.atRest = true
    ∧ (fillered .fadingIn (Ramp.rest 4096) 0 studio).link.filler.gain.current = 4096
    ∧ (fillered .fadingOut (Ramp.rest 0) 0 studio).link.filler.gain.current = 0
    ∧ (fillered .fadingOut ⟨4096, 0, 4096, 16, 3⟩ 0 studio).link.filler.gain.atRest = false
    ∧ (∀ st, (fillered st (Ramp.rest 0) 1999 studio).link.filler.state = st) ∧ studio.me.silent = false
    ∧ (monitored true 0 0 0).me.silent = true := by
  refine ⟨fun st => Nat.le_refl _, by decide, by decide +kernel, by decide, rfl, rfl, by decide, fun _ => rfl, rfl, rfl⟩

/-- R166: the 2,000th silent block start takes an OFF filler to FADING_IN, and a sound takes an ON filler out again. -/
theorem test_filler_turns : (fillerTick (fillered .off (Ramp.rest 0) 1999 (monitored true 0 0 0))).link.filler.state = .fadingIn
    ∧ (fillerTick (fillered .on (Ramp.rest 4096) 2000 studio)).link.filler.state = .fadingOut
    ∧ (fillerTick (fillered .on (Ramp.rest 4096) 2000 studio)).link.fillerDelay = 0 := by decide +kernel

/-- A forward frame of count 100. -/
def forwardFrame : List Byte :=
  forwardBytes ⟨100, silence, Vector.replicate 4 7, none, none, false, false⟩

/-- The site expecting frame 100 - `d`, in state `st`, with `n` frames buffered. -/
def fedSite (st : SiteState) (d : Nat) (n : Nat) : State :=
  { site with site := { site.site with state := st, expected := 100 - BitVec.ofNat 16 d, buffer := List.replicate n (1, 1) } }

set_option maxRecDepth 100000 in
theorem test_forward_frame : (parseForward forwardFrame).any (fun f => f.count == 100) = true
    ∧ (forwardFrame.set 303 0).length = 304 ∧ halfAt (forwardFrame.set 303 0) 0 = 302
    ∧ parseForward (forwardFrame.set 303 0) = none := by decide +kernel

theorem witness_ForwardFramesAndFeedLoss :
    site.cp.device = .running ∧ site.settings.roles.site = true ∧ site.site.backCount < 3
    ∧ site.site.stream = .hunt ∧ (∀ b ∈ ([0, 0x5A] : List Byte), b ≠ 0xA5#8) ∧ ((1 : Byte) ++ (45 : Byte)).toNat ≠ 302
    ∧ (fedSite .noFeed 0 0).site.state = .noFeed ∧ 48 < site.settings.targetDepth
    ∧ 65472 ≤ ((100 : Half) - (fedSite .feeding 65472 0).site.expected).toNat
    ∧ ((100 : Half) - (fedSite .feeding 0 2000).site.expected).toNat = 0
    ∧ (fedSite .feeding 0 2000).site.buffer.length ≤ 2000
    ∧ 2000 < (fedSite .feeding 0 2001).site.buffer.length
    ∧ ((100 : Half) - (fedSite .feeding 1 1952).site.expected).toNat = 1
    ∧ (fedSite .feeding 1 1952).site.buffer.length ≤ 1952 ∧ (fedSite .feeding 1 1952).site.lastFrame.length = 48
    ∧ (∀ d ∈ [33, 65471], ((100 : Half) - (fedSite .feeding d 0).site.expected).toNat = d)
    ∧ (fedSite .locking 0 975).site.buffer.length + 48 < site.settings.targetDepth
    ∧ site.settings.targetDepth ≤ (fedSite .locking 0 976).site.buffer.length + 48
    ∧ (∀ n ∈ [254, 255], ({ fedSite .filling 0 0 with site := { (fedSite .filling 0 0).site with validRun := n } }).site.validRun
      = n)
    ∧ (∀ n ∈ [1, 2], ({ fedSite .filling 0 0 with site := { (fedSite .filling 0 0).site with gapWait := n } }).site.gapWait
      = n)
    ∧ (∀ n ∈ [0, 30, 31, 32], ({ fedSite .feeding 0 0 with site := { (fedSite .feeding 0 0).site with lossRun := n } }).site.lossRun
      = n)
    ∧ (fedSite .feeding 0 0).site.filler.state = .off ∧ (fedSite .locking 0 0).site.lockingOrigin = .noFeed := by
  decide +kernel

/-- The clause on the gap wait at a block start, in each of the site's states. -/
theorem witness_ForwardFramesAndFeedLoss_gap : ∀ st ∈ [SiteState.noFeed, .locking, .feeding, .filling], ∀ n ∈ [0, 1, 2],
    let s := fedSite st 0 0
    let t := gapTick { s with site := { s.site with gapWait := n } }
    s.site.state = st ∧ s.cp.device = .running ∧ s.settings.roles.site = true
    ∧ (st = .noFeed → t.site.gapWait = n) ∧ (n = 0 → st ≠ .noFeed → t.site.gapWait = 1) := by decide +kernel

/-- The clauses on missing frames and on the fourth frame: a displacement of 1 and of 32, a loss run that stays below 32 and
one that reaches it, LOCKING below and at the target, and a back count of 3. -/
theorem witness_ForwardFramesAndFeedLoss_missing :
    (∀ d ∈ [1, 2, 32, 33], ((100 : Half) - (fedSite .feeding d 0).site.expected).toNat = d)
    ∧ (fedSite .locking 0 975).site.state = .locking ∧ (fedSite .locking 0 975).site.lastFrame.length = 48
    ∧ (fedSite .locking 0 0).settings.targetDepth = 1024
    ∧ (∀ x ∈ [(1, 30), (32, 0), (1, 31), (32, 31)], ({ fedSite .feeding x.1 100 with
        site := { (fedSite .feeding x.1 100).site with lossRun := x.2, filler := { site.site.filler with state := .on } } }).site.lossRun
      = x.2)
    ∧ 3 ≤ ({ fedSite .feeding 0 0 with site := { (fedSite .feeding 0 0).site with backCount := 3 } }).site.backCount := by
  decide +kernel

/-- The site with its filler player in state `st`, primed with `n` frames, its gain given. -/
def siteFillered (st : FillerState) (n : Nat) (g : Ramp) : State :=
  { site with site := { site.site with filler := { site.site.filler with
      state := st, primed := true, buffer := List.replicate n (1, 1), gain := g } } }

theorem witness_SiteDrawsFeedAndFormsOutput :
    (fillerAt .link studio).state = .off
    ∧ (∀ n ∈ [47, 48], (fillerAt .site (siteFillered .on n (Ramp.rest 4096))).state ≠ .off
      ∧ (fillerAt .site (siteFillered .on n (Ramp.rest 4096))).primed = true
      ∧ (fillerAt .site (siteFillered .on n (Ramp.rest 4096))).buffer.length = n
      ∧ (fedSite .feeding 0 n).site.state = .feeding ∧ (fedSite .feeding 0 n).site.buffer.length = n)
    ∧ (siteFillered .fadingIn 48 ⟨3840, 4096, 0, 16, 15⟩).site.filler.gain.advance.atRest = true
    ∧ (siteFillered .fadingIn 48 ⟨3840, 4096, 0, 16, 15⟩).site.filler.gain.advance.current = 4096
    ∧ (siteFillered .fadingOut 48 ⟨256, 0, 4096, 16, 15⟩).site.filler.gain.advance.atRest = true
    ∧ (siteFillered .fadingOut 48 ⟨256, 0, 4096, 16, 15⟩).site.filler.gain.advance.current = 0 := by decide +kernel

/-- The clause on the output slots: one mapped to PROGRAM, one to another bus and one to none. -/
theorem witness_SiteDrawsFeedAndFormsOutput_slots : ∀ b ∈ [some Bus.program, some .cue, none],
    let s := { site with
      settings := { site.settings with outMap := site.settings.outMap.put 0 b }
      site := { site.site with playing := List.replicate 48 (4, 5) } }
    Tab.at s.settings.outMap 0 = b
    ∧ siteSlot 0 s = List.replicate 48 (if b = some .program then (4, 5) else (0, 0)) := by decide +kernel

theorem witness_SiteReportsInBackFrames :
    (fedSite .feeding 0 1792).cp.device = .running ∧ (fedSite .feeding 0 1792).settings.roles.site = true
    ∧ site.site.backCount < 4
    ∧ (∀ n ∈ [256, 255, 1791, 1792], 4 ≤ ({ fedSite .feeding 0 n with
      site := { (fedSite .feeding 0 n).site with backCount := 4, trim := 255 } }).site.backCount)
    ∧ (∀ n ∈ [2, 3], (Tab.at ({ site with site := { site.site with
        status := site.site.status.put 0 ⟨true, n, 0⟩ } }).site.status 0).run = n) := by decide +kernel

/-- R175, R178: the off-air peak takes the largest magnitude of the block; a status input is accepted on its third sample. -/
theorem test_site_samples :
    let loud := { quiet with tdm := List.replicate 8 (List.replicate 48 (3, -8388608)) }
    (offAirTick loud site).site.offAirPeak = 8388608
    ∧ (offAirTick quiet { site with site := { site.site with offAirPeak := 5 } }).site.offAirPeak = 5
    ∧ Tab.at (sampleStatus (statusLevels { quiet with ring := [false, true, false] })
      { site with site := { site.site with status := site.site.status.put 6 (nearly false) } }).site.status 6
      = ⟨true, 0, 64⟩ := by decide +kernel

/-- The site with alert records, relayed events and the player given. -/
def siteWith (l : List SiteAlert) (relay : List SiteEvent) (recent : List Word) (p : SitePlayer) : State :=
  { site with site := { site.site with alerts := l, relay := relay, recent := recent, player := p } }

/-- A site alert of key 77 and class TEST with `n` block starts of its last minute past, and a relayed event. -/
def siteAlert (n : Nat) (aired : Bool) : SiteAlert := ⟨77, .test, 1, n, 3, aired⟩
def relayed : SiteEvent := ⟨.start, 5, .test, 1⟩

theorem witness_SiteAlertsAdmittedAndRemoved :
    site.site.framer = .hunt ∧ (77 : Word) ≠ 0
    ∧ (77 : Word) ∈ (siteWith [] [] [77] SitePlayer.reset).site.recent
    ∧ (∀ n ∈ [3, 4], (siteWith [] (List.replicate n relayed) [] SitePlayer.reset).site.relay.length = n)
    ∧ siteAlertOf (siteWith [siteAlert 0 false] [] [] SitePlayer.reset) 77 = some (siteAlert 0 false)
    ∧ (siteWith [siteAlert 0 false] [] [] SitePlayer.reset).site.player.state = .idle
    ∧ (siteWith [siteAlert 0 false] [] [] { SitePlayer.reset with state := .tone, key := some 5 }).site.player.key ≠ some 77
    ∧ 4 ≤ (siteWith (List.replicate 4 { siteAlert 0 false with key := 5, cls := .emergency }) [] [] SitePlayer.reset).site.alerts.length
    ∧ AlertClass.emergency.ctorIdx < AlertClass.test.ctorIdx
    ∧ (∀ n ∈ [59999, 60000], siteAlertOf (siteWith [siteAlert n false] [] [] SitePlayer.reset) 77
      = some (siteAlert n false)) := by decide +kernel

/-- The clauses on a block start: a record's minute on both sides of its end, at durations of 1 and 2, and the framer's count
on both sides of its limit. -/
theorem witness_SiteAlertsAdmittedAndRemoved_counts :
    (∀ n ∈ [59998, 59999], ∀ d ∈ [1, 2], let r := ({ siteAlert n false with duration := d }).tick
      r.age = 4 ∧ (r.minuteCount, r.duration) = if n = 59999 ∧ d = 2 then (0, 1) else (n + 1, d))
    ∧ (∀ n ∈ [14, 15], let s := { site with site := { site.site with framer := .header (some 1), framerBlocks := n } }
      s.site.framer ≠ .hunt ∧ (siteFramerTick s).site.framer = (if n = 15 then .hunt else .header (some 1))
      ∧ (siteFramerTick s).site.errors = n - 14)
    ∧ site.site.framer = .hunt := by decide +kernel

/-- The site's alert player in state `p` after `n` block starts of its phase. -/
def sitePlayer (p : AlertPlay) (n : Nat) (c : Option (Fin 256)) (e : Ramp) : State :=
  siteWith [siteAlert 0 false] [] [] { SitePlayer.reset with
    state := p, key := some 77, phaseCount := n, clip := c, envelope := e }

/-- The site's alert player in MESSAGE, or cut from it, with clip 40 of 100 frames and 48 of them held from frame `n` on. -/
def siteMessage40 (p : AlertPlay) (n : Nat) : State :=
  let s := setClip 40 (clip40 .ready 200 200 false) (sitePlayer p 0 (some 40) ⟨4096, 0, 4096, 8, 3⟩)
  { s with site := { s.site with player := { s.site.player with
      cutFrom := .message, position := n, fetchPosition := n + 48, buffer := List.replicate 48 (1, 1), handed := true } } }

/-- R181: the block with the clip's last frame sets the record's aired flag; one frame earlier the airing goes on; a cut
that plays the clip out is done with the flag clear. -/
theorem test_site_message :
    ((produceSiteAlert (siteMessage40 .message 52)).1.site.alerts.map SiteAlert.aired = [true])
    ∧ (produceSiteAlert (siteMessage40 .message 51)).1.site.player.state = .message
    ∧ ((produceSiteAlert (siteMessage40 .fading 52)).1.site.alerts.map SiteAlert.aired = [false])
    ∧ (produceSiteAlert (siteMessage40 .fading 52)).1.site.player.state = .idle := by decide +kernel

/-- The clauses on displacement and on the removal of the record being aired: a full list whose lowest record, of key 9, is
not being aired, and an airing of the record of key 77. -/
theorem witness_SiteAlertsAdmittedAndRemoved_cut :
    (let l := [siteAlert 0 false, { siteAlert 0 false with key := 5, cls := .warning },
        { siteAlert 0 false with key := 6, age := 9 }, { siteAlert 0 false with key := 9, age := 0 }]
      let s := siteWith l [] [] { SitePlayer.reset with state := .tone, key := some 77 }
      4 ≤ s.site.alerts.length ∧ s.site.player.key = some 77 ∧ AlertClass.emergency.ctorIdx < AlertClass.test.ctorIdx
      ∧ ∀ z ∈ s.site.alerts, z.key = 77 ∨ z.key = 9 ∨ z.above { siteAlert 0 false with key := 9, age := 0 } = true)
    ∧ (∀ h : Bool, let s := siteWith [siteAlert 60000 false] [] [] { SitePlayer.reset with
        state := .tone, key := some 77, handed := h }
      siteAlertOf s 77 = some (siteAlert 60000 false) ∧ s.site.player.key = some 77 ∧ s.site.player.handed = h) := by
  decide +kernel

theorem witness_SiteAiringRunsThroughItsPhases :
    (sitePlayer .idle 0 none (Ramp.rest 0)).cp.device = .running
    ∧ (sitePlayer .idle 0 none (Ramp.rest 0)).settings.roles.site = true
    ∧ (fedSite .feeding 0 0).site.state = .feeding
    ∧ (∀ r ∈ (siteWith [siteAlert 0 true] [] [] SitePlayer.reset).site.alerts, r.aired = true)
    ∧ (sitePlayer .idle 0 none (Ramp.rest 0)).site.state ≠ .feeding
    ∧ (∃ r ∈ (sitePlayer .idle 0 none (Ramp.rest 0)).site.alerts, r.aired = false)
    ∧ (∀ n ∈ [7999, 8000], (sitePlayer .tone n none (Ramp.rest 0)).site.player.phaseCount = n)
    ∧ (sitePlayer .tone 8000 none (Ramp.rest 0)).settings.attentionLength = 8000
    ∧ (∀ n ∈ [499, 500], (sitePlayer .silent n (some 40) (Ramp.rest 0)).site.player.phaseCount = n)
    ∧ (sitePlayer .silent 500 none (Ramp.rest 0)).site.player.key = some 77
    ∧ (sitePlayer .fading 0 none (Ramp.rest 0)).site.player.envelope.atRest = true
    ∧ (sitePlayer .fading 0 none ⟨4096, 0, 4096, 8, 3⟩).site.player.envelope.atRest = false
    ∧ (sitePlayer .fading 0 none ⟨4096, 0, 4096, 8, 3⟩).site.player.cutFrom ≠ .message
    ∧ (∀ n ∈ [51, 52], ∀ p ∈ [AlertPlay.message, .fading], (siteMessage40 p n).site.player.state = p
      ∧ (siteMessage40 p n).site.player.clip = some 40 ∧ (siteMessage40 p n).site.player.position = n
      ∧ (siteMessage40 p n).site.player.key = some 77 ∧ (clipAt (siteMessage40 p n) 40).length = 100
      ∧ (∀ f ∈ (siteMessage40 p n).site.player.buffer.take 48, f.1 = f.2)) := by decide +kernel

/-! ## What the statements of the tones, the lamps and the inputs assume -/

/-- The line-up in a state, the pool voices 1 to `n` held by it and the wait list given. -/
def lineUpAt (st : LineUp) (n : Nat) (l : List Holder) (s : State) : State :=
  { s with tg := { s.tg with
      lineUp := st
      voices := Vector.ofFn fun v => if 1 ≤ v.val ∧ v.val ≤ n then { Voice.reset with holder := some .lineUp } else Voice.reset
      waitList := l } }

/-- The node whose lamp 1 shows a condition in a mode, its blink count given. -/
def lamped (c : LampCondition) (m : LampMode) (n : Nat) (s : State) : State :=
  { s with
    settings := { s.settings with lamps := s.settings.lamps.put 0 ⟨c, m⟩ }
    tg := { s.tg with lamps := s.tg.lamps.put 0 ⟨false, n⟩ } }

theorem witness_TonesAndLampsAtBlockStart :
    (Tab.at tested.tg.voices 1).holder ≠ none ∧ (Tab.at studio.tg.voices 1).holder = none
    ∧ (∀ n ∈ [127, 128, 255], Tab.at (lamped .alertHeld .steady n (alerted [alert 512 .airing .test] studio)).tg.lamps 0
        = ⟨false, n⟩)
    ∧ Tab.at (lamped .alertHeld (.blink 10) 9 studio).settings.lamps 0 = ⟨.alertHeld, .blink 10⟩
    ∧ (alerted [alert 512 .airing .test] studio).au.table ≠ [] ∧ studio.au.table = [] := by decide +kernel

/-- The clause on the lamp outputs of a site, at the levels 0, 7 and 255. -/
theorem witness_TonesAndLampsAtBlockStart_site : ∀ v ∈ [0, 7, 255],
    let s := { site with site := { site.site with levels := site.site.levels.put 0 v } }
    s.cp.device = .running ∧ s.settings.roles.site = true ∧ Tab.at s.site.levels 0 = v
    ∧ (lampOutput 0 0 s = true ↔ 0 < v * 48 / 255) ∧ (lampOutput 0 1 s = true ↔ 1 < v * 48 / 255) := by decide +kernel

/-- Status input 1 after `n` equal samples, its level and action given. -/
def pressed (n : Nat) (level : Bool) (a : InputAction) (k : Nat) (s : State) : State :=
  { s with
    settings := { s.settings with inputs := s.settings.inputs.put 0 a }
    tg := { s.tg with inputs := s.tg.inputs.put 0 ⟨level, n, 0⟩, coughs := s.tg.coughs.put 1 k } }

theorem witness_LineUpAndInputs :
    (meets (.lineUpOn 1) site (fun s => s.settings.roles.site) && meets .lineUpOff site (fun s => s.settings.roles.site)
    && meets (.lineUpOn 2) studio (fun s => !s.settings.roles.site)
    && meets (.lineUpOn 1) (lineUpAt .on 1 [] studio) (fun s => s.tg.lineUp ≠ .off)
    && meets (.lineUpOn 0) studio (fun s => s.tg.lineUp = .off ∧ s.tg.waitList = [] ∧ (Tab.at s.tg.voices 1).holder = none)
    && meets (.lineUpOn 0) (lineUpAt .off 2 [] studio) (fun s => (Tab.at s.tg.voices 3).holder = none
      ∧ ∀ u : Fin 4, 1 ≤ u.val → u < 3 → (Tab.at s.tg.voices u).holder ≠ none)
    && meets (.lineUpOn 0) (lineUpAt .off 3 [] studio) (fun s =>
      ∀ u : Fin 4, 1 ≤ u.val → (Tab.at s.tg.voices u).holder ≠ none)
    && meets (.lineUpOn 0) (lineUpAt .off 0 [.line 0] studio) (fun s => s.tg.waitList ≠ [])
    && meets .lineUpOff studio (fun s => s.tg.lineUp = .off)
    && meets .lineUpOff (lineUpAt .waiting 0 [.lineUp] studio) (fun s => s.tg.lineUp = .waiting)
    && meets .lineUpOff (lineUpAt .on 1 [] studio) (fun s => (Tab.at s.tg.voices 1).holder = some .lineUp)
    && meets .lineUpOff (lineUpAt .on 1 [.line 2] studio) (fun s => s.tg.waitList = [.line 2])) = true
    ∧ (∀ n ∈ [2, 3], (Tab.at (pressed n false .none 0 studio).tg.inputs 0).run = n)
    ∧ (∀ a ∈ [InputAction.none, .cough 1, .airToggle 1, .remoteStart], Tab.at (pressed 3 false a 0 studio).settings.inputs 0 = a)
    ∧ (∀ k ∈ [0, 1, 2], Tab.at (pressed 3 true (.cough 1) k studio).tg.coughs 1 = k)
    ∧ studio.settings.roles.desk = true ∧ plain.settings.roles.desk = false ∧ firstToPlay studio = none
    ∧ firstToPlay (cued [cueOf9 (.clip 40) .waiting .manual] studio) = some (cueOf9 (.clip 40) .waiting .manual)
    ∧ playerOf (cued [cueOf9 (.clip 40) .waiting .manual] studio) 9 = none := by decide +kernel

end Sys2Proof.Tests
end

section
/-! SUPPORT. Ramped gains (R42): the line that a ramp's gains follow, and the settling of O23. -/

namespace Sys2Proof.Machine

/-! ## The line of a ramp -/

section
variable {r : Ramp} {k m n : Nat}

/-- The gain of a ramp after `m` of its samples, counted over all its blocks: C0 at 0, the target at 48n. -/
def Ramp.line (r : Ramp) (m : Nat) : Int :=
  (r.start : Int) + (((r.target : Int) - r.start) * (m : Int)) / ((48 * r.length : Nat) : Int)

@[simp] theorem Ramp.line_zero (r : Ramp) : r.line 0 = r.start := by
  simp [Ramp.line]

theorem Ramp.line_end (hr : 0 < r.length) : r.line (48 * r.length) = r.target := by
  have hne : ((48 * r.length : Nat) : Int) ≠ 0 := by omega
  rw [Ramp.line, Int.mul_ediv_cancel _ hne]
  omega

theorem Ramp.line_le (hr : 0 < r.length)
    (h : ((r.target : Int) - r.start) * m ≤ ((r.target : Int) - r.start) * n) : r.line m ≤ r.line n :=
  add_le_add_right (Int.ediv_le_ediv (by omega) h) _

theorem Ramp.line_mono (hr : 0 < r.length) (hup : r.start ≤ r.target) (hm : m ≤ n) : r.line m ≤ r.line n :=
  Ramp.line_le hr (mul_le_mul_of_nonneg_left (by omega) (by omega))

theorem Ramp.line_anti (hr : 0 < r.length) (hdown : r.target ≤ r.start) (hm : m ≤ n) : r.line n ≤ r.line m :=
  Ramp.line_le hr (mul_le_mul_of_nonpos_left (by omega) (by omega))

/-- The line runs from C0 to the target and turns nowhere, so its values lie between them. -/
theorem Ramp.line_between (hr : 0 < r.length) (hm : m ≤ 48 * r.length) :
    min (r.start : Int) r.target ≤ r.line m ∧ r.line m ≤ max (r.start : Int) r.target := by
  have h0 := r.line_zero
  have hT := Ramp.line_end hr
  rcases Nat.le_total r.start r.target with hup | hdown
  · have hlow := Ramp.line_mono hr hup (Nat.zero_le m)
    have hhigh := Ramp.line_mono hr hup hm
    omega
  · have hhigh := Ramp.line_anti hr hdown (Nat.zero_le m)
    have hlow := Ramp.line_anti hr hdown hm
    omega

/-! ## Gains at rest and ramping -/

theorem Ramp.gain_of_rest (h : r.length ≤ r.position) : r.gain k = r.current := by
  simp [Ramp.gain, Ramp.atRest, h]

theorem Ramp.advance_of_rest (h : r.length ≤ r.position) : r.advance = r := by
  simp [Ramp.advance, Ramp.atRest, h]

theorem Ramp.gain_of_ramping (h : r.position < r.length) : r.gain k = r.line (48 * r.position + k + 1) := by
  simp [Ramp.gain, Ramp.line, Ramp.atRest, h]

theorem Ramp.advance_of_ramping (h : r.position < r.length) :
    r.advance = { r with current := (r.gain 47).toNat, position := r.position + 1 } := by
  simp [Ramp.advance, Ramp.atRest, h]

theorem Ramp.gain_between (h : r.position < r.length) (hk : k < 48) :
    min (r.start : Int) r.target ≤ r.gain k ∧ r.gain k ≤ max (r.start : Int) r.target := by
  rw [Ramp.gain_of_ramping h]
  exact Ramp.line_between (by omega) (by omega)

/-- The gains of a ramp are never negative, so the current value keeps the last of them whole. -/
theorem Ramp.advance_current (h : r.position < r.length) : (r.advance.current : Int) = r.gain 47 := by
  have hpos : 0 ≤ r.gain 47 := by
    obtain ⟨hlow, -⟩ := Ramp.gain_between h (k := 47) (by decide)
    omega
  rw [Ramp.advance_of_ramping h]
  exact Int.toNat_of_nonneg hpos

theorem Ramp.gain_mono (h : r.position < r.length) (hup : r.start ≤ r.target) : r.gain k ≤ r.gain (k + 1) := by
  rw [Ramp.gain_of_ramping h, Ramp.gain_of_ramping h]
  exact Ramp.line_mono (by omega) hup (by omega)

theorem Ramp.gain_anti (h : r.position < r.length) (hdown : r.target ≤ r.start) : r.gain (k + 1) ≤ r.gain k := by
  rw [Ramp.gain_of_ramping h, Ramp.gain_of_ramping h]
  exact Ramp.line_anti (by omega) hdown (by omega)

/-- The next block goes on along the same line, one sample after the last. -/
theorem Ramp.gain_advance_of_ramping (h : r.position + 1 < r.length) :
    r.advance.gain k = r.line (48 * r.position + 48 + k + 1) := by
  rw [Ramp.advance_of_ramping (by omega), Ramp.gain_of_ramping h]
  exact congrArg r.line (by dsimp only; omega)

theorem Ramp.gain_mono_advance (h : r.position + 1 < r.length) (hup : r.start ≤ r.target) :
    r.gain 47 ≤ r.advance.gain 0 := by
  rw [Ramp.gain_of_ramping (by omega), Ramp.gain_advance_of_ramping h]
  exact Ramp.line_mono (by omega) hup (by omega)

theorem Ramp.gain_anti_advance (h : r.position + 1 < r.length) (hdown : r.target ≤ r.start) :
    r.advance.gain 0 ≤ r.gain 47 := by
  rw [Ramp.gain_advance_of_ramping h, Ramp.gain_of_ramping (by omega)]
  exact Ramp.line_anti (by omega) hdown (by omega)

theorem Ramp.gain_last (h : r.position + 1 = r.length) : r.gain 47 = r.target := by
  have hsamples : 48 * r.position + 47 + 1 = 48 * r.length := by omega
  rw [Ramp.gain_of_ramping (by omega), hsamples, Ramp.line_end (by omega)]

theorem Ramp.advance_current_last (h : r.position + 1 = r.length) : r.advance.current = r.target := by
  have hcurrent := Ramp.advance_current (r := r) (by omega)
  rw [Ramp.gain_last h] at hcurrent
  exact_mod_cast hcurrent

theorem Ramp.advance_atRest_last (h : r.position + 1 = r.length) : r.advance.atRest = true := by
  rw [Ramp.advance_of_ramping (by omega)]
  exact decide_eq_true (Nat.le_of_eq h.symm)

end

/-! ## The ramped gains of the Mix Engine at reset -/

@[simp] theorem reset_desk_gain (d : Fin 2) : (Tab.at State.reset.me.desk d).gain = Ramp.rest 4096 :=
  congrArg DeskSource.gain (Tab.at_replicate _ d)

@[simp] theorem reset_caller_gain (l : Fin 3) : (Tab.at State.reset.me.caller l).gain = Ramp.rest 4096 :=
  congrArg CallerSource.gain (Tab.at_replicate _ l)

@[simp] theorem reset_playerGain (p : Fin 2) : Tab.at State.reset.me.playerGain p = Ramp.rest 4096 :=
  Tab.at_replicate _ p

@[simp] theorem reset_playerEnvelope (p : Fin 2) : Tab.at State.reset.me.playerEnvelope p = Ramp.rest 0 :=
  Tab.at_replicate _ p

@[simp] theorem reset_trim (b : Fin 6) : Tab.at State.reset.me.trims b = Ramp.rest 4096 :=
  Tab.at_replicate _ b

/-- Settles O23, through the line that the gains of a ramp follow over all its blocks. -/
theorem rampedGainIsLinearToTarget : Obligations.RampedGainIsLinearToTarget := by
  refine ⟨fun r k h => ⟨Ramp.gain_of_rest h, Ramp.advance_of_rest h⟩, ?ramping,
    fun r h => ⟨Ramp.gain_last h, Ramp.advance_current_last h, Ramp.advance_atRest_last h⟩,
    fun r h => ⟨Ramp.gain_mono_advance h, Ramp.gain_anti_advance h⟩,
    reset_desk_gain, reset_caller_gain, fun p => ⟨reset_playerGain p, reset_playerEnvelope p⟩, rfl, reset_trim,
    fun v => ⟨rfl, rfl⟩⟩
  case ramping =>
    intro r k h hk
    obtain ⟨hlow, hhigh⟩ := Ramp.gain_between h hk
    refine ⟨Ramp.gain_of_ramping h, hlow, hhigh, fun _ => Ramp.gain_mono h, fun _ => Ramp.gain_anti h,
      Ramp.advance_current h, ?_⟩
    rw [Ramp.advance_of_ramping h]
    exact ⟨rfl, rfl, rfl, rfl⟩

end Sys2Proof.Machine
end

section
/-! SUPPORT. SET CLIP (R67): what a command's clip number does, what SET CLIP answers and takes, and the settling of O32. -/

namespace Sys2Proof.Machine

/-! ## The clip number of a command (R65) -/

section
variable {w : Word} {c : Fin 256} (s : State) (act : Fin 256 → State × Reply)

theorem isProtected_iff : isProtected c = true ↔ 252 ≤ c.val := decide_eq_true_iff

theorem openClip_above (h : 255 < w.toNat) : openClip w s act = refuse .badParam s := by
  simp only [openClip, index?_eq_none.2 h]

theorem openClip_number (h : w.toNat = c.val) :
    openClip w s act = if isProtected c then refuse .inUse s else act c := by
  simp only [openClip, index?_eq_some.2 h.symm]

theorem openClip_protected (h : w.toNat = c.val) (hc : 252 ≤ c.val) : openClip w s act = refuse .inUse s := by
  rw [openClip_number s act h, if_pos (isProtected_iff.2 hc)]

theorem openClip_unprotected (h : w.toNat = c.val) (hc : c.val < 252) : openClip w s act = act c := by
  rw [openClip_number s act h, if_neg (fun hp => Nat.not_le.2 hc (isProtected_iff.1 hp))]

end

/-! ## SET CLIP (R67) -/

section
variable {clip : Word} {c : Fin 256} (trim segue : Word) {s : State}

/-- A descriptor with the trim and the segue point of SET CLIP, each clamped. -/
def Clip.clamped (d : Clip) (trim segue : Word) : Clip :=
  { d with trim := min 8192 trim.toNat, segue := min d.length segue.toNat }

theorem setClipValues_above (h : 255 < clip.toNat) : setClipValues clip trim segue s = refuse .badParam s :=
  openClip_above s _ h

theorem setClipValues_protected (h : clip.toNat = c.val) (hc : 252 ≤ c.val) :
    setClipValues clip trim segue s = refuse .inUse s :=
  openClip_protected s _ h hc

theorem setClipValues_empty (h : clip.toNat = c.val) (hc : c.val < 252) (he : (clipAt s c).state = .empty) :
    setClipValues clip trim segue s = refuse .wrongState s := by
  rw [setClipValues, openClip_unprotected s _ h hc]
  exact if_pos he

theorem setClipValues_taken (h : clip.toNat = c.val) (hc : c.val < 252) (he : (clipAt s c).state ≠ .empty) :
    setClipValues clip trim segue s = (setClip c ((clipAt s c).clamped trim segue) s,
      .okWith [word (min 8192 trim.toNat), word (min (clipAt s c).length segue.toNat)]) := by
  rw [setClipValues, openClip_unprotected s _ h hc]
  exact if_neg he

/-- SET CLIP acted on by a part that has taken an image is the Clip Store's act, answered. -/
theorem exec_setClip_of_running {m : CommandMessage} (h : Running s (.setClip clip trim segue) m) :
    exec (.setClip clip trim segue) s = .next (answer m (setClipValues clip trim segue s).2.code
      (setClipValues clip trim segue s).2.data (setClipValues clip trim segue s).1) :=
  hostRow_running h _

end

/-- Settles O32, by the clip number and then the clip's state. -/
theorem setClipTakesTrimAndSegue : Obligations.SetClipTakesTrimAndSegue := by
  intro clip trim segue m s hrun
  have hexec := exec_setClip_of_running trim segue hrun
  refine ⟨fun habove => ?badParam, fun c hclip => ⟨fun hprot => ?inUse, fun hopen hempty => ?wrongState,
    fun hopen hdefined => ?taken⟩⟩
  case badParam =>
    rw [hexec, setClipValues_above trim segue habove]
    rfl
  case inUse =>
    rw [hexec, setClipValues_protected trim segue hclip hprot]
    rfl
  case wrongState =>
    rw [hexec, setClipValues_empty trim segue hclip hopen hempty]
    rfl
  case taken =>
    have hstate : (clipAt s c).state ≠ .empty := by
      rcases hdefined with hfilling | hready
      · simp [hfilling]
      · simp [hready]
    rw [hexec, setClipValues_taken trim segue hclip hopen hstate]
    rfl

end Sys2Proof.Machine
end

section
/-! SUPPORT. The machine as a whole (R199, R203, R205): what one command or event keeps, said once for every row, and the
settling of O1 to O5. -/

namespace Sys2Proof.Machine

/-! ## Block starts -/

/-- A block start keeps the frame once the block count has advanced (R3). -/
theorem blockStart_steady (input : BlockInput) (s : State) : Steady (openBlock s) (blockStart input s) := by
  have hopened : Steady (openBlock s) (if joined s then takeOwed (openBlock s) else openBlock s) :=
    ite_steady (takeOwed_steady (.refl _)) (.refl _)
  have hpanel := panelStart_steady input (decisionStart_steady s.clock.blockCount (lineStart_steady hopened))
  exact updateLamps_steady (announceTick_steady _ (busStart_steady _ (sourceStart_steady _ _ _
    (playoutStart_steady (alertStart_steady input _ hpanel)))))

/-- A site block start keeps the frame once the block count has advanced (R14). -/
theorem siteBlockStart_steady (input : BlockInput) {s : State} (h : atSite s = true) :
    Steady (openSiteBlock s) (siteBlockStart input s) := by
  rw [siteBlockStart, if_pos h]
  exact siteTick_steady input (.refl _)

/-! ## The image in force -/

/-- The image in force and the values taken from it stand as they did (R199). -/
structure ImageKept (s t : State) : Prop where
  device : t.cp.device = s.cp.device
  held : t.cp.resetHeld = s.cp.resetHeld
  boot : t.cp.boot = s.cp.boot
  settings : t.settings = s.settings
  routing : t.cp.routing = s.cp.routing

theorem ImageKept.refl (s : State) : ImageKept s s := ⟨rfl, rfl, rfl, rfl, rfl⟩

theorem ImageKept.trans {a b c : State} (h : ImageKept a b) (k : ImageKept b c) : ImageKept a c :=
  ⟨k.device.trans h.device, k.held.trans h.held, k.boot.trans h.boot, k.settings.trans h.settings,
    k.routing.trans h.routing⟩

theorem Steady.imageKept {s t : State} (h : Steady s t) : ImageKept s t := by
  have hcp := h.posted.same
  exact ⟨by rw [hcp], by rw [hcp], by rw [hcp], h.settings, by rw [hcp]⟩

/-- A host command keeps the image where its unit's act does. -/
theorem imageKept_host (i : Instr) {act : State → State × Reply} {s : State} (h : ImageKept s (act s).1) :
    ImageKept s (hostCommand i act s) := by
  unfold hostCommand
  split
  · exact .refl s
  · split
    · exact ⟨rfl, rfl, rfl, rfl, rfl⟩
    · exact h.trans ⟨rfl, rfl, rfl, rfl, rfl⟩

theorem imageKept_rejoin (s : State) : ImageKept s (rejoinCommand s).1 := by
  unfold rejoinCommand
  split
  · exact .refl s
  · exact ImageKept.trans (b := lineRejoins s) ⟨rfl, rfl, rfl, rfl, rfl⟩ (Steady.imageKept
      (seatRejoins_steady (alertRejoins_steady (callerRejoins_steady (rejoinTable_steady (.refl _))))))

theorem imageKept_notice (s : State) : ImageKept s (readNoticeCommand s).1 := by
  unfold readNoticeCommand
  split <;> exact ⟨rfl, rfl, rfl, rfl, rfl⟩

theorem imageKept_write (bytes : List Byte) (s : State) : ImageKept s (writeComplete bytes s) := by
  unfold writeComplete takeWrite
  split
  · exact .refl s
  · cases s.cp.port with
    | idle => cases decodeMessage bytes <;> exact ⟨rfl, rfl, rfl, rfl, rfl⟩
    | acting => exact ⟨rfl, rfl, rfl, rfl, rfl⟩
    | ready => exact ⟨rfl, rfl, rfl, rfl, rfl⟩

theorem imageKept_read (s : State) : ImageKept s (readComplete s) := by
  unfold readComplete
  cases s.cp.port <;> exact ⟨rfl, rfl, rfl, rfl, rfl⟩

theorem imageKept_blockStart (input : BlockInput) (s : State) : ImageKept s (blockStart input s) :=
  ImageKept.trans (b := openBlock s) ⟨rfl, rfl, rfl, rfl, rfl⟩ (blockStart_steady input s).imageKept

/-! ## Marks -/

/-- The state in which a recognised mark begin, with `t` bit times on the timer, gives its block start (R2, R3, R15). -/
def markTaken (t : Nat) (input : BlockInput) (s : State) : State :=
  { countMark (s.clock.sinceMark.map (· + t)) (cutOff input.sinceCrc s) with
    clock := { (countMark (s.clock.sinceMark.map (· + t)) (cutOff input.sinceCrc s)).clock with
      timer := 0, sinceMark := some 0, expiryOpen := false } }

theorem recogniseMark_eq (t : Nat) (input : BlockInput) (s : State) : recogniseMark t input s =
    if s.clock.expiryOpen && decide (t ≤ 64) then joinByMarks (markTaken t input s)
    else blockStart input (markTaken t input s) := rfl

/-- Counting a mark and cutting off what it interrupts keep the frame. -/
theorem markCounted_steady (t : Nat) (input : BlockInput) (s : State) :
    Steady s (countMark (s.clock.sinceMark.map (· + t)) (cutOff input.sinceCrc s)) :=
  countMark_steady _ (cutOff_steady _ (.refl s))

theorem imageKept_mark (t : Nat) (input : BlockInput) (s : State) : ImageKept s (recogniseMark t input s) := by
  have hcounted := (markCounted_steady t input s).imageKept
  have htaken : ImageKept s (markTaken t input s) :=
    ⟨hcounted.device, hcounted.held, hcounted.boot, hcounted.settings, hcounted.routing⟩
  rw [recogniseMark_eq]
  split
  · exact htaken.trans (joinByMarks_steady (.refl _)).imageKept
  · exact htaken.trans (imageKept_blockStart _ _)

/-! ## What every row keeps -/

/-- What a command or event other than power-on and the RESET pin keeps: the queue, the port's legal states and the form of
the DRAM contents (`Kept`), the legal states of reset and start-up, and from a RUNNING part the image in force. -/
structure Taken (s t : State) : Prop where
  kept : Kept s t
  boot : BootOk s.cp → BootOk t.cp
  image : s.cp.device = .running → s.cp.resetHeld = false → s.cp.boot ≠ .reading → ImageKept s t

theorem Steady.taken {s t : State} (h : Steady s t) : Taken s t :=
  ⟨.of h, h.posted.boot, fun _ _ _ => h.imageKept⟩

theorem Taken.refl (s : State) : Taken s s := (Steady.refl s).taken

theorem Taken.trans {a b c : State} (h : Taken a b) (k : Taken b c) : Taken a c :=
  ⟨h.kept.trans k.kept, k.boot ∘ h.boot, fun hd hh hb => by
    have hab := h.image hd hh hb
    exact hab.trans (k.image (hab.device.trans hd) (hab.held.trans hh) (hab.boot ▸ hb))⟩

/-- A change of the clock, the line counts or what marks the line alone is no part of what `Taken` speaks of. -/
theorem Taken.of_same {s t : State} (hq : t.pending = s.pending) (hc : t.cp = s.cp) (hd : t.dram = s.dram)
    (hs : t.settings = s.settings) : Taken s t :=
  ⟨⟨hq, hc ▸ id, hd ▸ id⟩, hc ▸ id, fun _ _ _ => ⟨by rw [hc], by rw [hc], by rw [hc], hs, by rw [hc]⟩⟩

/-- A host command, from what its unit's act keeps. -/
theorem Taken.host (i : Instr) {act : State → State × Reply} {s : State} (hk : Kept s (act s).1)
    (hb : BootKept s (act s).1) (hi : s.cp.device = .running → s.cp.resetHeld = false → s.cp.boot ≠ .reading →
      ImageKept s (act s).1) : Taken s (hostCommand i act s) :=
  ⟨kept_host i act s hk, boot_host i act s hb, fun hd hr hn => imageKept_host i (hi hd hr hn)⟩

/-- A host command whose unit keeps the frame. -/
theorem Steady.takenHost (i : Instr) {act : State → State × Reply} {s : State} (h : Steady s (act s).1) :
    Taken s (hostCommand i act s) :=
  .host i (.of h) h.bootKept fun _ _ _ => h.imageKept

/-- A row where a condition stands, from what its unit's work keeps. -/
theorem Steady.takenWhere {c : Prop} [Decidable c] {s t : State} (h : Steady s t) : Taken s (if c then t else s) :=
  (ite_steady h (.refl s)).taken

/-- What keeps the image and the port's state keeps the legal states of reset and start-up. -/
theorem ImageKept.bootOk {s t : State} (h : ImageKept s t) (hp : t.cp.port = s.cp.port) : BootOk s.cp → BootOk t.cp :=
  fun x => ⟨fun k => by
    obtain ⟨hd, hport, hboot⟩ := x.held (h.held ▸ k)
    exact ⟨h.device.trans hd, hp.trans hport, h.boot ▸ hboot⟩, fun k => h.boot ▸ x.running (h.device ▸ k)⟩

theorem Steady.port {s t : State} (h : Steady s t) : t.cp.port = s.cp.port := by rw [h.posted.same]

theorem port_blockStart (input : BlockInput) (s : State) : (blockStart input s).cp.port = s.cp.port :=
  (blockStart_steady input s).port

theorem taken_blockStart (input : BlockInput) (s : State) : Taken s (blockStart input s) :=
  ⟨kept_blockStart input s, (imageKept_blockStart input s).bootOk (port_blockStart input s),
    fun _ _ _ => imageKept_blockStart input s⟩

theorem port_mark (t : Nat) (input : BlockInput) (s : State) : (recogniseMark t input s).cp.port = s.cp.port := by
  rw [recogniseMark_eq]
  split
  · exact (Steady.port (joinByMarks_steady (.refl _))).trans (markCounted_steady t input s).port
  · exact (port_blockStart _ _).trans (markCounted_steady t input s).port

theorem taken_mark (t : Nat) (input : BlockInput) (s : State) : Taken s (recogniseMark t input s) :=
  ⟨kept_mark t input s, (imageKept_mark t input s).bootOk (port_mark t input s), fun _ _ _ => imageKept_mark t input s⟩

theorem taken_markBegins (elapsed : Nat) (input : BlockInput) (s : State) : Taken s (markBegins elapsed input s) := by
  unfold markBegins
  split
  · exact taken_mark _ input s
  · exact .refl s

theorem taken_expiryStart (input : BlockInput) (s : State) : Taken s (expiryStart input s) := by
  unfold expiryStart
  split
  · refine Taken.trans ?_ (taken_blockStart input _)
    exact .of_same rfl rfl rfl rfl
  · exact .refl s

theorem taken_sendsMark (input : BlockInput) (s : State) : Taken s (sendsMark input s) := by
  unfold sendsMark
  split
  · refine Taken.trans ?_ (taken_mark _ input _)
    exact .of_same rfl rfl rfl rfl
  · exact .refl s

theorem taken_markMissed (s : State) : Taken s (markMissed s) := by
  have hclock (x : Clock) (u : LineUnit) : Taken s { s with clock := x, lu := u } :=
    .of_same rfl rfl rfl rfl
  unfold markMissed
  split
  · dsimp only
    split
    · exact (hclock _ _).trans (Steady.taken (joinAlone_steady (.refl _)))
    · exact hclock _ s.lu
  · exact .refl s

theorem taken_siteBlockStart (input : BlockInput) (s : State) : Taken s (siteBlockStart input s) := by
  by_cases h : atSite s = true
  · refine Taken.trans ?_ (siteBlockStart_steady input h).taken
    exact .of_same rfl rfl rfl rfl
  · rw [siteBlockStart, if_neg h]
    exact .refl s

/-- The end of a flash read changes nothing where none is under way (R203). -/
theorem endFlashRead_idle {flash : Option (List Byte)} {s : State} (h : s.cp.boot ≠ .reading) :
    endFlashRead flash s = s := if_pos h

theorem taken_flash (flash : Option (List Byte)) (s : State) : Taken s (endFlashRead flash s) :=
  ⟨kept_flash flash s, boot_flash flash s, fun _ _ hn => by rw [endFlashRead_idle hn]; exact .refl s⟩

/-- The release of RESET changes nothing at a part out of reset (R203). -/
theorem releaseReset_free {boot : Bool} {s : State} (h : s.cp.resetHeld = false) : releaseReset boot s = s :=
  if_neg (by simp [h])

theorem kept_release (boot : Bool) (s : State) : Kept s (releaseReset boot s) := by
  unfold releaseReset
  split
  · exact ⟨rfl, fun h => ⟨h.queue, h.dropped, h.ints, h.rdy, h.response, h.slot, h.busy⟩, id⟩
  · exact ⟨rfl, id, id⟩

theorem taken_release (boot : Bool) (s : State) : Taken s (releaseReset boot s) :=
  ⟨kept_release boot s, boot_release boot s, fun _ hr _ => by rw [releaseReset_free hr]; exact .refl s⟩

/-- CONFIGURE is refused by a RUNNING part (R199). -/
theorem configureCommand_running {img : List Byte} {s : State} (h : s.cp.device = .running) :
    configureCommand img s = refuse .wrongState s := if_pos h

theorem kept_status (s : State) : Kept s (readStatusCommand s).1 :=
  ⟨rfl, fun h => ⟨h.queue, Nat.zero_le _, h.ints, h.rdy, h.response, h.slot, h.busy⟩, id⟩

/-- Every command and event but power-on and the assertion of RESET is taken, and keeps what `Taken` says. -/
theorem exec_taken (i : Instr) (s : State) (hp : i ≠ .powerOn) (hr : i ≠ .resetAsserted) :
    ∃ t, exec i s = .next t ∧ Taken s t := by
  have hs : Steady s s := .refl s
  cases i
  case powerOn => exact absurd rfl hp
  case resetAsserted => exact absurd rfl hr
  case resetReleased boot => exact ⟨_, rfl, taken_release boot s⟩
  case flashReadComplete flash => exact ⟨_, rfl, taken_flash flash s⟩
  case commandWriteComplete bytes =>
    exact ⟨_, rfl, kept_write bytes s, boot_write bytes s, fun _ _ _ => imageKept_write bytes s⟩
  case responseReadComplete => exact ⟨_, rfl, kept_read s, boot_read s, fun _ _ _ => imageKept_read s⟩
  case rejoin =>
    exact ⟨_, rfl, .host _ (kept_rejoin s) (boot_rejoin s) fun _ _ _ => imageKept_rejoin s⟩
  case configure img =>
    exact ⟨_, rfl, .host _ (kept_configure img s) (boot_configure img s) fun hd _ _ => by
      rw [configureCommand_running hd]
      exact .refl s⟩
  case readStatus =>
    exact ⟨_, rfl, .host _ (kept_status s) (.same rfl rfl rfl) fun _ _ _ => ⟨rfl, rfl, rfl, rfl, rfl⟩⟩
  case readNotice =>
    exact ⟨_, rfl, .host _ (kept_notice s) (boot_notice s) fun _ _ _ => imageKept_notice s⟩
  case markBegin elapsed input => exact ⟨_, rfl, taken_markBegins elapsed input s⟩
  case localExpiry input => exact ⟨_, rfl, taken_expiryStart input s⟩
  case sendMark input => exact ⟨_, rfl, taken_sendsMark input s⟩
  case noMarkAfterExpiry => exact ⟨_, rfl, taken_markMissed s⟩
  case siteBlockStart input => exact ⟨_, rfl, taken_siteBlockStart input s⟩
  case readCounters | readChannels | readTiers | setGain | setChannel | setTrim | readMeters | defineClip | clipData |
      sealClip | deleteClip | setClip | setGroup | clearGroup | readClip | readGroup | readExtents | cueInsert | cueRemove |
      cueMove | cueGain | play | stop | seatReset | readCue | readPlayer | readSeat | answerLine | screenLine | holdLine |
      readyLine | takeNext | takeCaller | dropCaller | hangUpCaller | readLines | readAirQueue | readRequests |
      remoteOutput | alertIssue | alertCancel | readAlerts | readLink | lineUpOn | lineUpOff | readPanel =>
    exact ⟨_, rfl, Steady.takenHost _ (by simp [hs])⟩
  case fetchGrant => exact ⟨_, rfl, (deliverAny_steady _ (grantFetch_steady hs)).taken⟩
  case fetchComplete => exact ⟨_, rfl, (deliverAny_steady _ (finishFetch_steady hs)).taken⟩
  case alertStart => exact ⟨_, rfl, (withHold_steady _ _ (fun _ => startAlert_steady) hs).taken⟩
  case feedValidRun bytes levels =>
    refine ⟨_, rfl, Steady.takenWhere ?_⟩
    unfold relockWith
    split <;> simp [hs]
  case callRinging | callAbandoned | lineChecked | lineDeadTimeout | callerGone | clearingComplete | lineInputAccepted |
      backFrameReceived | backFrameMissing | fillerOn | fillerFadeInDone | fillerOff | forwardFrameReceived |
      missingEvent | feedLossLimit | backFrameSend | siteStatusAccepted | siteAlertExpiry | siteAlertAiring |
      siteAttentionEnd | siteGapEnd | siteAlertCutDone | inputChange =>
    exact ⟨_, rfl, Steady.takenWhere (by simp [hs])⟩
  all_goals exact ⟨_, rfl, Steady.taken (by simp [hs])⟩

/-! ## The statements about every step -/

theorem portOk_reset : PortOk ControlPort.reset :=
  ⟨Nat.zero_le _, Nat.zero_le _, by decide +kernel, by decide, by decide, by decide, by decide⟩

theorem kept_putReset (s : State) : Kept s (putReset s) :=
  ⟨rfl, fun _ => portOk_reset, fun _ => rfl⟩

/-- Every command and event is taken, and keeps the queue, the port's legal states, those of reset and start-up, and the
form of the DRAM contents. -/
theorem exec_keeps (i : Instr) (s : State) : ∃ t, exec i s = .next t ∧ Kept s t ∧ (BootOk s.cp → BootOk t.cp) := by
  by_cases hp : i = .powerOn
  · exact ⟨putReset s, by rw [hp]; rfl, kept_putReset s, fun _ => boot_putReset s⟩
  by_cases hr : i = .resetAsserted
  · exact ⟨putReset s, by rw [hr]; rfl, kept_putReset s, fun _ => boot_putReset s⟩
  obtain ⟨t, ht, htaken⟩ := exec_taken i s hp hr
  exact ⟨t, ht, htaken.kept, htaken.boot⟩

/-- Settles O2: every row of the table answers a next state with the queue as it was. -/
theorem everyCommandIsTaken : Obligations.EveryCommandIsTaken := by
  intro i s
  obtain ⟨t, ht, hkept, -⟩ := exec_keeps i s
  exact ⟨t, ht, hkept.queue⟩

/-- Settles O1: a step is `exec` of the command in front, by the shape of the queue. -/
theorem stepTakesFrontCommand : Obligations.StepTakesFrontCommand :=
  fun s _ _ => ⟨fun h => by rw [step, h], fun h => by rw [step, h]⟩

/-- Settles O3: a step is idle or takes the command in front, and every command keeps the invariants. -/
theorem everyStepKeepsPortAndDram : Obligations.EveryStepKeepsPortAndDram := by
  intro s t hstep
  cases hq : s.pending with
  | nil =>
    obtain rfl : s = t := Host.Outcome.next.inj ((by rw [step, hq] : step s = .next s).symm.trans hstep)
    exact ⟨id, id, id⟩
  | cons i rest =>
    have hexec : step s = exec i (s.withQueue rest) := by rw [step, hq]
    obtain ⟨u, hu, hkept, hboot⟩ := exec_keeps i (s.withQueue rest)
    obtain rfl : u = t := Host.Outcome.next.inj (hu.symm.trans (hexec.symm.trans hstep))
    exact ⟨hkept.port, hboot, hkept.dram⟩

/-- Settles O4: from a RUNNING part every other row keeps the image in force. -/
theorem imageStaysInForce : Obligations.ImageStaysInForce := by
  intro i s t hp hr hd hh hb hexec
  obtain ⟨u, hu, htaken⟩ := exec_taken i s hp hr
  obtain rfl : u = t := Host.Outcome.next.inj (hu.symm.trans hexec)
  have himage := htaken.image hd hh hb
  exact ⟨himage.device.trans hd, himage.held.trans hh, himage.boot ▸ hb, himage.settings, himage.routing⟩

/-- Settles O5, by evaluating the reset values. -/
theorem resetMeetsInvariants : Obligations.ResetMeetsInvariants :=
  ⟨portOk_reset, boot_putReset State.reset, reset_dram_wf, rfl, rfl⟩

end Sys2Proof.Machine
end

section
/-! SUPPORT. The Control Port (R192, R193, R195 to R199, R203, R205, R210): messages read back from what spells them, writes,
reads and notices, power-on and reset, and the settling of O6 to O10. -/

namespace Sys2Proof.Machine

/-! ## Messages (R210) -/

/-- A number that fits a word is read back from it. -/
theorem word_toNat {n : Nat} (h : n < 4294967296) : (word n).toNat = n := by
  rw [word, BitVec.toNat_ofNat]
  exact Nat.mod_eq_of_lt h

theorem be32_length (w : Word) : (be32 w).length = 4 := rfl

theorem length_flatMap_be32 (ws : List Word) : (ws.flatMap be32).length = 4 * ws.length := by
  induction ws with
  | nil => rfl
  | cons w ws ih => rw [List.flatMap_cons, List.length_append, ih, be32_length, List.length_cons]; omega

/-- Byte `i` of a message past its first bytes is one of the rest's. -/
theorem byteAt_append (a b : List Byte) (i : Nat) : byteAt (a ++ b) (a.length + i) = byteAt b i := by
  rw [byteAt, byteAt, List.getD_append_right _ _ _ _ (by omega), Nat.add_sub_cancel_left]

theorem halfAt_append (a b : List Byte) (i : Nat) : halfAt (a ++ b) (a.length + i) = halfAt b i := by
  rw [halfAt, halfAt, byteAt_append, Nat.add_assoc, byteAt_append]

theorem wordAt_append (a b : List Byte) (i : Nat) : wordAt (a ++ b) (a.length + i) = wordAt b i := by
  rw [wordAt, wordAt, halfAt_append, Nat.add_assoc, halfAt_append]

/-- The words of a command of fixed words or of a list are read back as the command. -/
theorem decodeWords_paramWords {i : Instr} {ty : Nat} (ht : commandType i = some ty) (h10 : ty ≠ 10) (h48 : ty ≠ 48)
    (hfit : (paramWords i).length < 4294967296) : decodeWords ty (paramWords i) = some i := by
  cases i
  case clipData => exact absurd (Option.some.inj ht).symm h10
  case configure => exact absurd (Option.some.inj ht).symm h48
  case defineClip a b c l =>
    obtain rfl : 9 = ty := Option.some.inj ht
    have hl : l.length < 4294967296 := by simp [paramWords] at hfit; omega
    simp [paramWords, decodeWords, paramsDefine, word_toNat hl]
  case setGroup a b l c =>
    obtain rfl : 14 = ty := Option.some.inj ht
    have hl : l.length < 4294967296 := by simp [paramWords] at hfit; omega
    simp [paramWords, decodeWords, paramsGroup, word_toNat hl]
  all_goals cases ht <;> rfl

/-- The bytes of CLIP DATA are read back as the command. -/
theorem paramsData_commandParams (clip offset : Word) (bytes : List Byte) (hfit : bytes.length < 4294967296) :
    paramsData (commandParams (.clipData clip offset bytes)) = some (.clipData clip offset bytes) := by
  have hparams : commandParams (.clipData clip offset bytes)
      = be32 clip ++ (be32 offset ++ (be32 (word bytes.length) ++ bytes)) := by simp [commandParams]
  have hclip : wordAt (commandParams (.clipData clip offset bytes)) 0 = clip := hparams ▸ wordAt_be32 _ _
  have hoffset : wordAt (commandParams (.clipData clip offset bytes)) 4 = offset :=
    hparams ▸ (wordAt_append (be32 clip) _ 0).trans (wordAt_be32 _ _)
  have hcount : wordAt (commandParams (.clipData clip offset bytes)) 8 = word bytes.length :=
    hparams ▸ (wordAt_append (be32 clip) _ 4).trans ((wordAt_append (be32 offset) _ 0).trans (wordAt_be32 _ _))
  have hdrop : (commandParams (.clipData clip offset bytes)).drop 12 = bytes := rfl
  have hlen : 12 ≤ (commandParams (.clipData clip offset bytes)).length := by simp [hparams, be32_length]; omega
  rw [paramsData, hdrop, hclip, hoffset, hcount, word_toNat hfit, if_pos ⟨hlen, rfl⟩]

/-- The parameter bytes of a host command are read back as the command. -/
theorem decodeCommand_commandParams {i : Instr} {ty : Nat} (ht : commandType i = some ty)
    (hfit : (commandParams i).length ≤ 1024) : decodeCommand ty (commandParams i) = some i := by
  have hwords (h10 : ty ≠ 10) (h48 : ty ≠ 48) (hp : commandParams i = (paramWords i).flatMap be32) :
      decodeCommand ty (commandParams i) = some i := by
    have hshort : (paramWords i).length < 4294967296 := by
      rw [hp, length_flatMap_be32] at hfit
      omega
    have hty : decodeCommand ty (commandParams i) = (wordsOf (commandParams i)).bind (decodeWords ty) := by
      unfold decodeCommand
      rw [if_neg (Nat.not_lt.2 hfit)]
      split
      · exact absurd rfl h10
      · exact absurd rfl h48
      · rfl
    rw [hty, hp, wordsOf_be32, Option.bind_some, decodeWords_paramWords ht h10 h48 hshort]
  cases i
  case clipData clip offset bytes =>
    obtain rfl : 10 = ty := Option.some.inj ht
    have hb : bytes.length < 4294967296 := by simp [commandParams] at hfit; omega
    rw [decodeCommand, if_neg (Nat.not_lt.2 hfit)]
    exact paramsData_commandParams clip offset bytes hb
  case configure img =>
    obtain rfl : 48 = ty := Option.some.inj ht
    exact if_neg (Nat.not_lt.2 hfit)
  all_goals cases ht <;> exact hwords (by decide) (by decide) rfl

/-- A whole message is read as its header and parameters say. -/
theorem decodeMessage_header (ty tag : Half) (ps : List Byte) (h : ps.length < 65536) :
    decodeMessage (be16 ty ++ be16 tag ++ be16 (BitVec.ofNat 16 ps.length) ++ ps)
      = (decodeCommand ty.toNat ps).map fun i => (ty, tag, ps, i) := by
  have hmessage : be16 ty ++ be16 tag ++ be16 (BitVec.ofNat 16 ps.length) ++ ps
      = be16 ty ++ (be16 tag ++ (be16 (BitVec.ofNat 16 ps.length) ++ ps)) := by simp
  have htype : halfAt (be16 ty ++ be16 tag ++ be16 (BitVec.ofNat 16 ps.length) ++ ps) 0 = ty :=
    hmessage ▸ halfAt_be16 _ _
  have htag : halfAt (be16 ty ++ be16 tag ++ be16 (BitVec.ofNat 16 ps.length) ++ ps) 2 = tag :=
    hmessage ▸ (halfAt_append (be16 ty) _ 0).trans (halfAt_be16 _ _)
  have hcount : (halfAt (be16 ty ++ be16 tag ++ be16 (BitVec.ofNat 16 ps.length) ++ ps) 4).toNat = ps.length := by
    have hfield : halfAt (be16 ty ++ (be16 tag ++ (be16 (BitVec.ofNat 16 ps.length) ++ ps))) 4 = BitVec.ofNat 16 ps.length :=
      (halfAt_append (be16 ty) _ 2).trans ((halfAt_append (be16 tag) _ 0).trans (halfAt_be16 _ _))
    rw [hmessage, hfield, BitVec.toNat_ofNat, Nat.mod_eq_of_lt h]
  have hdrop : (be16 ty ++ be16 tag ++ be16 (BitVec.ofNat 16 ps.length) ++ ps).drop 6 = ps := rfl
  rw [decodeMessage, if_pos ⟨by simp [be16], by rw [hcount, hdrop]⟩, htype, htag, hdrop]

theorem commandType_lt {i : Instr} {ty : Nat} (h : commandType i = some ty) : ty < 65536 := by
  cases i <;> cases h <;> decide

/-- A well-formed host command's parameters fit a message. -/
theorem commandParams_fit {i : Instr} {ty : Nat} (hw : wellFormed i = true) (ht : commandType i = some ty) :
    (commandParams i).length ≤ 1024 := by
  have hok : hostOk i = true := by cases i <;> cases ht <;> exact hw
  exact of_decide_eq_true hok

/-- Settles O6, by the header and then the parameters that the command's type gives. -/
theorem hostMessageRoundTrip : Obligations.HostMessageRoundTrip := by
  intro i ty tag bytes hw ht hbytes
  have hfit := commandParams_fit hw ht
  rw [encodeCommand, ht] at hbytes
  obtain rfl := Option.some.inj hbytes
  have hty : (BitVec.ofNat 16 ty).toNat = ty := by
    rw [BitVec.toNat_ofNat, Nat.mod_eq_of_lt (commandType_lt ht)]
  rw [decodeMessage_header _ _ _ (by omega), hty, decodeCommand_commandParams ht hfit]
  rfl

/-! ## Power-on and reset (R205) -/

/-- Settles O7, by evaluating the reset values. -/
theorem powerOnAndResetLoadResetValues : Obligations.PowerOnAndResetLoadResetValues := by
  refine ⟨fun s => ⟨putReset s, rfl, rfl, ?values⟩, fun boot s hheld => congrArg Host.Outcome.next (if_pos hheld)⟩
  case values =>
    exact ⟨rfl, rfl, rfl, rfl, rfl, rfl, rfl, rfl, rfl, Tab.at_replicate _, Tab.at_replicate _, rfl, rfl, rfl, rfl, rfl, rfl,
      rfl, Tab.at_replicate _, Tab.at_replicate _, fun k => congrArg Peer.state (Tab.at_replicate Peer.absent k), rfl, rfl,
      rfl, fun d => congrArg (fun x => x.gain.current) (Tab.at_replicate (⟨Ramp.rest 4096, 4096, false, false, false⟩ : DeskSource) d),
      fun b => congrArg Ramp.current (Tab.at_replicate (Ramp.rest 4096) b), Tab.at_replicate _, rfl, Tab.at_replicate _,
      Tab.at_replicate _, rfl, rfl, rfl, rfl, rfl, fun p => congrArg Player.state (Tab.at_replicate Player.idle p), rfl, rfl,
      fun l => congrArg CallLine.state (Tab.at_replicate CallLine.reset l), rfl, rfl, rfl, rfl, rfl, rfl, rfl, rfl, rfl, rfl,
      rfl, rfl, fun v => congrArg Voice.holder (Tab.at_replicate Voice.reset v), rfl, rfl⟩

/-! ## Host commands before configuration (R193) -/

/-- A host command's row reaches its unit through the slot. -/
theorem exec_hostRow {i : Instr} (h : commandType i ≠ none) : ∃ act, ∀ s, exec i s = hostRow i act s := by
  cases i
  all_goals try exact absurd rfl h
  all_goals exact ⟨_, fun _ => rfl⟩

/-- Settles O8: a row of a host command is refused at the slot. -/
theorem notConfiguredBeforeImage : Obligations.NotConfiguredBeforeImage := by
  intro i m s hacting ht hd hconfigure hstatus hnotice
  obtain ⟨act, hrow⟩ := exec_hostRow ht
  have hnot : takenUnconfigured i = false := by
    unfold takenUnconfigured
    split
    · exact absurd rfl (hconfigure _)
    · exact absurd rfl hstatus
    · exact absurd rfl hnotice
    · rfl
  rw [hrow, hostRow_unconfigured hacting hd hnot]

/-! ## Writes and reads on the port (R192, R193) -/

section
variable {bytes : List Byte} {s : State}

theorem writeComplete_held (h : s.cp.resetHeld = true) : writeComplete bytes s = s := if_pos h

theorem writeComplete_idle (h : s.cp.resetHeld = false) (hp : s.cp.port = .idle) :
    writeComplete bytes s = { s with cp := takeWrite bytes s.cp } := by
  rw [writeComplete, if_neg (by simp [h]), hp]

theorem writeComplete_acting (h : s.cp.resetHeld = false) (hp : s.cp.port = .acting) :
    writeComplete bytes s = { s with cp := { s.cp with busyFlag := true } } := by
  rw [writeComplete, if_neg (by simp [h]), hp]

theorem writeComplete_ready {r : Response} (h : s.cp.resetHeld = false) (hp : s.cp.port = .ready)
    (hr : s.cp.response = some r) :
    writeComplete bytes s = { s with cp := { s.cp with response := some { r with portBusy := true } } } := by
  rw [writeComplete, if_neg (by simp [h]), hp, hr]
  rfl

theorem takeWrite_message {m : Half × Half × List Byte × Instr} {cp : ControlPort} (h : decodeMessage bytes = some m) :
    takeWrite bytes cp = { cp with slot := some ⟨m.1, m.2.1, m.2.2.1⟩, port := .acting } := by
  rw [takeWrite, h]

theorem takeWrite_none {cp : ControlPort} (h : decodeMessage bytes = none) :
    takeWrite bytes cp = cp.respond (headerOf bytes).1 (headerOf bytes).2 (.only .badParam) := by
  rw [takeWrite, h]

theorem headerOf_type (h : 2 ≤ bytes.length) : (headerOf bytes).1 = halfAt bytes 0 := if_pos h

theorem headerOf_tag (h : 4 ≤ bytes.length) : (headerOf bytes).2 = halfAt bytes 2 := if_pos h

end

theorem responseBytes_laidOut (r : Response) : responseBytes r = be16 r.type ++ be16 r.tag
    ++ [BitVec.ofNat 8 r.code.ctorIdx, if r.portBusy then 1 else 0] ++ be16 (BitVec.ofNat 16 (4 * r.data.length))
    ++ r.data.flatMap be32 := by
  cases hbusy : r.portBusy <;> simp [responseBytes, hbusy]

/-- A response read out, its bytes laid out as R210 has them. -/
theorem readOut_some (cp : ControlPort) (r : Response) : cp.readOut (some r) = { cp with
    lastRead := some r
    shifted := be16 r.type ++ be16 r.tag ++ [BitVec.ofNat 8 r.code.ctorIdx, if r.portBusy then 1 else 0]
      ++ be16 (BitVec.ofNat 16 (4 * r.data.length)) ++ r.data.flatMap be32 } := by
  rw [← responseBytes_laidOut]
  rfl

section
variable {s : State}

theorem readComplete_idle (h : s.cp.port = .idle) :
    readComplete s = { s with cp := s.cp.readOut (some (noneResponse .noSuch)) } := by
  rw [readComplete, h]

theorem readComplete_acting (h : s.cp.port = .acting) :
    readComplete s = { s with cp := s.cp.readOut (some (noneResponse .busy)) } := by
  rw [readComplete, h]

theorem readComplete_ready (h : s.cp.port = .ready) : readComplete s
    = { s with cp := { s.cp.readOut s.cp.response with response := none, rdy := false, port := .idle } } := by
  rw [readComplete, h]

end

/-- Settles O9, by the port's state. -/
theorem portTakesAndYieldsMessages : Obligations.PortTakesAndYieldsMessages := by
  refine ⟨⟨fun bytes s hheld => ?held, fun ty tag ps i bytes s hfree hport hm => ?taken, fun bytes s hfree hport hm => ?bad,
    fun bytes s hfree hport => ?busy, fun bytes r s hfree hport hr => ?ready⟩,
    fun s hport => ?readIdle, fun s hport => ?readActing, fun r s hport hr => ?readReady⟩
  case held => exact congrArg Host.Outcome.next (writeComplete_held hheld)
  case taken => exact congrArg Host.Outcome.next (by rw [writeComplete_idle hfree hport, takeWrite_message hm])
  case bad =>
    exact ⟨(headerOf bytes).1, (headerOf bytes).2, headerOf_type, headerOf_tag,
      congrArg Host.Outcome.next (by rw [writeComplete_idle hfree hport, takeWrite_none hm]; rfl)⟩
  case busy => exact congrArg Host.Outcome.next (writeComplete_acting hfree hport)
  case ready => exact congrArg Host.Outcome.next (writeComplete_ready hfree hport hr)
  case readIdle =>
    exact ⟨noneResponse .noSuch, rfl, rfl, rfl, congrArg Host.Outcome.next (by rw [readComplete_idle hport, readOut_some])⟩
  case readActing =>
    exact ⟨noneResponse .busy, rfl, rfl, rfl, congrArg Host.Outcome.next (by rw [readComplete_acting hport, readOut_some])⟩
  case readReady => exact congrArg Host.Outcome.next (by rw [readComplete_ready hport, hr, readOut_some])

/-! ## Notices and status (R195 to R198) -/

/-- The items of a notice that tells at most three are the first of its words. -/
theorem noticeWords_take {n : Notice} (h : n.items.length ≤ 3) :
    n.items = (noticeWords n).take n.items.length := by
  obtain ⟨kind, block, items⟩ := n
  match items, h with
  | [], _ => rfl
  | [a], _ => rfl
  | [a, b], _ => rfl
  | [a, b, c], _ => rfl

/-- A notice has three words. -/
theorem noticeWords_three (n : Notice) : ∃ a b c, noticeWords n = [a, b, c] := by
  unfold noticeWords
  dsimp only
  split <;> exact ⟨_, _, _, rfl⟩

theorem readNoticeCommand_empty {s : State} (h : s.cp.notices = []) : readNoticeCommand s = (s, ⟨.noSuch, [word 0]⟩) := by
  rw [readNoticeCommand, h]

theorem readNoticeCommand_oldest {s : State} {n : Notice} {rest : List Notice} (h : s.cp.notices = n :: rest) :
    readNoticeCommand s = ({ s with cp := { s.cp with notices := rest, ints := intLines s.cp.routing rest } },
      .okWith (noticeReply n rest.length)) := by
  rw [readNoticeCommand, h]

/-- Settles O10: both commands are taken in every device state, and READ NOTICE by the oldest notice. -/
theorem readNoticeAndReadStatus : Obligations.ReadNoticeAndReadStatus := by
  refine ⟨⟨fun m s hacting hempty => ?empty, fun m s n rest hacting hqueue => ?oldest⟩, fun m s hacting => ?status⟩
  case empty =>
    refine (hostRow_taken hacting rfl readNoticeCommand).trans ?_
    rw [readNoticeCommand_empty hempty]
  case oldest =>
    obtain ⟨a, b, c, hwords⟩ := noticeWords_three n
    refine ⟨a, b, c, fun hfew => hwords ▸ noticeWords_take hfew, (hostRow_taken hacting rfl readNoticeCommand).trans ?_⟩
    rw [readNoticeCommand_oldest hqueue, noticeReply, hwords]
    rfl
  case status => exact hostRow_taken hacting rfl readStatusCommand

end Sys2Proof.Machine
end

section
/-! SUPPORT. The acceptance of an image (R74, R197, R199, R201 to R203): what its parts do, that `acceptImage` satisfies
`Accepted`, and the settling of O11. -/

namespace Sys2Proof.Machine

/-! ## Notices -/

theorem cp_post_room {cp : ControlPort} (n : Notice) (h : cp.notices.length < 32) :
    cp.post n = { cp with notices := cp.notices ++ [n], ints := intLines cp.routing (cp.notices ++ [n]) } := if_pos h

/-- A notice posted where the queue has room is its newest. -/
theorem cp_post_getLast {cp : ControlPort} (n : Notice) (h : cp.notices.length < 32) :
    (cp.post n).notices.getLast? = some n := by
  rw [cp_post_room n h]
  exact List.getLast?_concat

/-- A post lengthens the queue by one at most. -/
theorem cp_post_length (cp : ControlPort) (n : Notice) : (cp.post n).notices.length ≤ cp.notices.length + 1 := by
  unfold ControlPort.post
  split
  · exact Nat.le_of_eq List.length_append
  · exact Nat.le_succ _

/-- The INT lines follow every post (R197). -/
theorem cp_post_ints {cp : ControlPort} (n : Notice) (h : cp.ints = intLines cp.routing cp.notices) :
    (cp.post n).ints = intLines (cp.post n).routing (cp.post n).notices := by
  unfold ControlPort.post
  split
  · rfl
  · exact h

/-- A notice that a condition posts changes the Control Port alone, and lengthens the queue by one at most. -/
theorem postIf_eq (c : Bool) (k : NoticeKind) (items : List Word) (s : State) :
    ∃ cp, postIf c k items s = { s with cp := cp } := by
  cases c
  · exact ⟨s.cp, rfl⟩
  · exact ⟨_, rfl⟩

theorem postIf_length (c : Bool) (k : NoticeKind) (items : List Word) (s : State) :
    (postIf c k items s).cp.notices.length ≤ s.cp.notices.length + 1 := by
  cases c
  · exact Nat.le_succ _
  · exact cp_post_length _ _

/-! ## Capture clips (R74) -/

/-- The descriptor that a capture definition gives its clip. -/
def captureClip (d : CaptureDef) : Clip :=
  { Clip.empty with map := d.extents, capacity := d.capacity, length := d.capacity }

theorem defineCapture_clip_same (c : Fin 256) (d : CaptureDef) (s : State) :
    clipAt (defineCapture c d s) c = captureClip d := (setClip_at _ _ _ _).trans (if_pos rfl)

theorem defineCapture_clip_other {c k : Fin 256} (d : CaptureDef) (s : State) (h : c ≠ k) :
    clipAt (defineCapture k d s) c = clipAt s c := (setClip_at _ _ _ _).trans (if_neg (Ne.symm h))

/-- The owners after a run of extents has been given one owner. -/
theorem at_foldl_put (l : List (Fin 512)) (o : Option (Fin 256)) (t : Tab (Option (Fin 256)) 512) (e : Fin 512) :
    Tab.at (l.foldl (fun t e => Tab.put t e o) t) e = if e ∈ l then o else Tab.at t e := by
  induction l generalizing t with
  | nil => rfl
  | cons x l ih => by_cases hx : x = e <;> simp [ih, hx, eq_comm (a := e)]

theorem ownExtents_owner (l : List (Fin 512)) (o : Option (Fin 256)) (s : State) (e : Fin 512) :
    Tab.at (ownExtents l o s).cs.owner e = if e ∈ l then o else Tab.at s.cs.owner e := at_foldl_put l o _ e

/-- One capture clip with what the image defines for it. -/
def takeCapture (x : Fin 256 × Option CaptureDef) (s : State) : State :=
  match x.2 with
  | some d => defineCapture x.1 d s
  | none => s

/-- The capture definitions of an image, each with its clip. -/
def captureList (st : Settings) : List (Fin 256 × Option CaptureDef) := captureClips.zip st.captures.toList

theorem takeCaptures_eq (s : State) : takeCaptures s = forEach (captureList s.settings) takeCapture s := rfl

theorem forEach_cons {α : Type} (x : α) (l : List α) (f : α → State → State) (s : State) :
    forEach (x :: l) f s = forEach l f (f x s) := rfl

theorem takeCapture_frame (x : Fin 256 × Option CaptureDef) (s : State) : takeCapture x s = { s with cs := { s.cs with
    owner := (takeCapture x s).cs.owner, directory := (takeCapture x s).cs.directory } } := by
  obtain ⟨c, _ | d⟩ := x <;> rfl

section
variable (l : List (Fin 256 × Option CaptureDef))

/-- Taking the capture definitions changes owners and descriptors alone. -/
theorem takeList_frame (s : State) : forEach l takeCapture s = { s with cs := { s.cs with
    owner := (forEach l takeCapture s).cs.owner, directory := (forEach l takeCapture s).cs.directory } } := by
  induction l generalizing s with
  | nil => rfl
  | cons x l ih => rw [forEach_cons, ih, takeCapture_frame]

variable {l}

/-- A clip that the list defines once takes its definition. -/
theorem takeList_clip {c : Fin 256} {d : CaptureDef} {s : State} (hone : ∀ x, (c, x) ∈ l → x = some d)
    (h : (c, some d) ∈ l ∨ clipAt s c = captureClip d) : clipAt (forEach l takeCapture s) c = captureClip d := by
  induction l generalizing s with
  | nil => exact h.resolve_left (List.not_mem_nil)
  | cons p l ih =>
    refine ih (fun x hx => hone x (List.mem_cons_of_mem _ hx)) ?_
    obtain ⟨k, o⟩ := p
    by_cases hk : c = k
    · subst hk
      obtain rfl := hone o List.mem_cons_self
      exact .inr (defineCapture_clip_same c d s)
    · refine h.imp (fun hm => (List.mem_cons.1 hm).resolve_left fun he => hk (congrArg Prod.fst he)) fun hd => ?_
      cases o with
      | none => exact hd
      | some x => exact (defineCapture_clip_other x s hk).trans hd

/-- A clip that the list does not define is left. -/
theorem takeList_clip_other {c : Fin 256} {s : State} (h : ∀ d, (c, some d) ∉ l) :
    clipAt (forEach l takeCapture s) c = clipAt s c := by
  induction l generalizing s with
  | nil => rfl
  | cons p l ih =>
    refine (ih fun d hd => h d (List.mem_cons_of_mem _ hd)).trans ?_
    obtain ⟨k, _ | x⟩ := p
    · rfl
    · exact defineCapture_clip_other x s fun he => h x (he ▸ List.mem_cons_self)

theorem takeCapture_owner_some (c : Fin 256) (d : CaptureDef) (s : State) (e : Fin 512) :
    Tab.at (takeCapture (c, some d) s).cs.owner e = if e ∈ d.extents then some c else Tab.at s.cs.owner e :=
  ownExtents_owner d.extents (some c) s e

/-- An extent that one clip of the list alone names belongs to it. -/
theorem takeList_owner {c : Fin 256} {e : Fin 512} {s : State} (hone : ∀ k d, (k, some d) ∈ l → e ∈ d.extents → k = c)
    (h : (∃ d, (c, some d) ∈ l ∧ e ∈ d.extents) ∨ Tab.at s.cs.owner e = some c) :
    Tab.at (forEach l takeCapture s).cs.owner e = some c := by
  induction l generalizing s with
  | nil => exact h.resolve_left fun ⟨_, hm, _⟩ => List.not_mem_nil hm
  | cons p l ih =>
    refine ih (fun k d hm => hone k d (List.mem_cons_of_mem _ hm)) ?_
    obtain ⟨k, _ | x⟩ := p
    · exact h.imp_left fun ⟨d, hm, he⟩ => ⟨d, (List.mem_cons.1 hm).resolve_left nofun, he⟩
    · by_cases hx : e ∈ x.extents
      · obtain rfl := hone k x List.mem_cons_self hx
        exact .inr ((takeCapture_owner_some k x s e).trans (if_pos hx))
      · refine h.imp (fun ⟨d, hm, he⟩ => ⟨d, (List.mem_cons.1 hm).resolve_left fun heq => ?_, he⟩)
          fun ho => (takeCapture_owner_some k x s e).trans ((if_neg hx).trans ho)
        cases heq
        exact hx he

/-- An extent that no clip of the list names keeps its owner. -/
theorem takeList_owner_other {e : Fin 512} {s : State} (h : ∀ k d, (k, some d) ∈ l → e ∉ d.extents) :
    Tab.at (forEach l takeCapture s).cs.owner e = Tab.at s.cs.owner e := by
  induction l generalizing s with
  | nil => rfl
  | cons p l ih =>
    refine (ih fun k d hm => h k d (List.mem_cons_of_mem _ hm)).trans ?_
    obtain ⟨k, _ | x⟩ := p
    · rfl
    · exact (takeCapture_owner_some k x s e).trans (if_neg (h k x List.mem_cons_self))

end

/-- The list's entries are the four definitions, each at its clip. -/
theorem mem_captureList {st : Settings} {c : Fin 256} {x : Option CaptureDef} :
    (c, x) ∈ captureList st ↔ ∃ k : Fin 4, c = ⟨252 + k.val, by omega⟩ ∧ x = Tab.at st.captures k := by
  have htable : st.captures.toList = (List.finRange 4).map (Tab.at st.captures) := List.ext_getElem (by simp) (by simp [Tab.at])
  have hclips : captureClips = (List.finRange 4).map fun k : Fin 4 => (⟨252 + k.val, by omega⟩ : Fin 256) := by decide
  rw [captureList, htable, hclips, List.zip_map']
  simp [eq_comm]

/-- The extents of capture definition `k` of an image's field words. -/
def definedExtents (fw : Nat → Word) (k : Nat) : List (Fin 512) :=
  ((captureDef (fw (24 + 3 * k)).toNat (fw (25 + 3 * k)).toNat (fw (26 + 3 * k)).toNat).map CaptureDef.extents).getD []

theorem captureExtents_eq (fw : Nat → Word) : captureExtents fw = (List.range 4).flatMap (definedExtents fw) := by
  refine List.flatMap_congr fun k _ => ?_
  rw [definedExtents]
  cases captureDef (fw (24 + 3 * k)).toNat (fw (25 + 3 * k)).toNat (fw (26 + 3 * k)).toNat <;> rfl

theorem definedExtents_of {fw : Nat → Word} {k : Fin 4} {d : CaptureDef}
    (h : Tab.at (settingsOf fw).captures k = some d) : definedExtents fw k.val = d.extents := by
  have hdef : captureDef (fw (24 + 3 * k.val)).toNat (fw (25 + 3 * k.val)).toNat (fw (26 + 3 * k.val)).toNat = some d :=
    (Tab.at_ofFn (fun k : Fin 4 => captureDef (fw (24 + 3 * k.val)).toNat (fw (25 + 3 * k.val)).toNat
      (fw (26 + 3 * k.val)).toNat) k).symm.trans h
  rw [definedExtents, hdef]
  rfl

/-- The extents of a valid image's capture definitions belong to one clip each (R201). -/
theorem captures_disjoint {fw : Nat → Word} (h : (captureExtents fw).Nodup) {k j : Fin 4} {d d' : CaptureDef}
    {e : Fin 512} (hk : Tab.at (settingsOf fw).captures k = some d) (hj : Tab.at (settingsOf fw).captures j = some d')
    (he : e ∈ d.extents) (he' : e ∈ d'.extents) : k = j := by
  rw [captureExtents_eq] at h
  have hpairs := (List.nodup_flatMap.1 h).2
  have hsymm : Std.Symm (Function.onFun List.Disjoint (definedExtents fw)) := ⟨fun _ _ hd => hd.symm⟩
  by_contra hne
  exact hpairs.forall (List.mem_range.2 k.isLt) (List.mem_range.2 j.isLt) (fun heq => hne (Fin.ext heq))
    (definedExtents_of hk ▸ he) (definedExtents_of hj ▸ he')

/-- A valid image names no extent for two capture clips (R201, index 13). -/
theorem captureExtents_nodup {fw : Nat → Word} (h : fieldFault fw = none) : (captureExtents fw).Nodup := by
  rw [fieldFault, Option.map_eq_none_iff, List.find?_eq_none] at h
  have hcaptures := h _ (.tail _ (.tail _ (.tail _ (.head _))))
  by_contra hdup
  exact hcaptures (by simp [hdup])

/-! ## The acceptance of an image (R202) -/

/-- A new stamp is another than the one in use (R19). -/
theorem drawStamp_stamp (s : State) : (drawStamp s).lu.stamp ≠ s.lu.stamp := by
  have hoffset := (Config.stampOffset s.lu.draws).isLt
  unfold drawStamp
  intro h
  have hnat := congrArg BitVec.toNat h
  have hone : (1 : Half).toNat = 1 := rfl
  simp only [BitVec.toNat_add, BitVec.toNat_ofNat, hone] at hnat
  have := s.lu.stamp.isLt
  omega

/-- Taking the routing and starting the line (R197, R202). -/
def lineStarted (st : Settings) (s : State) : State := startLine (takeRouting st s)

theorem lineStarted_frame (st : Settings) (s : State) : lineStarted st s = { s with
    settings := st
    cp := (takeRouting st s).cp
    clock := ⟨0, true, 0, none, false⟩
    lu := (lineStarted st s).lu
    peers := s.peers.put st.nodeId ⟨.self, (lineStarted st s).lu.stamp, st.roles, 0, none⟩ } := by
  unfold lineStarted startLine
  dsimp only
  split <;> rfl

theorem lineStarted_studio {st : Settings} (s : State) (h : st.roles.site = false) :
    (lineStarted st s).lu.state = .listening ∧ (lineStarted st s).lu.goodMarks = 0 ∧ (lineStarted st s).lu.noMarks = 0
      ∧ (lineStarted st s).lu.stamp ≠ s.lu.stamp := by
  have hlu : (lineStarted st s).lu = { (drawStamp { takeRouting st s with clock := ⟨0, true, 0, none, false⟩ }).lu with
      state := .listening, goodMarks := 0, noMarks := 0 } := by
    unfold lineStarted startLine
    dsimp only
    split
    · next hsite => exact absurd (h.symm.trans hsite) Bool.false_ne_true
    · rfl
  rw [hlu]
  exact ⟨rfl, rfl, rfl, drawStamp_stamp { takeRouting st s with clock := ⟨0, true, 0, none, false⟩ }⟩

theorem lineStarted_site {st : Settings} (s : State) (h : st.roles.site = true) : (lineStarted st s).lu = s.lu := by
  unfold lineStarted startLine
  dsimp only
  split
  · rfl
  · next hsite => exact absurd h hsite

theorem cp_postIf_ints (c : Bool) (k : NoticeKind) (items : List Word) {s : State}
    (h : s.cp.ints = intLines s.cp.routing s.cp.notices) :
    (postIf c k items s).cp.ints = intLines (postIf c k items s).cp.routing (postIf c k items s).cp.notices := by
  cases c
  · exact h
  · exact cp_post_ints _ h

/-- A notice at most, and nothing else. -/
structure NoticeAtMost (s t : State) : Prop where
  frame : t = { s with cp := t.cp }
  ints : s.cp.ints = intLines s.cp.routing s.cp.notices → t.cp.ints = intLines t.cp.routing t.cp.notices
  room : t.cp.notices.length ≤ s.cp.notices.length + 1

theorem postIf_atMost (c : Bool) (k : NoticeKind) (items : List Word) (s : State) : NoticeAtMost s (postIf c k items s) := by
  cases c
  · exact ⟨rfl, id, Nat.le_succ _⟩
  · exact ⟨rfl, cp_post_ints _, cp_post_length _ _⟩

/-- The link's beginning (R163, R169): its levels, the SITE end, and a notice at most. -/
structure LinkStarted (s t : State) : Prop where
  frame : t = { s with cp := t.cp, link := t.link, site := t.site }
  ints : s.cp.ints = intLines s.cp.routing s.cp.notices → t.cp.ints = intLines t.cp.routing t.cp.notices
  room : t.cp.notices.length ≤ s.cp.notices.length + 1
  outputs : s.settings.roles.link = true → t.link.outputs = s.settings.safeLevels
  noFeed : s.settings.roles.site = true → t.site.state = .noFeed ∧ t.site.levels = s.settings.safeLevels

/-- The SITE end as it begins (R169). -/
def siteBegun (s : State) : SiteEnd :=
  { s.site with
    levels := s.settings.safeLevels, state := .noFeed, trim := limitTo s.settings.trimLimit s.site.trim
    filler := { s.site.filler with state := .on, gain := Ramp.rest 4096 } }

theorem beginSite_eq (s : State) : beginSite s = reportMissing { s with site := siteBegun s } := rfl

theorem beginSite_begun (s : State) : NoticeAtMost { s with site := siteBegun s } (beginSite s) := postIf_atMost _ _ _ _

theorem startLink_started (s : State) : LinkStarted s (startLink s) := by
  have hbegin (u : LinkEnd) (h : s.settings.roles.link = true → u.outputs = s.settings.safeLevels) :
      LinkStarted s (if s.settings.roles.site then beginSite { s with link := u } else { s with link := u }) := by
    split
    · have hb := beginSite_begun { s with link := u }
      have hlink : (beginSite { s with link := u }).link = u := by rw [hb.frame]
      have hsite : (beginSite { s with link := u }).site = siteBegun { s with link := u } := by rw [hb.frame]
      exact ⟨by rw [hlink, hsite]; exact hb.frame, hb.ints, hb.room,
        fun hl => (congrArg LinkEnd.outputs hlink).trans (h hl), fun _ => by rw [hsite]; exact ⟨rfl, rfl⟩⟩
    · next hstudio => exact ⟨rfl, id, Nat.le_succ _, h, fun hsite => absurd hsite hstudio⟩
  unfold startLink
  dsimp only
  split
  · exact hbegin _ fun _ => rfl
  · next hno => exact hbegin s.link fun hl => absurd hl hno

/-! ## `acceptImage` -/

/-- The state in which an image's values stand and its capture clips are taken, before the link begins. -/
def imageTaken (st : Settings) (s : State) : State := takeCaptures (lineStarted st s)

theorem imageTaken_frame (st : Settings) (s : State) : imageTaken st s = { lineStarted st s with cs := { s.cs with
    owner := (imageTaken st s).cs.owner, directory := (imageTaken st s).cs.directory } } := by
  have hline := lineStarted_frame st s
  have hcs : (lineStarted st s).cs = s.cs := by rw [hline]
  exact (takeList_frame _ _).trans (by rw [hcs]; rfl)

theorem acceptImage_eq (src : ImageSource) (st : Settings) (s : State) : acceptImage src st s
    = post .configured [word st.nodeId, word (Roles.code st.roles), word src.ctorIdx]
      (startInputs (startLink (imageTaken st s))) := rfl

/-- Past the capture clips the acceptance changes the port, the link, the site and the tones alone. -/
theorem acceptImage_leaves {α : Type} (f : State → α) (src : ImageSource) (st : Settings) (s : State)
    (h : ∀ (u : State) (cp : ControlPort) (l : LinkEnd) (x : SiteEnd) (g : Tones),
      f { u with cp := cp, link := l, site := x, tg := g } = f u) :
    f (acceptImage src st s) = f (imageTaken st s) := by
  rw [acceptImage_eq, post_eq, startInputs, (startLink_started _).frame]
  exact h (imageTaken st s) _ _ _ _

theorem acceptImage_cp (src : ImageSource) (st : Settings) (s : State) : (acceptImage src st s).cp
    = (startLink (imageTaken st s)).cp.post ⟨.configured, (startLink (imageTaken st s)).clock.blockCount,
      [word st.nodeId, word (Roles.code st.roles), word src.ctorIdx]⟩ := rfl

theorem imageTaken_cp (st : Settings) (s : State) : (imageTaken st s).cp = (takeRouting st s).cp := by
  rw [imageTaken_frame, lineStarted_frame]

theorem imageTaken_clock (st : Settings) (s : State) : (imageTaken st s).clock = ⟨0, true, 0, none, false⟩ := by
  rw [imageTaken_frame, lineStarted_frame]

theorem imageTaken_settings (st : Settings) (s : State) : (imageTaken st s).settings = st := by
  rw [imageTaken_frame, lineStarted_frame]

/-- The port at the acceptance: RUNNING with the routing in force, the flash read as it stood, the INT lines following. -/
theorem acceptImage_port (src : ImageSource) (st : Settings) (s : State) :
    (acceptImage src st s).cp.device = .running ∧ (acceptImage src st s).cp.routing = st.routing
      ∧ (acceptImage src st s).cp.boot = s.cp.boot
      ∧ (acceptImage src st s).cp.ints = intLines st.routing (acceptImage src st s).cp.notices := by
  have hsteady : Steady (imageTaken st s) (acceptImage src st s) :=
    post_steady _ _ (startInputs_steady (startLink_steady (.refl _)))
  have hsame := hsteady.posted.same
  have hints := cp_post_ints ⟨.configured, (startLink (imageTaken st s)).clock.blockCount,
    [word st.nodeId, word (Roles.code st.roles), word src.ctorIdx]⟩
    ((startLink_started (imageTaken st s)).ints (by rw [imageTaken_cp]; rfl))
  have hrouting : (acceptImage src st s).cp.routing = st.routing := by
    rw [hsame, imageTaken_cp]
    rfl
  refine ⟨?_, hrouting, ?_, ?_⟩
  · rw [hsame, imageTaken_cp]
    rfl
  · rw [hsame, imageTaken_cp]
    rfl
  · rw [← acceptImage_cp, hrouting] at hints
    exact hints

/-- CONFIGURED is the newest notice, FILLER_MISSING at most before it. -/
theorem acceptImage_notice (src : ImageSource) (st : Settings) (s : State) (h : s.cp.notices.length < 31) :
    (acceptImage src st s).cp.notices.getLast?
      = some ⟨.configured, 0, [word st.nodeId, word (Roles.code st.roles), word src.ctorIdx]⟩ := by
  have hlink := startLink_started (imageTaken st s)
  have hroom := hlink.room
  have hqueue : (imageTaken st s).cp.notices = s.cp.notices := by rw [imageTaken_cp]; rfl
  have hclock : (startLink (imageTaken st s)).clock.blockCount = 0 := by rw [hlink.frame, imageTaken_clock]
  rw [hqueue] at hroom
  rw [acceptImage_cp, hclock]
  exact cp_post_getLast _ (by omega)

/-- `acceptImage` accepts a valid image as R202 has it. -/
theorem acceptImage_accepted (src : ImageSource) {fw : Nat → Word} (s : State) (h : (captureExtents fw).Nodup) :
    Accepted src (settingsOf fw) s (acceptImage src (settingsOf fw) s) := by
  obtain ⟨hdevice, hrouting, hboot, hints⟩ := acceptImage_port src (settingsOf fw) s
  have hlink := startLink_started (imageTaken (settingsOf fw) s)
  have leaves {α : Type} (f : State → α) := acceptImage_leaves f src (settingsOf fw) s
  have hlu : (acceptImage src (settingsOf fw) s).lu = (lineStarted (settingsOf fw) s).lu :=
    (leaves State.lu fun _ _ _ _ _ => rfl).trans (by rw [imageTaken_frame])
  have hpeers : (acceptImage src (settingsOf fw) s).peers = s.peers.put (settingsOf fw).nodeId
      ⟨.self, (lineStarted (settingsOf fw) s).lu.stamp, (settingsOf fw).roles, 0, none⟩ :=
    (leaves State.peers fun _ _ _ _ _ => rfl).trans (by rw [imageTaken_frame, lineStarted_frame])
  have hcs : (acceptImage src (settingsOf fw) s).cs = (imageTaken (settingsOf fw) s).cs :=
    leaves State.cs fun _ _ _ _ _ => rfl
  have hline := lineStarted_frame (settingsOf fw) s
  have hlist : imageTaken (settingsOf fw) s
      = forEach (captureList (settingsOf fw)) takeCapture (lineStarted (settingsOf fw) s) := by
    rw [imageTaken, takeCaptures_eq, hline]
  have hclip (c : Fin 256) : clipAt (acceptImage src (settingsOf fw) s) c
      = clipAt (forEach (captureList (settingsOf fw)) takeCapture (lineStarted (settingsOf fw) s)) c := by
    rw [← hlist, clipAt, clipAt, hcs]
  have hclip₀ (c : Fin 256) : clipAt (lineStarted (settingsOf fw) s) c = clipAt s c := by rw [hline]; rfl
  have howner₀ : (lineStarted (settingsOf fw) s).cs.owner = s.cs.owner := by rw [hline]
  refine
    { device := hdevice, routing := hrouting, ints := hints, notice := acceptImage_notice src _ s
      settings := (leaves State.settings fun _ _ _ _ _ => rfl).trans (imageTaken_settings _ _)
      clock := (leaves State.clock fun _ _ _ _ _ => rfl).trans (imageTaken_clock _ _)
      line := fun hsite => hlu ▸ lineStarted_studio s hsite
      offline := fun hsite => hlu.trans (lineStarted_site s hsite)
      self := by rw [hlu, hpeers]
      outputs := fun hl _ => (hlink.outputs (by rw [imageTaken_settings]; exact hl)).trans (by rw [imageTaken_settings])
      noFeed := fun hs => by
        have hsite := hlink.noFeed (by rw [imageTaken_settings]; exact hs)
        rw [imageTaken_settings] at hsite
        exact hsite
      store := by
        rw [hcs]
        exact congrArg State.cs (imageTaken_frame _ _)
      captures := fun k d hd => ?captures, others := fun c hc => ?others, owned := fun k d e hd he => ?owned
      left := fun e he => ?left
      filters := rfl
      same := ?same }
  case captures =>
    refine (hclip _).trans (takeList_clip (fun x hx => ?_) (.inl (mem_captureList.2 ⟨k, rfl, hd.symm⟩)))
    obtain ⟨j, hj, rfl⟩ := mem_captureList.1 hx
    obtain rfl : k = j := Fin.ext (Nat.add_left_cancel (congrArg Fin.val hj))
    exact hd
  case others =>
    refine (hclip c).trans ((takeList_clip_other fun d hm => ?_).trans (hclip₀ c))
    obtain ⟨k, rfl, hd⟩ := mem_captureList.1 hm
    exact hc k d hd.symm rfl
  case owned =>
    rw [hcs, hlist]
    refine takeList_owner (fun c d' hm he' => ?_) (.inl ⟨d, mem_captureList.2 ⟨k, rfl, hd.symm⟩, he⟩)
    obtain ⟨j, rfl, hd'⟩ := mem_captureList.1 hm
    rw [captures_disjoint h hd hd'.symm he he']
  case left =>
    rw [hcs, hlist]
    refine (takeList_owner_other fun c d hm => ?_).trans (by rw [howner₀])
    obtain ⟨k, -, hd⟩ := mem_captureList.1 hm
    exact he k d hd.symm
  case same =>
    have same {α : Type} (f : State → α) (h₁ : ∀ (u : State) (cp : ControlPort) (l : LinkEnd) (x : SiteEnd) (g : Tones),
        f { u with cp := cp, link := l, site := x, tg := g } = f u) (h₂ : ∀ (u : State) (c : ClipStore),
        f { u with cs := c } = f u) (h₃ : ∀ (st : Settings) (cp : ControlPort) (c : Clock) (l : LineUnit) (p : Tab Peer 8),
        f { s with settings := st, cp := cp, clock := c, lu := l, peers := p } = f s) :
        f (acceptImage src (settingsOf fw) s) = f s :=
      (leaves f h₁).trans ((congrArg f (imageTaken_frame _ _)).trans ((h₂ _ _).trans ((congrArg f hline).trans (h₃ _ _ _ _ _))))
    exact ⟨same State.tx (fun _ _ _ _ _ => rfl) (fun _ _ => rfl) fun _ _ _ _ _ => rfl,
      same State.counters (fun _ _ _ _ _ => rfl) (fun _ _ => rfl) fun _ _ _ _ _ => rfl,
      same State.cu (fun _ _ _ _ _ => rfl) (fun _ _ => rfl) fun _ _ _ _ _ => rfl,
      same State.me (fun _ _ _ _ _ => rfl) (fun _ _ => rfl) fun _ _ _ _ _ => rfl,
      same State.dram (fun _ _ _ _ _ => rfl) (fun _ _ => rfl) fun _ _ _ _ _ => rfl,
      same State.pu (fun _ _ _ _ _ => rfl) (fun _ _ => rfl) fun _ _ _ _ _ => rfl,
      same State.ku (fun _ _ _ _ _ => rfl) (fun _ _ => rfl) fun _ _ _ _ _ => rfl,
      same State.au (fun _ _ _ _ _ => rfl) (fun _ _ => rfl) fun _ _ _ _ _ => rfl,
      same State.pending (fun _ _ _ _ _ => rfl) (fun _ _ => rfl) fun _ _ _ _ _ => rfl⟩

/-! ## CONFIGURE and the end of a flash read (R199, R201, R203) -/

/-- A valid host image is taken with the values of its field words, none of which fails. -/
theorem examineImage_ok {img : List Byte} {st : Settings} (h : examineImage img = .ok st) :
    st = settingsOf (fieldWord img) ∧ fieldFault (fieldWord img) = none
      ∧ ¬(img.length ≠ imageLength ∨ headerOk img = false ∨ imageCrcOk img = false) := by
  unfold examineImage at h
  split at h
  · cases h
  · next hform =>
    split at h
    · cases h
    · next hfault =>
      cases h
      exact ⟨rfl, hfault, hform⟩

theorem exec_configure {img : List Byte} {m : CommandMessage} {s : State} (h : Acting s (.configure img) m) :
    exec (.configure img) s = .next (answer m (configureCommand img s).2.code (configureCommand img s).2.data
      (configureCommand img s).1) := hostRow_taken h rfl (configureCommand img)

/-- Settles O11: CONFIGURE by the device state, the flash read and the image; the end of a flash read by the image. -/
theorem configureTakesImage : Obligations.ConfigureTakesImage := by
  refine ⟨fun img m s hacting => ⟨fun hrun => ?running, fun hun hread => ?reading, fun k hun hidle hbad => ?refused,
    fun st hun hidle hok => ?taken⟩, fun flash img s hread himg => ⟨fun hok => ?flashTaken, fun hform => ?noImage,
    fun hlen hhead hcrc => ?check, fun k hlen hhead hcrc hk => ?field⟩⟩
  case running => rw [exec_configure hacting, configureCommand_running hrun]; rfl
  case reading =>
    have hnot : s.cp.device ≠ .running := by rw [hun]; decide
    rw [exec_configure hacting, configureCommand, if_neg hnot, if_pos hread]
    rfl
  case refused =>
    have hnot : s.cp.device ≠ .running := by rw [hun]; decide
    rw [exec_configure hacting, configureCommand, if_neg hnot, if_neg hidle, hbad]
  case taken =>
    have hnot : s.cp.device ≠ .running := by rw [hun]; decide
    obtain ⟨rfl, hfault, -⟩ := examineImage_ok hok
    refine ⟨acceptImage .host (settingsOf (fieldWord img)) s, acceptImage_accepted .host s (captureExtents_nodup hfault),
      (acceptImage_port .host _ s).2.2.1, ?_⟩
    rw [exec_configure hacting, configureCommand, if_neg hnot, if_neg hidle, hok]
    rfl
  case flashTaken =>
    obtain ⟨-, hfault, hform⟩ := examineImage_ok hok
    simp only [not_or, ne_eq, Decidable.not_not, Bool.not_eq_false] at hform
    obtain ⟨hlen, hhead, hcrc⟩ := hform
    refine ⟨acceptImage .flash (settingsOf (fieldWord img)) { s with cp := { s.cp with boot := .accepted } },
      acceptImage_accepted .flash _ (captureExtents_nodup hfault), (acceptImage_port .flash _ _).2.2.1,
      congrArg Host.Outcome.next ?_⟩
    subst himg
    rw [endFlashRead, if_neg (not_not.2 hread), if_neg (by simp [hlen, hhead]), if_neg (by simp [hcrc]), hfault]
  case noImage =>
    subst himg
    exact congrArg Host.Outcome.next ((if_neg (not_not.2 hread)).trans (if_pos hform))
  case check =>
    subst himg
    exact congrArg Host.Outcome.next
      ((if_neg (not_not.2 hread)).trans ((if_neg (by simp [hlen, hhead])).trans (if_pos hcrc)))
  case field =>
    subst himg
    refine congrArg Host.Outcome.next ?_
    rw [endFlashRead, if_neg (not_not.2 hread), if_neg (by simp [hlen, hhead]), if_neg (by simp [hcrc]), hk]
    rfl

end Sys2Proof.Machine
end

section
/-! SUPPORT. Holds and the seat (R97, R98, R101, R104), and REJOIN (R18, R204): what each part of it changes, and the settling
of O12. -/

namespace Sys2Proof.Machine

/-! ## Holds (R97, R98) -/

/-- What a hold may change: notices, the cue entries and players, and the players' envelopes. -/
structure HoldFrame (s t : State) : Prop where
  frame : t = { s with
    cp := t.cp
    pu := { s.pu with cues := t.pu.cues, players := t.pu.players }
    me := { s.me with playerEnvelope := t.me.playerEnvelope } }

theorem HoldFrame.refl (s : State) : HoldFrame s s := ⟨rfl⟩

theorem HoldFrame.trans {a b c : State} (h : HoldFrame a b) (k : HoldFrame b c) : HoldFrame a c := ⟨by rw [k.frame, h.frame]⟩

theorem HoldFrame.seat {s t : State} (h : HoldFrame s t) : t.pu.seat = s.pu.seat := by rw [h.frame]

theorem HoldFrame.latch {s t : State} (h : HoldFrame s t) : t.pu.holdLatch = s.pu.holdLatch := by rw [h.frame]

theorem holdFrame_ownCue (p : Fin 2) (f : CueEntry → CueEntry) (s : State) : HoldFrame s (changeOwnCue p f s) := by
  unfold changeOwnCue
  split
  · split <;> exact ⟨rfl⟩
  · exact .refl s

theorem holdFrame_player (airKept : Bool) (p : Fin 2) (s : State) : HoldFrame s (holdPlayer airKept p s) := by
  unfold holdPlayer
  dsimp only
  split
  · exact (holdFrame_ownCue p _ s).trans ⟨rfl⟩
  · split <;> exact ⟨rfl⟩
  · exact .refl s

theorem holdFrame_take (c : HoldCause) (airKept : Bool) (s : State) : HoldFrame s (takeHold c airKept s) := by
  unfold takeHold
  split
  · exact ((holdFrame_player airKept 0 s).trans (holdFrame_player airKept 1 _)).trans ⟨rfl⟩
  · exact .refl s

/-- An effect under which a hold cause may come about leaves what the effect leaves, but for the hold. -/
theorem holdFrame_with (c : HoldCause) (f : State → State) (s : State) : HoldFrame (f s) (withHold c f s) := by
  unfold withHold
  dsimp only
  split
  · exact holdFrame_take c false (f s)
  · exact .refl _

/-! ## The seat on a change out of JOINED, and at REJOIN (R101, R104) -/

/-- What a change of the seat's state may change beside it. -/
structure SeatFrame (s t : State) : Prop where
  frame : t = { s with cp := t.cp, pu := t.pu, me := { s.me with playerEnvelope := t.me.playerEnvelope } }

theorem HoldFrame.seatFrame {s t : State} (h : HoldFrame s t) : SeatFrame s t := ⟨by rw [h.frame]⟩

theorem SeatFrame.trans {a b c : State} (h : SeatFrame a b) (k : SeatFrame b c) : SeatFrame a c := ⟨by rw [k.frame, h.frame]⟩

theorem setSeat_same {new : SeatState} {c : SeatCause} {s : State} (h : s.pu.seat = new) : setSeat new c s = s := if_pos h

/-- The state in which the seat's state has changed, before a hold that this brings about. -/
def seatChanged (new : SeatState) (c : SeatCause) (s : State) : State :=
  { s with
    cp := s.cp.post ⟨.seatState, s.clock.blockCount, [word s.pu.seat.ctorIdx, word new.ctorIdx, word c.ctorIdx]⟩
    pu := { s.pu with seat := new, holdLatch := (s.pu.holdLatch || s.pu.seat == .holding) && new != .holding } }

theorem setSeat_other {new : SeatState} {c : SeatCause} {s : State} (h : s.pu.seat ≠ new) : setSeat new c s
    = if s.pu.seat = .holding then takeHold .latch true (seatChanged new c s) else seatChanged new c s := if_neg h

theorem seatFrame_set (new : SeatState) (c : SeatCause) (s : State) : SeatFrame s (setSeat new c s) := by
  by_cases h : s.pu.seat = new
  · rw [setSeat_same h]
    exact ⟨rfl⟩
  · rw [setSeat_other h]
    have hchanged : SeatFrame s (seatChanged new c s) := ⟨rfl⟩
    split
    · exact hchanged.trans (holdFrame_take .latch true _).seatFrame
    · exact hchanged

@[simp] theorem setSeat_seat (new : SeatState) (c : SeatCause) (s : State) : (setSeat new c s).pu.seat = new := by
  by_cases h : s.pu.seat = new
  · rw [setSeat_same h, h]
  · rw [setSeat_other h]
    split
    · exact (holdFrame_take .latch true _).seat
    · rfl

theorem seatFrame_leaves (s : State) : SeatFrame s (seatLeavesLine s) := by
  unfold seatLeavesLine
  split
  · exact (seatFrame_set _ _ s).trans ⟨rfl⟩
  · exact ⟨rfl⟩

theorem seatLeavesLine_seat {s : State} (h : s.settings.roles.playout = true) : (seatLeavesLine s).pu.seat = .standby := by
  rw [seatLeavesLine, if_pos h]
  exact setSeat_seat .standby .lineState s

theorem seatLeavesLine_none {s : State} (h : s.settings.roles.playout = false) : seatLeavesLine s = s :=
  if_neg (by simp [h])

theorem seatFrame_rejoins (s : State) : SeatFrame s (seatRejoins s) := by
  unfold seatRejoins
  split
  · exact ((seatFrame_leaves s).trans ⟨rfl⟩).trans (holdFrame_with .latch
      (fun s => { s with pu := { s.pu with holdLatch := true } }) _).seatFrame
  · exact ⟨rfl⟩

/-- REJOIN leaves the seat in STANDBY with the hold latch set (R104). -/
theorem seatRejoins_seat {s : State} (h : s.settings.roles.playout = true) :
    (seatRejoins s).pu.seat = .standby ∧ (seatRejoins s).pu.holdLatch = true := by
  have hold := holdFrame_with .latch (fun s => { s with pu := { s.pu with holdLatch := true } }) (seatLeavesLine s)
  rw [seatRejoins, if_pos h]
  exact ⟨hold.seat.trans (seatLeavesLine_seat h), hold.latch⟩

/-! ## REJOIN at the KU (R122, R129) -/

/-- What the end of a request may change. -/
theorem endRequest_frame (tag : Half) (o : RequestOutcome) (after : Option Nat) (s : State) : endRequest tag o after s
    = { s with
      cp := (endRequest tag o after s).cp
      ku := { s.ku with requests := s.ku.requests.filter fun q => q.tag != tag } } := by
  unfold endRequest
  split
  · next hnone =>
    have hall : s.ku.requests.filter (fun q => q.tag != tag) = s.ku.requests :=
      List.filter_eq_self.2 fun q hq => by simpa using List.find?_eq_none.1 hnone q hq
    rw [hall]
  · rfl

/-- The end of every request of a list of tags. -/
theorem endRequests_frame (l : List Half) (o : RequestOutcome) (s : State) : ∃ cp,
    forEach l (fun t => endRequest t o none) s
      = { s with cp := cp, ku := { s.ku with requests := s.ku.requests.filter fun q => q.tag ∉ l } } := by
  induction l generalizing s with
  | nil => exact ⟨s.cp, by simp [forEach]⟩
  | cons t l ih =>
    obtain ⟨cp, hrest⟩ := ih (endRequest t o none s)
    have htags : (s.ku.requests.filter fun q => q.tag != t).filter (fun q => q.tag ∉ l)
        = s.ku.requests.filter fun q => q.tag ∉ t :: l := by
      rw [List.filter_filter]
      exact List.filter_congr fun q _ => by by_cases hq : q.tag = t <;> simp [hq]
    refine ⟨cp, hrest.trans ?_⟩
    rw [endRequest_frame, ← htags]

/-- REJOIN empties the Air Queue and the request list (R122, R129). -/
theorem callerRejoins_empties (s : State) : callerRejoins s = { s with
    cp := (callerRejoins s).cp, ku := { s.ku with airQueue := [], requests := [], requeueOwn := true } } := by
  obtain ⟨cp, h⟩ := endRequests_frame (s.ku.requests.map Request.tag) .noAnswer
    { s with ku := { s.ku with airQueue := [], requeueOwn := true } }
  have hnone : (s.ku.requests.filter fun q => q.tag ∉ s.ku.requests.map Request.tag) = [] :=
    List.filter_eq_nil_iff.2 fun q hq => by simpa using ⟨q, hq, rfl⟩
  rw [callerRejoins, h, hnone]

/-! ## REJOIN (R18, R204) -/

/-- The units that act on REJOIN before the seat. -/
def unitsRejoin (s : State) : State := alertRejoins (callerRejoins (rejoinTable (lineRejoins s)))

theorem rejoinCommand_site {s : State} (h : atSite s = true) : rejoinCommand s = refuse .notRole s := if_pos h

theorem rejoinCommand_studio {s : State} (h : atSite s = false) : rejoinCommand s
    = (seatRejoins (unitsRejoin s), .okWith [word (seatRejoins (unitsRejoin s)).lu.stamp.toNat]) :=
  if_neg (by simp [h])

theorem unitsRejoin_frame (s : State) : unitsRejoin s = { lineRejoins s with
    cp := (unitsRejoin s).cp
    cu := { s.cu with table := s.cu.table.filter fun e => e.own, fullReported := false }
    ku := { s.ku with airQueue := [], requests := [], requeueOwn := true }
    au := { s.au with table := s.au.table.filter fun r => r.own s } } := by
  unfold unitsRejoin
  rw [callerRejoins_empties]
  rfl

theorem atSite_iff {s : State} (h : s.cp.device = .running) : atSite s = s.settings.roles.site := by simp [atSite, h]

/-- Settles O12: the line's part of REJOIN, then that of each other unit, the seat's last. -/
theorem rejoinEntersListening : Obligations.RejoinEntersListening := by
  refine ⟨fun m s hrun hsite => ?notRole, fun m s hrun hstudio => ?rejoins⟩
  case notRole =>
    exact (hostRow_running hrun rejoinCommand).trans (by rw [rejoinCommand_site ((atSite_iff hrun.running).trans hsite)]; rfl)
  case rejoins =>
    have hunits := unitsRejoin_frame s
    have hseat := (seatFrame_rejoins (unitsRejoin s)).frame
    have hposted : Posted s.cp (seatRejoins (unitsRejoin s)).cp :=
      SteadyOf.posted (b := lineRejoins s)
        (seatRejoins_steady (alertRejoins_steady (callerRejoins_steady (rejoinTable_steady (.refl _)))))
    refine ⟨seatRejoins (unitsRejoin s), ?_, ?_, hposted, ?_, ?_, ?_, ?_, fun k hk => ?_, ?_, ?_, fun hp => ?_, ?_, ?_⟩
    · exact (hostRow_running hrun rejoinCommand).trans
        (by rw [rejoinCommand_studio ((atSite_iff hrun.running).trans hstudio)]; rfl)
    · rw [hseat, hunits]
      rfl
    · rw [hseat, hunits]
      rfl
    · rw [hseat, hunits]
      exact drawStamp_stamp s
    · rw [hseat, hunits]
      rfl
    · rw [hseat, hunits]
      rfl
    · rw [hseat, hunits]
      exact (Tab.at_put_ne _ _ hk).trans (Tab.at_replicate _ k)
    · rw [hseat, hunits]
      exact (Tab.at_put _ _ _ _).trans (if_pos rfl)
    · rw [hseat, hunits]
    · exact seatRejoins_seat (by rw [hunits]; exact hp)
    · rw [hseat, hunits]
    · rw [hseat, hunits]

end Sys2Proof.Machine
end

section
/-! SUPPORT. Block starts (R2 to R4, R14, R15): the clock at each, the order of the units' work, and the settling of O13 and
O14. -/

namespace Sys2Proof.Machine

/-! ## The clock at a block start -/

/-- A block start restarts the timer, advances the block count by 1, and keeps the frame otherwise. -/
structure BlockStarted (s t : State) : Prop where
  posted : Posted s.cp t.cp
  settings : t.settings = s.settings
  pending : t.pending = s.pending
  clock : t.clock = { s.clock with timer := 0, blockCount := s.clock.blockCount + 1 }

theorem blockStart_started (input : BlockInput) (s : State) : BlockStarted s (blockStart input s) :=
  have h := blockStart_steady input s
  ⟨h.posted, h.settings, h.pending, h.clock⟩

theorem siteBlockStart_started (input : BlockInput) {s : State} (h : atSite s = true) :
    BlockStarted s (siteBlockStart input s) :=
  have h := siteBlockStart_steady input h
  ⟨h.posted, h.settings, h.pending, h.clock⟩

/-- What a recognised mark begin leaves before its block start. -/
theorem markTaken_clock (t : Nat) (input : BlockInput) (s : State) :
    (markTaken t input s).clock = { s.clock with timer := 0, sinceMark := some 0, expiryOpen := false } := by
  rw [markTaken, (markCounted_steady t input s).clock]

theorem markTaken_eq (t : Nat) (input : BlockInput) (s : State) : markTaken t input s
    = { countMark (s.clock.sinceMark.map (· + t)) (cutOff input.sinceCrc s) with
      clock := { s.clock with timer := 0, sinceMark := some 0, expiryOpen := false } } := by
  rw [← markTaken_clock t input s]
  rfl

/-- Cutting off what a mark interrupts leaves the line state. -/
theorem cutOff_state (k : Nat) (s : State) : (cutOff k s).lu.state = s.lu.state := by
  have hcount (c : Counter) (t : State) : (count c t).lu = t.lu := by
    unfold count
    split <;> rfl
  have hown : (truncateOwn s).lu = s.lu := by
    unfold truncateOwn
    split
    · rfl
    · dsimp only
      split <;> exact hcount _ _
  unfold cutOff truncateReceived
  dsimp only
  split
  · rw [hcount, hown]
  · rw [hown]

/-- In JOINED a mark counts nothing (R15). -/
theorem markTaken_joined {t : Nat} (input : BlockInput) {s : State} (h : s.lu.state = .joined) : markTaken t input s
    = { cutOff input.sinceCrc s with clock := { s.clock with timer := 0, sinceMark := some 0, expiryOpen := false } } := by
  have hnot : (cutOff input.sinceCrc s).lu.state ≠ .listening := by rw [cutOff_state, h]; decide
  rw [markTaken_eq, countMark, if_neg hnot]

/-- A mark begin that gives a block start (R3). -/
theorem recogniseMark_starts {t : Nat} {s : State} (input : BlockInput) (h : s.clock.expiryOpen = false ∨ 64 < t) :
    recogniseMark t input s = blockStart input (markTaken t input s) := by
  have hsame : (s.clock.expiryOpen && decide (t ≤ 64)) = false := by
    rcases h with h | h
    · rw [h, Bool.false_and]
    · rw [decide_eq_false (Nat.not_le.2 h), Bool.and_false]
  rw [recogniseMark_eq, hsame]
  rfl

/-- A mark begin within 64 bit times of a local expiry gives no second block start (R3). -/
theorem recogniseMark_same {t : Nat} {s : State} (input : BlockInput) (h : s.clock.expiryOpen = true) (ht : t ≤ 64) :
    recogniseMark t input s = joinByMarks (markTaken t input s) := by
  have hsame : (s.clock.expiryOpen && decide (t ≤ 64)) = true := by rw [h, decide_eq_true ht]; rfl
  rw [recogniseMark_eq, hsame]
  rfl

theorem recogniseMark_started {t : Nat} {s : State} (input : BlockInput) (h : s.clock.expiryOpen = false ∨ 64 < t) :
    Posted s.cp (recogniseMark t input s).cp ∧ (recogniseMark t input s).settings = s.settings
      ∧ (recogniseMark t input s).pending = s.pending ∧ (recogniseMark t input s).clock = { s.clock with
        timer := 0, blockCount := s.clock.blockCount + 1, sinceMark := some 0, expiryOpen := false } := by
  have hcounted := markCounted_steady t input s
  have hstart := blockStart_started input (markTaken t input s)
  rw [recogniseMark_starts input h]
  exact ⟨hcounted.posted.trans hstart.posted, hstart.settings.trans hcounted.settings,
    hstart.pending.trans hcounted.pending, by rw [hstart.clock, markTaken_clock]⟩

theorem markBegins_receives {elapsed : Nat} {input : BlockInput} {s : State} (h : receives s = true) :
    markBegins elapsed input s = recogniseMark (s.clock.timer + elapsed) input s := if_pos h

theorem expiryStart_open {input : BlockInput} {s : State} (h : s.lu.state = .listening ∨ s.lu.state = .muted) :
    expiryStart input s = blockStart input { s with clock := { s.clock with
      timer := 0, sinceMark := s.clock.sinceMark.map (· + 49152), expiryOpen := true } } := if_pos h

theorem sendsMark_joined {input : BlockInput} {s : State} (h : s.lu.state = .joined) : sendsMark input s
    = recogniseMark 49152 input { s with tx := { s.tx with markSent := true } } := if_pos (by simp [joined, h])

/-- Settles O13: each kind of block start by the clock that it leaves. -/
theorem blockStartsAdvanceBlockCount : Obligations.BlockStartsAdvanceBlockCount := by
  refine ⟨fun elapsed input s hr ht => ⟨_, congrArg Host.Outcome.next (markBegins_receives hr), recogniseMark_started input ht⟩,
    fun elapsed input s hr hopen ht => ?same, fun input s hl => ?expiry,
    fun input s hj => ⟨_, congrArg Host.Outcome.next (sendsMark_joined hj), recogniseMark_started (t := 49152)
      (s := { s with tx := { s.tx with markSent := true } }) input (.inr (by decide))⟩,
    fun input s hsite => ?site⟩
  case same =>
    have hcounted := markCounted_steady (s.clock.timer + elapsed) input s
    have hjoin : Steady (markTaken (s.clock.timer + elapsed) input s) (joinByMarks (markTaken (s.clock.timer + elapsed) input s)) :=
      joinByMarks_steady (.refl _)
    exact ⟨_, congrArg Host.Outcome.next ((markBegins_receives hr).trans (recogniseMark_same input hopen ht)),
      hcounted.posted.trans hjoin.posted, hjoin.settings.trans hcounted.settings, hjoin.pending.trans hcounted.pending,
      hjoin.clock.trans (markTaken_clock _ input s)⟩
  case expiry =>
    have hstart := blockStart_started input { s with clock := { s.clock with
      timer := 0, sinceMark := s.clock.sinceMark.map (· + 49152), expiryOpen := true } }
    exact ⟨_, congrArg Host.Outcome.next (expiryStart_open hl), hstart.posted, hstart.settings, hstart.pending, hstart.clock⟩
  case site =>
    have hstart := siteBlockStart_started input hsite
    exact ⟨_, rfl, hstart.posted, hstart.settings, hstart.pending, hstart.clock⟩

/-! ## The order of the units' work (R3, R14) -/

theorem sourceStart_eq (input : BlockInput) (ups : Tab (List Int) 3) (alert : Option SourceBlock) (s : State) :
    sourceStart input ups alert s = completeHoldFade 1 (completeHoldFade 0 (completeAlertFade (sourceStage input ups
      (producePlayer 0 s).2 (producePlayer 1 (producePlayer 0 s).1).2 alert (producePlayer 1 (producePlayer 0 s).1).1))) := rfl

theorem bus_eq (input : BlockInput) (s : State) :
    linkStart (programBlock s) (silenceMonitor (busStage input s)) = busStart input s := rfl

theorem openBlock_eq (s : State) : openBlock s = { s with
  clock := { s.clock with timer := 0, blockCount := s.clock.blockCount + 1 }, cs := { s.cs with asked := 0 } } := rfl

/-- The Alert Unit's part of a block start, and the block that it hands. -/
theorem alertStart_eq (input : BlockInput) (owed : List Nat) (s : State) : alertStart input owed s
    = (withHold .alertAiring startTick (frameTick owed (produceAlert (alertTick input s)).1),
      (produceAlert (alertTick input s)).2) := by rw [alertStart]

theorem panelStart_eq (input : BlockInput) (s : State) : panelStart input s
    = (formVoices (callerTick input (upConvertAll input (inputTick input s)).2 (upConvertAll input (inputTick input s)).1),
      (upConvertAll input (inputTick input s)).2) := by rw [panelStart]

theorem decisionStart_eq (closing : Word) (s : State) :
    decisionStart closing s = withHold .alertTier (presenceDecision closing) s := by rw [decisionStart]

/-- Settles O14: the order written out is `blockStart`'s, part by part, and each row runs `blockStart` on what its event
leaves. -/
theorem blockStartRunsEveryUnit : Obligations.BlockStartRunsEveryUnit := by
  unfold Obligations.BlockStartRunsEveryUnit
  intro alerts link start
  have halerts : alerts = alertTick := by rfl
  have hlink : link = linkStart := by rfl
  have hstart (input : BlockInput) (s : State) : start input s = blockStart input s := by
    rw [blockStart]
    dsimp only [start]
    rw [halerts, hlink, bus_eq, sourceStart_eq, alertStart_eq, panelStart_eq, decisionStart_eq, openBlock_eq]
  clear_value start
  refine ⟨fun elapsed input s hr ht => ⟨_, rfl, ?mark⟩, fun input s hl => ?expiry, fun input s hj => ?own,
    fun input s hsite => ?site⟩
  case mark =>
    refine congrArg Host.Outcome.next ((markBegins_receives hr).trans ((recogniseMark_starts input ht).trans ?_))
    rw [markTaken_eq, hstart]
  case expiry =>
    refine congrArg Host.Outcome.next ((expiryStart_open hl).trans ?_)
    rw [hstart]
  case own =>
    refine congrArg Host.Outcome.next ((sendsMark_joined hj).trans
      ((recogniseMark_starts input (.inr (by decide))).trans ?_))
    rw [markTaken_joined input (by exact hj), hstart]
  case site =>
    refine congrArg Host.Outcome.next ((if_pos hsite).trans ?_)
    rfl

end Sys2Proof.Machine
end

section
/-! SUPPORT. The Line Unit (R5 to R24): joining, sending, receiving, and the settling of O15 to O20. -/

namespace Sys2Proof.Machine

/-! ## A record changed, and its frame handed (R142) -/

theorem alertOf_at {r : Alert} {id : Nat} {s : State} (h : Sole r s) (hid : r.id = id) : alertOf s id = some r := by
  rw [← hid, alertOf_sole h]

theorem changeAlert_sole {r : Alert} {id : Nat} {s : State} (h : Sole r s) (hid : r.id = id) (f : Alert → Alert) :
    changeAlert id f s = changeAlert id (fun _ => f r) s := by
  subst hid
  refine congrArg (fun t => { s with au := { s.au with table := t } }) (List.map_congr_left fun a ha => ?_)
  by_cases e : a.id = r.id
  · rw [h.2 a ha e]
  · rw [if_neg e, if_neg e]

/-- A record that has been changed is still the only one with its alert id. -/
theorem sole_changed {r r' : Alert} {s : State} (h : Sole r s) (hid : r'.id = r.id) :
    Sole r' (changeAlert r.id (fun _ => r') s) := by
  refine ⟨List.mem_map.2 ⟨r, h.1, if_pos rfl⟩, fun x hx e => ?_⟩
  obtain ⟨a, -, rfl⟩ := List.mem_map.1 hx
  by_cases ha : a.id = r.id
  · rw [if_pos ha]
  · rw [if_neg ha, hid] at e
    exact absurd e ha

/-- The change of one record leaves the others. -/
theorem sole_others {r x : Alert} {s : State} {r' : Alert} (h : Sole x s) (hr : r'.id = r.id) (hne : x.id ≠ r.id) :
    Sole x (changeAlert r.id (fun _ => r') s) := by
  refine ⟨List.mem_map.2 ⟨x, h.1, if_neg hne⟩, fun y hy e => ?_⟩
  obtain ⟨a, ha, rfl⟩ := List.mem_map.1 hy
  by_cases hid : a.id = r.id
  · rw [if_pos hid, hr] at e
    exact absurd e.symm hne
  · rw [if_neg hid] at e ⊢
    exact h.2 a ha e

theorem changeAlert_twice (id : Nat) {r : Alert} (r' : Alert) (h : r.id = id) (s : State) :
    changeAlert id (fun _ => r') (changeAlert id (fun _ => r) s) = changeAlert id (fun _ => r') s := by
  refine congrArg (fun t => { s with au := { s.au with table := t } }) ((List.map_map ..).trans
    (List.map_congr_left fun a _ => ?_))
  by_cases e : a.id = id
  · simp [e, h]
  · simp [e]

theorem alertChanged_joined {r r' : Alert} {s : State} (h : s.lu.state = .joined) : alertChanged r r' s
    = queueControl (.alert (alertBody r' none)) (changeAlert r.id (fun _ => { r' with sinceFrame := 0 }) s) := if_pos h

theorem alertChanged_apart {r r' : Alert} {s : State} (h : s.lu.state ≠ .joined) :
    alertChanged r r' s = changeAlert r.id (fun _ => r') s := if_neg h

/-- A record changed, and its frame handed where the node is JOINED (R142). -/
theorem handAlertFrame_changed {r r' : Alert} {s : State} (h : Sole r s) (room : FrameRoom s) (hid : r'.id = r.id) :
    handAlertFrame r.id (changeAlert r.id (fun _ => r') s) = alertChanged r r' s := by
  have hsole := sole_changed h hid
  rw [handAlertFrame, alertOf_at hsole hid]
  by_cases hj : s.lu.state = .joined
  · refine (if_pos (by simp [joined, changeAlert, hj])).trans ?_
    rw [handControl_room (by exact room hj), alertChanged_joined hj, changeAlert_sole hsole hid,
      changeAlert_twice r.id _ hid]
  · rw [alertChanged_apart hj]
    exact if_neg (by simp [joined, changeAlert, hj])

/-- A record's frame handed: the record stands with 0 blocks since its last frame (R142). -/
theorem handAlertFrame_sole {r : Alert} {s : State} (h : Sole r s) (room : FrameRoom s) :
    handAlertFrame r.id s = alertChanged r r s := by
  have hsame : changeAlert r.id (fun _ => r) s = s := by
    refine (changeAlert_sole h rfl id).symm.trans (congrArg (fun t => { s with au := { s.au with table := t } }) ?_)
    exact (List.map_congr_left fun a _ => by rw [id, ite_self]).trans s.au.table.map_id
  rw [← handAlertFrame_changed h room rfl, hsame]

/-- The frames of several records handed in JOINED, one after another (R142, R155). -/
theorem handAlertFrames {l : List Alert} {s : State} (hj : s.lu.state = .joined)
    (room : l.length + s.tx.control.length ≤ 8) (sole : ∀ r ∈ l, Sole r s) (distinct : (l.map Alert.id).Nodup) :
    forEach (l.map Alert.id) handAlertFrame s = l.foldl (fun u r => alertChanged r r u) s := by
  induction l generalizing s with
  | nil => rfl
  | cons r rest ih =>
    obtain ⟨hnot, hrest⟩ := List.nodup_cons.1 distinct
    have hlen : s.tx.control.length < 8 := by rw [List.length_cons] at room; omega
    have hsole := sole r List.mem_cons_self
    have hlast : ∀ x ∈ rest, x.id ≠ r.id := fun x hx e => hnot (e ▸ List.mem_map_of_mem hx)
    rw [List.map_cons, forEach_cons, handAlertFrame_sole hsole fun _ => hlen, List.foldl_cons, alertChanged_joined hj]
    refine ih hj ?_ (fun x hx => ?_) hrest
    · have : ((queueControl (.alert (alertBody r none)) (changeAlert r.id (fun _ => { r with sinceFrame := 0 }) s)).tx.control).length
          = s.tx.control.length + 1 := by
        obtain ⟨before, after, hq, hi, -⟩ := insertControl_place ⟨s.tx.frameSeq, .alert (alertBody r none), 0⟩ s.tx.control
        refine (congrArg List.length hi).trans ?_
        rw [hq, List.length_append, List.length_append, List.length_cons, Nat.add_assoc]
      rw [this]
      rw [List.length_cons] at room
      omega
    · exact sole_others (r' := { r with sinceFrame := 0 }) (sole x (List.mem_cons_of_mem _ hx)) rfl (hlast x hx)

theorem handed_changed {id : Nat} (f : Alert → Alert) (hid : ∀ r, (f r).id = r.id) (hclip : ∀ r, (f r).clip = r.clip)
    (s : State) : Handed s (changeAlert id f s) := by
  refine ⟨rfl, (List.map_map ..).trans (List.map_congr_left fun a _ => ?_),
    (List.map_map ..).trans (List.map_congr_left fun a _ => ?_)⟩
  · by_cases e : a.id = id
    · simp [e, hid]
    · simp [e]
  · by_cases e : a.id = id
    · simp [e, hclip]
    · simp [e]

/-- What handing a record's frame may change, with a full control queue too. -/
theorem handed_frame (id : Nat) (s : State) : Handed s (handAlertFrame id s) := by
  unfold handAlertFrame
  split
  · split
    · exact (handed_changed (fun r => { r with sinceFrame := 0 }) (fun _ => rfl) (fun _ => rfl) s).trans (handed_control _ _)
    · exact .refl s
  · exact .refl s

theorem handed_frames (l : List Nat) (s : State) : Handed s (forEach l handAlertFrame s) := by
  induction l generalizing s with
  | nil => exact .refl s
  | cons id rest ih => exact (handed_frame id s).trans (ih _)

/-! ## Joining (R15, R16) -/

/-- What entry to JOINED may change, with a full control queue too. -/
theorem enterJoined_frame (c : JoinCause) (s : State) :
    (enterJoined c s).lu = { s.lu with state := .joined, mismatchRun := 0, announceCount := 0 }
    ∧ enterJoined c s = { s with
      cp := (enterJoined c s).cp, lu := (enterJoined c s).lu, tx := (enterJoined c s).tx
      peers := (enterJoined c s).peers, ku := (enterJoined c s).ku, au := (enterJoined c s).au } := by
  let u : State := { s with
    cp := s.cp.post ⟨.lineJoined, s.clock.blockCount, [word c.ctorIdx]⟩
    lu := { s.lu with state := .joined, mismatchRun := 0, announceCount := 0 } }
  let v : State := changeSelf (fun p => { p with body := some (announceBody u) }) u
  have hv : Handed v (enterJoined c s) := (handed_control (.announce (announceBody u)) v).trans (handed_frames _ _)
  rw [hv.frame]
  exact ⟨rfl, rfl⟩

theorem markMissed_listening {s : State} (ho : s.clock.expiryOpen = true) (hl : s.lu.state = .listening) : markMissed s
    = joinAlone { s with
      clock := { s.clock with timer := 64, expiryOpen := false }
      lu := { s.lu with noMarks := bump 4 s.lu.noMarks } } := (if_pos ho).trans (if_pos hl)

/-- The announce of a node whose control queue has a place (R21). -/
theorem queueAnnounce_room {s : State} (h : s.tx.control.length < 8) : queueAnnounce s
    = queueControl (.announce (announceBody s)) (changeSelf (fun p => { p with body := some (announceBody s) }) s) :=
  handControl_room h

theorem length_insertControl (f : ControlFrame) (q : List ControlFrame) : (insertControl f q).length = q.length + 1 := by
  obtain ⟨before, after, hq, hi, -⟩ := insertControl_place f q
  rw [hi, hq, List.length_append, List.length_append, List.length_cons, Nat.add_assoc]

/-- Entry to JOINED: the announce is queued, and the frames of the own records are handed after it. -/
theorem enterJoined_tells {s : State} (c : JoinCause)
    (room : (s.au.table.filter fun r => r.own s).length + s.tx.control.length < 8)
    (sole : ∀ r ∈ s.au.table.filter fun r => r.own s, Sole r s)
    (distinct : ((s.au.table.filter fun r => r.own s).map Alert.id).Nodup) :
    enterJoined c s = (s.au.table.filter fun r => r.own s).foldl (fun u r => alertChanged r r u) { s with
      cp := s.cp.post ⟨.lineJoined, s.clock.blockCount, [word c.ctorIdx]⟩
      lu := { s.lu with state := .joined, mismatchRun := 0, announceCount := 0 }
      tx := { s.tx with
        control := insertControl ⟨s.tx.frameSeq, .announce (announceBody s), 0⟩ s.tx.control
        frameSeq := s.tx.frameSeq + 1 }
      peers := s.peers.put s.settings.nodeId
        { Tab.at s.peers s.settings.nodeId with body := some (announceBody s) } } := by
  rw [enterJoined, queueAnnounce_room (by dsimp only [post]; omega)]
  refine handAlertFrames (l := s.au.table.filter fun r => r.own s) rfl ?_ sole distinct
  refine Nat.le_trans (Nat.add_le_add_left (Nat.le_of_eq (length_insertControl _ _)) _) ?_
  dsimp only [post, changeSelf]
  omega

theorem joinByMarks_joins {s : State} (h : s.lu.state = .listening) (hm : 64 ≤ s.lu.goodMarks) :
    joinByMarks s = enterJoined .marks s := if_pos ⟨h, hm⟩

theorem joinAlone_joins {s : State} (h : s.lu.state = .listening) (hm : 4 ≤ s.lu.noMarks) :
    joinAlone s = enterJoined .alone s := if_pos ⟨h, hm⟩

theorem joinAlone_waits {s : State} (h : s.lu.noMarks < 4) : joinAlone s = s := if_neg fun k => by omega

/-- Settles O15. -/
theorem lineIsJoinedByMarksOrAlone : Obligations.LineIsJoinedByMarksOrAlone := by
  refine ⟨fun s hl room sole distinct => ⟨fun hm => ?marks, fun hm => ?alone⟩, fun s hopen =>
    ⟨fun hl hn => ?counts, fun hl hn => ?fourth, fun hl => ?muted⟩⟩
  case marks => exact congrArg Host.Outcome.next ((joinByMarks_joins hl hm).trans (enterJoined_tells .marks room sole distinct))
  case alone => exact congrArg Host.Outcome.next ((joinAlone_joins hl hm).trans (enterJoined_tells .alone room sole distinct))
  case counts =>
    refine congrArg Host.Outcome.next ((markMissed_listening hopen hl).trans ?_)
    have hbump : bump 4 s.lu.noMarks = s.lu.noMarks + 1 := by rw [bump]; omega
    rw [hbump]
    exact joinAlone_waits (Nat.succ_lt_succ hn)
  case fourth =>
    obtain ⟨hlu, hframe⟩ := enterJoined_frame .alone { s with
      clock := { s.clock with timer := 64, expiryOpen := false }, lu := { s.lu with noMarks := 4 } }
    refine ⟨_, congrArg Host.Outcome.next ((markMissed_listening hopen hl).trans ?_), hlu, hframe,
      congrArg Host.Outcome.next (joinAlone_joins hl (Nat.le_refl _))⟩
    rw [hn]
    exact joinAlone_joins hl (Nat.le_refl _)
  case muted =>
    refine congrArg Host.Outcome.next ((if_pos hopen).trans (if_neg ?_))
    exact fun k => LineState.noConfusion (hl.symm.trans k)

/-! ## Offering (R5 to R7) -/

theorem fits_iff (offset times : Nat) : fits offset times = true ↔ offset + times ≤ 48960 := decide_eq_true_iff

theorem arbitration_slot (cls : Nat) (node slot : Fin 8) :
    arbitration cls node slot 0 = cls * 512 + node.val * 64 + slot.val * 8 := by
  rw [arbitration, Nat.add_zero]

theorem arbitration_control (f : ControlFrame) (node : Fin 8) :
    arbitration (controlClass f.body) node (f.seq.toNat % 8) (controlKind f.body)
      = controlClass f.body * 512 + node.val * 64 + f.seq.toNat % 8 * 8 + controlKind f.body := by
  rw [arbitration]

theorem mem_audioOffers {offset : Nat} {s : State} {n : Nat} {src : SendSource} : (n, src) ∈ audioOffers offset s
    ↔ ∃ i f, src = .slot i ∧ n = f.cls * 512 + s.settings.nodeId.val * 64 + i.val * 8 ∧ Tab.at s.tx.audio i = some f
      ∧ offset + 2400 ≤ 48960 := by
  have hfits : fits offset audioTimes = true ↔ offset + 2400 ≤ 48960 := fits_iff offset audioTimes
  rw [audioOffers, List.mem_filterMap]
  constructor
  · rintro ⟨i, -, h⟩
    split at h
    case h_1 f hf =>
      split at h
      case isTrue hfit =>
        rw [arbitration_slot] at h
        obtain ⟨hn, hsrc⟩ := Prod.mk.inj (Option.some.inj h)
        exact ⟨i, f, hsrc.symm, hn.symm, hf, hfits.1 hfit⟩
      case isFalse => exact nomatch h
    case h_2 => exact nomatch h
  · rintro ⟨i, f, hsrc, hn, hf, hfit⟩
    refine ⟨i, List.mem_finRange i, ?_⟩
    rw [hf, hsrc, hn, ← arbitration_slot]
    exact if_pos (hfits.2 hfit)

theorem mem_controlOffer {offset : Nat} {s : State} {n : Nat} {src : SendSource} : (n, src) ∈ controlOffer offset s
    ↔ ∃ f, src = .control f
      ∧ n = controlClass f.body * 512 + s.settings.nodeId.val * 64 + f.seq.toNat % 8 * 8 + controlKind f.body
      ∧ s.tx.control.find? (fun f => decide (offset + controlTimes f.body ≤ 48960)) = some f := by
  have hfind : (fun f : ControlFrame => fits offset (controlTimes f.body))
      = fun f => decide (offset + controlTimes f.body ≤ 48960) := funext fun f => by rw [fits]
  rw [controlOffer, hfind]
  generalize s.tx.control.find? (fun f => decide (offset + controlTimes f.body ≤ 48960)) = first
  cases first with
  | none => simp
  | some f =>
    rw [Option.map_some, Option.toList_some, List.mem_singleton, Prod.mk.injEq, arbitration_control]
    exact ⟨fun ⟨hn, hsrc⟩ => ⟨f, hsrc, hn, rfl⟩, fun ⟨g, hsrc, hn, hg⟩ => by
      obtain rfl : f = g := Option.some.inj hg
      exact ⟨hn, hsrc⟩⟩

/-- The fold that keeps the lower of two offers ends at one of them, and no other has a lower field. -/
theorem foldl_lowerOffer (l : List Offer) (a : Offer) : l.foldl lowerOffer a ∈ a :: l
    ∧ ∀ x ∈ a :: l, (l.foldl lowerOffer a).1 ≤ x.1 := by
  induction l generalizing a with
  | nil => exact ⟨List.mem_cons_self, fun x hx => by rw [List.mem_singleton.1 hx]; rfl⟩
  | cons b rest ih =>
    obtain ⟨hmem, hle⟩ := ih (lowerOffer a b)
    have hlow : (lowerOffer a b = a ∧ a.1 ≤ b.1) ∨ (lowerOffer a b = b ∧ b.1 ≤ a.1) := by
      unfold lowerOffer
      split
      · exact .inr ⟨rfl, by omega⟩
      · exact .inl ⟨rfl, by omega⟩
    have hfirst := hle _ List.mem_cons_self
    rw [List.foldl_cons]
    refine ⟨?_, fun x hx => ?_⟩
    · rcases List.mem_cons.1 hmem with h | h
      · rw [h]
        rcases hlow with ⟨k, -⟩ | ⟨k, -⟩
        · rw [k]; exact List.mem_cons_self
        · rw [k]; exact List.mem_cons_of_mem _ List.mem_cons_self
      · exact List.mem_cons_of_mem _ (List.mem_cons_of_mem _ h)
    · rcases List.mem_cons.1 hx with rfl | hx
      · rcases hlow with ⟨k, h⟩ | ⟨k, h⟩ <;> rw [k] at hfirst ⊢ <;> omega
      · rcases List.mem_cons.1 hx with rfl | hx
        · rcases hlow with ⟨k, h⟩ | ⟨k, h⟩ <;> rw [k] at hfirst ⊢ <;> omega
        · exact hle x (List.mem_cons_of_mem _ hx)

/-- The offer with the lowest field (R7). -/
theorem bestOffer_lowest {l : List Offer} (h : l ≠ []) : ∃ o ∈ l, (∀ x ∈ l, o.1 ≤ x.1) ∧ bestOffer l = some o := by
  cases l with
  | nil => exact absurd rfl h
  | cons a rest => exact ⟨_, (foldl_lowerOffer rest a).1, (foldl_lowerOffer rest a).2, rfl⟩

theorem offerFrame_none {offset : Nat} {s : State} (h : audioOffers offset s ++ controlOffer offset s = []) :
    offerFrame offset s = s := by
  unfold offerFrame
  rw [h]
  exact ite_self _

theorem offerFrame_some {offset : Nat} {s : State} (hj : s.lu.state = .joined) (hr : s.lu.receiving = false)
    (hs : s.tx.sending = none) {o : Offer} (h : bestOffer (audioOffers offset s ++ controlOffer offset s) = some o) :
    offerFrame offset s = { s with tx := { s.tx with sending := sendingOf o.2 s, markSent := false } } := by
  unfold offerFrame
  rw [h]
  exact if_pos ⟨by simp [joined, hj], hr, hs⟩

/-- An offer whose field is below every other's is the one sent. -/
theorem offerFrame_only {offset : Nat} {s : State} (hj : s.lu.state = .joined) (hr : s.lu.receiving = false)
    (hs : s.tx.sending = none) {o : Offer} (ho : o ∈ audioOffers offset s ++ controlOffer offset s)
    (hlow : ∀ x ∈ audioOffers offset s ++ controlOffer offset s, x ≠ o → o.1 < x.1) :
    offerFrame offset s = { s with tx := { s.tx with sending := sendingOf o.2 s, markSent := false } } := by
  obtain ⟨best, hmem, hle, hbest⟩ := bestOffer_lowest (List.ne_nil_of_mem ho)
  have hsame : best = o := by
    by_contra hne
    exact absurd (hlow best hmem hne) (Nat.not_lt.2 (hle o ho))
  rw [offerFrame_some hj hr hs hbest, hsame]

/-- Settles O16. -/
theorem frameOfferSendsLowestField : Obligations.FrameOfferSendsLowestField := by
  intro offset s hj hr hs offers audioField controlField firstControl
  have hoffers : ∀ n src, (n, src) ∈ offers ↔
      (∃ i f, src = .slot i ∧ n = audioField i f ∧ Tab.at s.tx.audio i = some f ∧ offset + 2400 ≤ 48960)
        ∨ ∃ f, src = .control f ∧ n = controlField f ∧ firstControl = some f := fun n src =>
    List.mem_append.trans (or_congr mem_audioOffers mem_controlOffer)
  have haudio : ∀ i f, Tab.at s.tx.audio i = some f → offset + 2400 ≤ 48960 →
      (audioField i f, SendSource.slot i) ∈ offers := fun i f hf hfit => (hoffers _ _).2 (.inl ⟨i, f, rfl, rfl, hf, hfit⟩)
  have hcontrol : ∀ f, firstControl = some f → (controlField f, SendSource.control f) ∈ offers := fun f hf =>
    (hoffers _ _).2 (.inr ⟨f, rfl, rfl, hf⟩)
  refine ⟨fun hno => congrArg Host.Outcome.next (offerFrame_none hno), fun hsome => ?best, haudio, hcontrol,
    fun n src => (hoffers n src).1, fun i f hf hfit hothers hctl => ?slot, fun f hf haud => ?control⟩
  case best =>
    obtain ⟨o, ho, hle, hbest⟩ := bestOffer_lowest hsome
    exact ⟨o, ho, hle, congrArg Host.Outcome.next (offerFrame_some hj hr hs hbest)⟩
  case slot =>
    refine congrArg Host.Outcome.next ((offerFrame_only hj hr hs (haudio i f hf hfit) fun x hx hne => ?_).trans ?_)
    · rcases (hoffers _ _).1 hx with ⟨j, g, hsrc, hn, hg, -⟩ | ⟨g, -, hn, hg⟩
      · rw [hn]
        refine hothers j g (fun hij => hne ?_) hg
        subst hij
        obtain rfl : f = g := Option.some.inj (hf.symm.trans hg)
        exact Prod.ext hn hsrc
      · rw [hn]
        exact hctl g hg
    · rw [sendingOf, hf]
      rfl
  case control =>
    refine congrArg Host.Outcome.next (offerFrame_only hj hr hs (hcontrol f hf) fun x hx hne => ?_)
    rcases (hoffers _ _).1 hx with ⟨j, g, -, hn, hg, hfit⟩ | ⟨g, hsrc, hn, hg⟩
    · rw [hn]
      exact haud j g hfit hg
    · obtain rfl : f = g := Option.some.inj (hf.symm.trans hg)
      exact absurd (Prod.ext hn hsrc) hne

/-! ## Error counters (R13) -/

/-- A count changes the counters alone. -/
theorem count_frame (c : Counter) (s : State) : count c s = { s with counters := (count c s).counters } := by
  unfold count
  split <;> rfl

theorem count_tx (c : Counter) (s : State) : (count c s).tx = s.tx := by rw [count_frame]

theorem count_lu (c : Counter) (s : State) : (count c s).lu = s.lu := by rw [count_frame]

/-- What is counted rests on the counters and the counter-enable mask alone. -/
theorem count_counters {c : Counter} {s t : State} (h : t.counters = s.counters) (k : t.settings = s.settings) :
    (count c t).counters = (count c s).counters := by
  unfold count
  rw [h, k]
  split
  · rfl
  · exact h

/-! ## The end of a frame's sending (R7, R8, R20) -/

theorem loseArbitration_sending {snd : Sending} {s : State} (h : s.tx.sending = some snd) : loseArbitration s
    = { s with tx := { s.tx with sending := none }, lu := { s.lu with receiving := true } } := by
  rw [loseArbitration, h]

theorem completeFrame_slot {snd : Sending} {i : Fin 8} {s : State} (h : s.tx.sending = some snd) (hi : snd.source = .slot i) :
    completeFrame s = { s with tx := { s.tx with
      sending := none, sent := snd.bits, audio := s.tx.audio.put i none } } := by
  rw [completeFrame, h]
  dsimp only
  rw [hi]

theorem completeFrame_control {snd : Sending} {f : ControlFrame} {s : State} (h : s.tx.sending = some snd)
    (hf : snd.source = .control f) : completeFrame s = frameCompleted f.body { s with tx := { s.tx with
      sending := none, sent := snd.bits, control := s.tx.control.eraseP f.same } } := by
  rw [completeFrame, h]
  dsimp only
  rw [hf]

theorem controlKind_announce {b : ControlBody} (h : controlKind b = 1) : ∃ a, b = .announce a := by
  cases b with
  | announce a => exact ⟨a, rfl⟩
  | alert a | request a | answer a => exact nomatch h

theorem frameCompleted_other {b : ControlBody} {s : State} (h : controlKind b = 2 ∨ controlKind b = 4) :
    frameCompleted b s = s := by
  cases b with
  | announce a | request a => rcases h with h | h <;> exact nomatch h
  | alert a | answer a => rfl

/-- The state with no frame being sent. -/
def sendingNone (s : State) : State := { s with tx := { s.tx with sending := none } }

theorem truncateOwn_slot {snd : Sending} {i : Fin 8} {s : State} (h : s.tx.sending = some snd) (hi : snd.source = .slot i) :
    truncateOwn s = { count .truncated (sendingNone s) with
      tx := { s.tx with sending := none, audio := s.tx.audio.put i none } } := by
  rw [truncateOwn, h]
  dsimp only
  rw [hi]
  dsimp only
  rw [count_tx]
  rfl

theorem truncateOwn_control {snd : Sending} {f : ControlFrame} {s : State} (h : s.tx.sending = some snd)
    (hf : snd.source = .control f) : truncateOwn s = count .truncated (sendingNone s) := by
  rw [truncateOwn, h]
  dsimp only
  rw [hf]
  rfl

theorem mismatchOwn_sending {snd : Sending} {s : State} (h : s.tx.sending = some snd) : mismatchOwn s
    = { count .txMismatch (sendingNone s) with
      lu := { s.lu with mismatchRun := if snd.announce then bump 3 s.lu.mismatchRun else s.lu.mismatchRun } } := by
  rw [mismatchOwn, h]
  dsimp only
  have hlu : (count .txMismatch (sendingNone s)).lu = s.lu := count_lu _ _
  change (if snd.announce then { count .txMismatch (sendingNone s) with
    lu := { (count .txMismatch (sendingNone s)).lu with
      mismatchRun := bump 3 (count .txMismatch (sendingNone s)).lu.mismatchRun } } else count .txMismatch (sendingNone s)) = _
  by_cases ha : snd.announce = true
  · rw [if_pos ha, if_pos ha, hlu]
  · rw [if_neg ha, if_neg ha, ← hlu]

/-! ## MUTED (R17, R20) -/

/-- What entry to MUTED does before the seat follows. -/
def mutedAlone (c : DuplicateCause) (s : State) : State :=
  { s with
    cp := s.cp.post ⟨.duplicateId, s.clock.blockCount, [word c.ctorIdx]⟩
    lu := { s.lu with state := .muted, goodMarks := 0, noMarks := 0 }
    tx := { s.tx with audio := Vector.replicate 8 none, sending := none } }

theorem enterMuted_joined {c : DuplicateCause} {s : State} (h : s.lu.state = .joined) :
    enterMuted c s = seatLeavesLine (mutedAlone c s) := if_pos (by simp [joined, h])

theorem enterMuted_apart {c : DuplicateCause} {s : State} (h : s.lu.state ≠ .joined) : enterMuted c s = mutedAlone c s :=
  if_neg (by simp [joined, h])

theorem readbackMute_mutes {s : State} (h : s.lu.state = .joined) (hr : 3 ≤ s.lu.mismatchRun) :
    readbackMute s = seatLeavesLine (mutedAlone .readback s) :=
  (if_pos ⟨by simp [joined, h], hr⟩).trans (enterMuted_joined h)

theorem readbackMute_waits {s : State} (h : s.lu.mismatchRun < 3) : readbackMute s = s := if_neg fun k => by omega

theorem bump_add {top n : Nat} (h : n < top) : bump top n = n + 1 := by rw [bump]; omega

/-- Settles O17. -/
theorem framesLeaveTheSender : Obligations.FramesLeaveTheSender := by
  refine ⟨⟨fun snd s h => congrArg Host.Outcome.next (loseArbitration_sending h), fun s hl ht =>
      congrArg Host.Outcome.next (if_pos ⟨by simp [receives, hl], ht⟩)⟩,
    ⟨fun snd i s h hi => congrArg Host.Outcome.next (completeFrame_slot h hi), fun snd f s h hf =>
      ⟨fun hk => ?announce, fun r hr => ?request, fun hk => ?other⟩⟩,
    fun snd s h => ⟨fun i hi => congrArg Host.Outcome.next (truncateOwn_slot h hi),
      fun f hf => congrArg Host.Outcome.next (truncateOwn_control h hf), fun hrun hann => ?mismatch,
      fun hj hrun hann => ?third⟩,
    fun s hj hrun => ?mute⟩
  case announce =>
    refine congrArg Host.Outcome.next ((completeFrame_control h hf).trans ?_)
    obtain ⟨b, hb⟩ := controlKind_announce hk
    exact congrArg (frameCompleted · _) hb
  case request => exact congrArg Host.Outcome.next ((completeFrame_control h hf).trans (congrArg (frameCompleted · _) hr))
  case other => exact congrArg Host.Outcome.next ((completeFrame_control h hf).trans (frameCompleted_other hk))
  case mismatch =>
    refine congrArg Host.Outcome.next ((congrArg readbackMute (mismatchOwn_sending h)).trans ?_)
    by_cases ha : snd.announce = true
    · have hlt := hann ha
      rw [if_pos ha, if_pos ha, bump_add (by omega)]
      exact readbackMute_waits (Nat.succ_lt_succ hlt)
    · rw [if_neg ha, if_neg ha]
      exact readbackMute_waits (Nat.lt_succ_of_le hrun)
  case third =>
    have hmute : readbackMute (mismatchOwn s) = seatLeavesLine (mutedAlone .readback (mismatchOwn s)) := by
      rw [mismatchOwn_sending h]
      refine readbackMute_mutes hj ?_
      dsimp only
      rw [if_pos hann, hrun]
      decide
    have hseat := (seatFrame_leaves (mutedAlone .readback (mismatchOwn s))).frame
    refine ⟨_, congrArg Host.Outcome.next hmute, ?_, ?_, ?_⟩
    · rw [hseat]; rfl
    · rw [hseat, mismatchOwn_sending h]
      exact count_counters rfl rfl
    · rw [hseat, mismatchOwn_sending h]
      change (count .txMismatch (sendingNone s)).tx.control = _
      rw [count_tx]
      rfl
  case mute =>
    have hseat := (seatFrame_leaves (mutedAlone .readback s)).frame
    refine ⟨_, congrArg Host.Outcome.next (readbackMute_mutes hj hrun), ?_, fun hp => ?_, fun hp => seatLeavesLine_seat hp⟩
    · rw [hseat]
      rfl
    · rw [seatLeavesLine_none (by exact hp)]
      exact ⟨rfl, rfl, rfl⟩

/-! ## Control frames removed and handed (R10) -/

/-- What the removal of several frames may change. -/
theorem dropFrames_frame (l : List ControlFrame) (why : DropReason) (s : State) :
    Handed s (forEach l (fun f => dropFrame f why) s) ∧ (forEach l (fun f => dropFrame f why) s).tx = s.tx := by
  induction l generalizing s with
  | nil => exact ⟨.refl s, rfl⟩
  | cons f rest ih =>
    obtain ⟨hrest, htx⟩ := ih (dropFrame f why s)
    exact ⟨(handed_drop f why s).trans hrest, htx.trans (dropFrame_tx f why s)⟩

/-- A class is at most that of an announce, so an announce displaces no frame. -/
theorem controlClass_le (b : ControlBody) (a : AnnounceBody) : controlClass b ≤ controlClass (.announce a) := by
  cases b <;> simp [controlClass]

/-- Settles O18. -/
theorem agedControlFramesAreDropped : Obligations.AgedControlFramesAreDropped := by
  refine ⟨fun s h => congrArg Host.Outcome.next (dropAged_none h), fun before after f s hs hb hf =>
      ⟨_, dropFrame_dropped f .aged _, congrArg Host.Outcome.next (dropAged_first hs hb hf)⟩,
    fun s => ⟨dropAged s, rfl, (dropAged_steady (.refl s)).posted, ?frame⟩, fun f s hf => ⟨dropAged s, rfl, ?single⟩,
    fun s => rfl, fun b s => ⟨handControl_room, fun l last hs hfull => ⟨fun hlt => ?displaced, fun hle => ?full⟩, ?place⟩,
    ⟨fun _ => rfl, fun _ => rfl, fun _ => rfl, fun _ => rfl⟩, fun s hj hdue hfull => ?due⟩
  case frame =>
    obtain ⟨hframe, htx⟩ := dropFrames_frame (s.tx.control.filter fun f => 8 ≤ f.age) .aged
      { s with tx := { s.tx with control := s.tx.control.filter fun f => f.age < 8 } }
    have hall := hframe.frame
    rw [htx] at hall
    exact hall
  case single =>
    rw [dropAged, hf]
    exact dropFrame_dropped f .aged _
  case displaced =>
    rw [handControl_full hs hfull, if_pos hlt]
    exact dropFrame_dropped last .displaced _
  case full =>
    rw [handControl_full hs hfull, if_neg (Nat.not_lt.2 hle)]
    exact dropFrame_dropped _ .full s
  case place =>
    obtain ⟨before, after, hq, hi, hbefore, hafter⟩ := insertControl_place ⟨s.tx.frameSeq, b, 0⟩ s.tx.control
    exact ⟨before, after, hq, congrArg (fun q => { s with tx := { s.tx with control := q, frameSeq := s.tx.frameSeq + 1 } }) hi,
      hbefore, hafter⟩
  case due =>
    let u : State := changeSelf (fun p => { p with body := some (announceBody s) })
      { s with lu := { s.lu with announceCount := 0 } }
    obtain ⟨l, last, hs⟩ := List.eq_nil_or_concat s.tx.control |>.resolve_left fun h => by rw [h] at hfull; exact absurd hfull (by decide)
    rw [List.concat_eq_append] at hs
    refine congrArg Host.Outcome.next ((if_pos ⟨by simp [joined, hj], hdue⟩).trans ?_)
    change handControl (.announce (announceBody s)) u = _
    rw [handControl_full (s := u) hs hfull, if_neg (Nat.not_lt.2 (controlClass_le last.body _))]
    exact (dropFrame_dropped ⟨s.tx.frameSeq, .announce (announceBody s), 0⟩ .full u).announce _ rfl

end Sys2Proof.Machine
end

section
/-! SUPPORT. Frames received and peers (R11, R12, R20 to R24, R28, R29), and the settling of O19 and O20. -/

namespace Sys2Proof.Machine

/-! ## Received frames (R11, R12) -/

/-- The state in which a received frame has been read to its last CRC bit. -/
theorem receiveFrame_passes {handOn : State → State} {s : State} (hl : s.lu.state ≠ .offline) (hr : s.lu.receiving = true) :
    receiveFrame true handOn s = handOn (endReceiving s) :=
  (if_pos ⟨by simp [receives, hl], hr⟩).trans (if_pos rfl)

theorem receiveFrame_fails {handOn : State → State} {s : State} (hl : s.lu.state ≠ .offline) (hr : s.lu.receiving = true) :
    receiveFrame false handOn s = { count .crc s with lu := { s.lu with receiving := false, gap := true } } := by
  refine (if_pos ⟨by simp [receives, hl], hr⟩).trans ((if_neg Bool.false_ne_true).trans ?_)
  rw [count_frame .crc (endReceiving s), count_frame .crc s, count_counters (s := s) (t := endReceiving s) rfl rfl]
  rfl

/-- The kinds of control frame with their lengths (R11). -/
theorem kindLength_iff (kind : BitVec 3) (len : BitVec 7) : kindLength kind.toNat = some len.toNat
    ↔ (kind, len) ∈ [((1 : BitVec 3), (40 : BitVec 7)), (2, 32), (3, 8), (4, 6)] := by
  have hkind (n : BitVec 3) : kind = n ↔ kind.toNat = n.toNat := BitVec.toNat_inj.symm
  have hlen (n : BitVec 7) : len = n ↔ len.toNat = n.toNat := BitVec.toNat_inj.symm
  simp only [List.mem_cons, List.not_mem_nil, or_false, Prod.mk.injEq, hkind, hlen]
  unfold kindLength
  split
  case h_5 h1 h2 h3 h4 =>
    simp only [reduceCtorEq, false_iff, not_or, not_and]
    exact ⟨fun h => (h1 h).elim, fun h => (h2 h).elim, fun h => (h3 h).elim, fun h => (h4 h).elim⟩
  all_goals (simp; omega)

theorem RxControl.passes_iff (f : RxControl) : RxControl.passes f = true ↔ crc32 (rxControlBits f) = f.crc
    ∧ (f.kind, f.len) ∈ [((1 : BitVec 3), (40 : BitVec 7)), (2, 32), (3, 8), (4, 6)] := by
  rw [RxControl.passes, Bool.and_eq_true, beq_iff_eq, beq_iff_eq, kindLength_iff]

/-! ## Heard channels (R28, R29) -/

theorem takeHeard_own {f : RxAudio} {s : State} (h : f.node = s.settings.nodeId) : takeHeard f s = s := if_pos h

theorem takeHeard_arrives {f : RxAudio} {e : Entry} {s : State} (h : f.node ≠ s.settings.nodeId)
    (he : findEntry f.node f.slot s.cu.table = some e)
    (hnew : (e.arrival = none ∧ f.seq ≠ e.seq) ∨ ∃ p, e.arrival = some p ∧ p.block ≠ s.clock.blockCount) :
    takeHeard f s = changeEntry f.node f.slot (fun e => { e with arrival := some (arrivalOf f s.clock.blockCount) }) s := by
  refine (if_neg h).trans ?_
  rw [he]
  rcases hnew with ⟨ha, hs⟩ | ⟨p, ha, hb⟩
  · dsimp only
    rw [ha]
    exact if_neg hs
  · dsimp only
    rw [ha]
    exact if_neg hb

theorem takeHeard_repeats {f : RxAudio} {e : Entry} {s : State} (h : f.node ≠ s.settings.nodeId)
    (he : findEntry f.node f.slot s.cu.table = some e)
    (hold : (e.arrival = none ∧ f.seq = e.seq) ∨ ∃ p, e.arrival = some p ∧ p.block = s.clock.blockCount) :
    takeHeard f s = s := by
  refine (if_neg h).trans ?_
  rw [he]
  rcases hold with ⟨ha, hs⟩ | ⟨p, ha, hb⟩
  · dsimp only
    rw [ha]
    exact if_pos hs
  · dsimp only
    rw [ha]
    exact if_pos hb

theorem takeHeard_unknown {f : RxAudio} {s : State} (h : f.node ≠ s.settings.nodeId)
    (he : findEntry f.node f.slot s.cu.table = none) : takeHeard f s = if roomForHeard s then
      addEntry (newEntry f.node f.slot false (arrivalOf f s.clock.blockCount)) s else refuseChannel f.node f.slot s := by
  refine (if_neg h).trans ?_
  rw [he]

theorem refuseChannel_told {node slot : Fin 8} {s : State} (h : s.cu.fullReported = true) :
    refuseChannel node slot s = count .tableFull s := if_pos (by rw [count_frame]; exact h)

theorem refuseChannel_untold {node slot : Fin 8} {s : State} (h : s.cu.fullReported = false) : refuseChannel node slot s
    = { count .tableFull s with
      cp := s.cp.post ⟨.channelsFull, s.clock.blockCount, [word (node.val * 8 + slot.val), word s.cu.table.length]⟩
      cu := { s.cu with fullReported := true } } := by
  refine (if_neg (by rw [count_frame]; simp [h])).trans ?_
  rw [count_frame]
  rfl

/-! ## Marks that cut off a frame (R11) -/

theorem cutOff_silent {k : Nat} {s : State} (h : s.tx.sending = none) : cutOff k s = if receivingAt k s then
    count .truncated { s with lu := { s.lu with receiving := false, gap := false } }
      else { s with lu := { s.lu with receiving := false, gap := false } } := by
  rw [cutOff, truncateOwn, h]
  rfl

/-- Settles O19. -/
theorem receivedFrameIsCountedOrTaken : Obligations.ReceivedFrameIsCountedOrTaken := by
  refine ⟨⟨fun f s hl hr hp => ?invalid, RxControl.passes_iff, fun f s hp => congrArg Host.Outcome.next (if_pos hp)⟩,
    fun f s hl hr hp => ?audio, fun k s hs => ⟨fun h => ?cut, fun h hgap => ?after⟩⟩
  case invalid =>
    exact congrArg Host.Outcome.next ((if_neg (by simp [hp])).trans (receiveFrame_fails hl hr))
  case audio =>
    have hexec : exec (.audioFrameReceived f) s = .next (takeHeard f (endReceiving s)) := by
      refine congrArg Host.Outcome.next ?_
      rw [receiveAudio, hp]
      exact receiveFrame_passes hl hr
    rw [hexec]
    refine ⟨fun hn => congrArg Host.Outcome.next (takeHeard_own hn),
      fun e hn he hnew => congrArg Host.Outcome.next (takeHeard_arrives hn he hnew),
      fun e hn he hold => congrArg Host.Outcome.next (takeHeard_repeats hn he hold),
      fun hn he room => congrArg Host.Outcome.next ((takeHeard_unknown (s := endReceiving s) hn he).trans (if_pos (decide_eq_true room))),
      fun hn he full htold => ?told, fun hn he full htold => ?untold⟩
    case told =>
      refine congrArg Host.Outcome.next ((takeHeard_unknown (s := endReceiving s) hn he).trans
        ((if_neg ?_).trans (refuseChannel_told htold)))
      exact (decide_eq_false (Nat.not_lt.2 full)).trans_ne Bool.false_ne_true
    case untold =>
      refine congrArg Host.Outcome.next ((takeHeard_unknown (s := endReceiving s) hn he).trans
        ((if_neg ?_).trans (refuseChannel_untold htold)))
      exact (decide_eq_false (Nat.not_lt.2 full)).trans_ne Bool.false_ne_true
  case cut =>
    rw [cutOff_silent hs]
    refine if_pos ?_
    rcases h with h | ⟨hg, hk⟩
    · simp [receivingAt, h]
    · simp [receivingAt, hg, gapTimes, hk]
  case after =>
    rw [cutOff_silent hs]
    refine if_neg ?_
    rcases hgap with hg | hk
    · simp [receivingAt, h, hg]
    · simp [receivingAt, h, gapTimes, Nat.not_le.2 hk]

end Sys2Proof.Machine
end

section
/-! SUPPORT. The Air Queue under announces (R118, R119), and the settling of O20. -/

namespace Sys2Proof.Machine

/-! ## The entries of the Air Queue (R118) -/

theorem mem_airInsert (now : Word) (e x : AirEntry) (q : List AirEntry) : x ∈ airInsert now e q ↔ x = e ∨ x ∈ q := by
  induction q with
  | nil => simp [airInsert]
  | cons y rest ih =>
    unfold airInsert
    split
    · simp
    · rw [List.mem_cons, List.mem_cons, ih, or_left_comm]

/-- An entry put in its place is found there, or leaves what is found of another kind. -/
theorem find?_airInsert (now : Word) (e : AirEntry) (q : List AirEntry) (p : AirEntry → Bool) :
    (p e = true → q.find? p = none → (airInsert now e q).find? p = some e)
    ∧ (p e = false → (airInsert now e q).find? p = q.find? p) := by
  induction q with
  | nil => exact ⟨fun h _ => List.find?_cons_of_pos h, fun h => List.find?_cons_of_neg (by simp [h])⟩
  | cons y rest ih =>
    obtain ⟨hfound, hleft⟩ := ih
    unfold airInsert
    refine ⟨fun h hnone => ?_, fun h => ?_⟩
    · have hy : p y = false := by simpa using List.find?_eq_none.1 hnone y List.mem_cons_self
      have hrest : rest.find? p = none := by rwa [List.find?_cons, hy] at hnone
      split
      · exact List.find?_cons_of_pos h
      · rw [List.find?_cons, hy]
        exact hfound h hrest
    · split
      · exact List.find?_cons_of_neg (by simp [h])
      · rw [List.find?_cons, List.find?_cons, hleft h]

theorem airFind_add {n : Fin 8} {l : Fin 3} {st : Word} {s : State} (hc : s.settings.roles.caller = true)
    (h : airFind n l s = none) : airFind n l (airAdd n l st s) = some ⟨n, l, st⟩ := by
  rw [airFind, airAdd_queue n l st s hc h]
  exact (find?_airInsert _ _ _ _).1 (by simp) h

theorem airFind_add_other {n : Fin 8} {l j : Fin 3} {st : Word} {s : State} (hj : j ≠ l) :
    airFind n j (airAdd n l st s) = airFind n j s := by
  by_cases h : s.settings.roles.caller = true ∧ airFind n l s = none
  · rw [airFind, airAdd_queue n l st s h.1 h.2]
    exact (find?_airInsert _ _ _ _).2 (by simp [Ne.symm hj])
  · rw [airAdd, if_neg h]

theorem airFind_remove (n : Fin 8) (l : Fin 3) (s : State) : airFind n l (airRemove n l s) = none := by
  rw [airFind, airRemove_queue, List.find?_eq_none]
  intro e he
  simpa [imp_iff_not_or] using (List.mem_filter.1 he).2

theorem airFind_remove_other {n : Fin 8} {l j : Fin 3} (s : State) (hj : j ≠ l) :
    airFind n j (airRemove n l s) = airFind n j s := by
  rw [airFind, airRemove_queue, List.find?_filter]
  refine congrArg (fun p => s.ku.airQueue.find? p) (funext fun e => ?_)
  by_cases h : e.line = j
  · simp [h, hj, beq_eq_decide]
  · simp [h]

theorem airAdd_eq {n : Fin 8} {l : Fin 3} {st : Word} {s : State} (hc : s.settings.roles.caller = true)
    (h : airFind n l s = none) : airAdd n l st s = { s with
      cp := s.cp.post ⟨.airQueue, s.clock.blockCount, [word n, word (l.val + 1), word 0,
        word (airInsert s.clock.blockCount ⟨n, l, st⟩ s.ku.airQueue).length]⟩
      ku := { s.ku with airQueue := airInsert s.clock.blockCount ⟨n, l, st⟩ s.ku.airQueue } } := if_pos ⟨hc, h⟩

theorem airRemove_eq {n : Fin 8} {l : Fin 3} {e : AirEntry} {s : State} (h : airFind n l s = some e) :
    airRemove n l s = { s with
      cp := s.cp.post ⟨.airQueue, s.clock.blockCount, [word n, word (l.val + 1), word 1,
        word (s.ku.airQueue.filter fun e => !(e.node == n && e.line == l)).length]⟩
      ku := { s.ku with airQueue := s.ku.airQueue.filter fun e => !(e.node == n && e.line == l) } } := by
  rw [airRemove, h]
  rfl

/-! ## One line summary (R119) -/

/-- A line summary that leaves the Air Queue as it is. -/
def AirQuiet (n : Fin 8) (l : Fin 3) (x : LineSummary) (s : State) : Prop :=
  (x.state = .ready ∧ ∃ e, airFind n l s = some e
    ∧ ((s.clock.blockCount - e.stamp).toNat ≤ x.age + 24 ∨ x.age = 65535))
  ∨ (x.state ≠ .ready ∧ airFind n l s = none)

theorem airRemove_none {n : Fin 8} {l : Fin 3} {s : State} (h : airFind n l s = none) : airRemove n l s = s := by
  rw [airRemove, h]

theorem airSummary_not {n : Fin 8} {l : Fin 3} {x : LineSummary} {s : State} (h : x.state ≠ .ready) :
    airSummary n l x s = airRemove n l s := if_neg h

theorem airSummary_new {n : Fin 8} {l : Fin 3} {x : LineSummary} {s : State} (h : x.state = .ready)
    (hn : airFind n l s = none) : airSummary n l x s = airAdd n l (s.clock.blockCount - word x.age) s := by
  refine (if_pos h).trans ?_
  rw [hn]

theorem airSummary_known {n : Fin 8} {l : Fin 3} {x : LineSummary} {e : AirEntry} {s : State} (h : x.state = .ready)
    (he : airFind n l s = some e) : airSummary n l x s
      = if (s.clock.blockCount - e.stamp).toNat ≤ x.age + 24 ∨ x.age = 65535 then s
        else airAdd n l (s.clock.blockCount - word x.age) (airRemove n l s) := by
  refine (if_pos h).trans ?_
  rw [he]
  rfl

theorem airSummary_quiet {n : Fin 8} {l : Fin 3} {x : LineSummary} {s : State} (h : AirQuiet n l x s) :
    airSummary n l x s = s := by
  rcases h with ⟨hr, e, he, hk⟩ | ⟨hr, hn⟩
  · rw [airSummary_known hr he, if_pos hk]
  · rw [airSummary_not hr, airRemove_none hn]

theorem AirOnly.refl (s : State) : AirOnly s s := ⟨rfl, .refl _⟩

theorem AirOnly.trans {a b c : State} (h : AirOnly a b) (k : AirOnly b c) : AirOnly a c :=
  ⟨by rw [k.frame, h.frame], h.posted.trans k.posted⟩

theorem airSummary_only (n : Fin 8) (l : Fin 3) (x : LineSummary) (s : State) : AirOnly s (airSummary n l x s) := by
  unfold airSummary
  dsimp only
  split
  · split
    · exact airAdd_only ..
    · split
      · exact .refl s
      · exact (airRemove_only n l s).trans (airAdd_only ..)
  · exact airRemove_only ..

/-- A line summary leaves the entries of other lines. -/
theorem airFind_summary_other {n : Fin 8} {l j : Fin 3} (x : LineSummary) (s : State) (hj : j ≠ l) :
    airFind n j (airSummary n l x s) = airFind n j s := by
  unfold airSummary
  dsimp only
  split
  · split
    · exact airFind_add_other hj
    · split
      · rfl
      · exact (airFind_add_other hj).trans (airFind_remove_other s hj)
  · exact airFind_remove_other s hj

/-- A line summary leaves the entries of other nodes. -/
theorem mem_airSummary_other {n : Fin 8} {l : Fin 3} {x : LineSummary} {s : State} {e : AirEntry} (he : e.node ≠ n) :
    e ∈ (airSummary n l x s).ku.airQueue ↔ e ∈ s.ku.airQueue := by
  have hadd (st : Word) (u : State) : e ∈ (airAdd n l st u).ku.airQueue ↔ e ∈ u.ku.airQueue := by
    by_cases h : u.settings.roles.caller = true ∧ airFind n l u = none
    · rw [airAdd_queue n l st u h.1 h.2, mem_airInsert]
      exact ⟨fun k => k.resolve_left fun k => he (by rw [k]), .inr⟩
    · rw [airAdd, if_neg h]
  have hremove (u : State) : e ∈ (airRemove n l u).ku.airQueue ↔ e ∈ u.ku.airQueue := by
    rw [airRemove_queue, List.mem_filter]
    simp [he]
  unfold airSummary
  dsimp only
  split
  · split
    · exact hadd _ _
    · split
      · rfl
      · exact (hadd _ _).trans (hremove s)
  · exact hremove s

/-! ## All line summaries (R119) -/

/-- The three summaries of an announce, one after another. -/
def airLines (n : Fin 8) (lines : Tab LineSummary 3) (ls : List (Fin 3)) (s : State) : State :=
  forEach ls (fun l => airSummary n l (Tab.at lines l)) s

theorem airAnnounce_caller {n : Fin 8} {b : AnnounceBody} {s : State} (h : s.settings.roles.caller = true) :
    airAnnounce n b s = airLines n b.lines allLines s := if_pos h

theorem airAnnounce_none {n : Fin 8} {b : AnnounceBody} {s : State} (h : s.settings.roles.caller = false) :
    airAnnounce n b s = s := if_neg (by simp [h])

section lines

variable (n : Fin 8) (lines : Tab LineSummary 3)

theorem airLines_cons (l : Fin 3) (ls : List (Fin 3)) (s : State) :
    airLines n lines (l :: ls) s = airLines n lines ls (airSummary n l (Tab.at lines l) s) := rfl

theorem airLines_only (ls : List (Fin 3)) (s : State) : AirOnly s (airLines n lines ls s) := by
  induction ls generalizing s with
  | nil => exact .refl s
  | cons l ls ih => exact (airSummary_only n l _ s).trans (ih _)

theorem mem_airLines_other {e : AirEntry} (he : e.node ≠ n) (ls : List (Fin 3)) (s : State) :
    e ∈ (airLines n lines ls s).ku.airQueue ↔ e ∈ s.ku.airQueue := by
  induction ls generalizing s with
  | nil => rfl
  | cons l ls ih => exact (ih _).trans (mem_airSummary_other he)

theorem airFind_airLines_other {l : Fin 3} {ls : List (Fin 3)} (hl : l ∉ ls) (s : State) :
    airFind n l (airLines n lines ls s) = airFind n l s := by
  induction ls generalizing s with
  | nil => rfl
  | cons j ls ih =>
    obtain ⟨hne, hrest⟩ := not_or.1 (List.mem_cons.not.1 hl)
    exact (ih hrest _).trans (airFind_summary_other _ s hne)

/-- What a line's own summary makes of its entry stands after all of them. -/
theorem airFind_airLines {l : Fin 3} {ls : List (Fin 3)} (hl : l ∈ ls) (hd : ls.Nodup) (s : State) : ∃ u, AirOnly s u
    ∧ airFind n l u = airFind n l s
    ∧ airFind n l (airLines n lines ls s) = airFind n l (airSummary n l (Tab.at lines l) u) := by
  induction ls generalizing s with
  | nil => exact nomatch hl
  | cons j ls ih =>
    obtain ⟨hnot, hrest⟩ := List.nodup_cons.1 hd
    rcases List.mem_cons.1 hl with rfl | hl
    · exact ⟨s, .refl s, rfl, airFind_airLines_other n lines hnot _⟩
    · obtain ⟨u, hu, hfind, hall⟩ := ih hl hrest (airSummary n j (Tab.at lines j) s)
      have hne : l ≠ j := fun h => hnot (h ▸ hl)
      exact ⟨u, (airSummary_only n j _ s).trans hu, hfind.trans (airFind_summary_other _ s hne), hall⟩

theorem airLines_quiet {ls : List (Fin 3)} {s : State} (h : ∀ l ∈ ls, AirQuiet n l (Tab.at lines l) s) :
    airLines n lines ls s = s := by
  induction ls with
  | nil => rfl
  | cons l ls ih =>
    rw [airLines_cons, airSummary_quiet (h l List.mem_cons_self)]
    exact ih fun j hj => h j (List.mem_cons_of_mem _ hj)

/-- Where every other line's summary changes nothing, one line's summary does all. -/
theorem airLines_one {l : Fin 3} {ls : List (Fin 3)} {s : State} (hl : l ∈ ls) (hd : ls.Nodup)
    (h : ∀ j ∈ ls, j ≠ l → AirQuiet n j (Tab.at lines j) s) :
    airLines n lines ls s = airSummary n l (Tab.at lines l) s := by
  induction ls with
  | nil => exact nomatch hl
  | cons j ls ih =>
    obtain ⟨hnot, hrest⟩ := List.nodup_cons.1 hd
    rw [airLines_cons]
    by_cases hj : j = l
    · subst hj
      refine airLines_quiet n lines fun k hk => ?_
      have hne : k ≠ j := fun e => hnot (e ▸ hk)
      have hclock : (airSummary n j (Tab.at lines j) s).clock = s.clock := by rw [(airSummary_only n j _ s).frame]
      have hk := h k (List.mem_cons_of_mem _ hk) hne
      rwa [AirQuiet, airFind_summary_other _ s hne, hclock]
    · rw [airSummary_quiet (h j List.mem_cons_self hj)]
      exact ih ((List.mem_cons.1 hl).resolve_left (Ne.symm hj)) hrest fun k hk => h k (List.mem_cons_of_mem _ hk)

end lines

/-! ## An announce from another node (R23, R154) -/

/-- PEER_STATE for node `k` (R23). -/
def notePeer (k : Fin 8) (n : Nat) (s : State) (cp : ControlPort) : ControlPort :=
  cp.post ⟨.peerState, s.clock.blockCount, [word k, word n]⟩

/-- What PEER_STATE tells of the entry that an announce replaces (R23). -/
def peerSeen (k : Fin 8) (b : AnnounceBody) (s : State) : ControlPort :=
  let old := Tab.at s.peers k
  if old.state = .absent then notePeer k 1 s s.cp else
    let back := if old.state = .lost then notePeer k 1 s s.cp else s.cp
    if old.stamp = b.stamp then back else notePeer k 3 s back

/-- The Peer Table at an announce from another node. -/
theorem updatePeer_eq (k : Fin 8) (b : AnnounceBody) (s : State) : updatePeer k b s = { s with
    cp := peerSeen k b s, peers := s.peers.put k ⟨.present, b.stamp, b.roles, 0, some b⟩ } := by
  unfold updatePeer peerSeen
  dsimp only
  split
  case h_1 habsent =>
    rw [if_pos habsent]
    rfl
  case h_2 hnot =>
    rw [if_neg (c := (Tab.at s.peers k).state = .absent) hnot]
    by_cases hlost : (Tab.at s.peers k).state = .lost
    · rw [if_pos hlost, if_pos hlost]
      by_cases hstamp : (Tab.at s.peers k).stamp = b.stamp
      · rw [if_pos hstamp, if_pos hstamp]; rfl
      · rw [if_neg hstamp, if_neg hstamp]; rfl
    · rw [if_neg hlost, if_neg hlost]
      by_cases hstamp : (Tab.at s.peers k).stamp = b.stamp
      · rw [if_pos hstamp, if_pos hstamp]; rfl
      · rw [if_neg hstamp, if_neg hstamp]; rfl

theorem confirmFrom_unseen {b : AnnounceBody} {s : State} (h : b.roles.link = false ∨ b.echo = none) :
    confirmFrom b s = s := by
  unfold confirmFrom
  split
  case h_1 hl he =>
    rcases h with h | h
    · exact absurd (hl.symm.trans h) (by decide)
    · exact nomatch he.symm.trans h
  case h_2 => rfl

theorem confirmFrom_echo {b : AnnounceBody} {id : Nat} {s : State} (hl : b.roles.link = true) (he : b.echo = some id) :
    confirmFrom b s = confirmAlert id s := by
  rw [confirmFrom, hl, he]

/-- An echo of no own record, or of one confirmed already, changes nothing (R154). -/
theorem confirmAlert_none {id : Nat} {s : State}
    (h : ∀ r ∈ s.au.table, r.id = id → r.id / 256 ≠ s.settings.nodeId.val ∨ r.confirmed = true) :
    confirmAlert id s = s := by
  unfold confirmAlert
  split
  case h_1 r hr =>
    refine if_neg fun ⟨hown, hconf⟩ => ?_
    rcases h r (List.mem_of_find?_eq_some hr) (by simpa using List.find?_some hr) with k | k
    · exact k ((own_iff r s).1 hown)
    · rw [k] at hconf
      exact nomatch hconf
  case h_2 => rfl

/-- The first echo of an own record confirms it (R154). -/
theorem confirmAlert_first {r : Alert} {id : Nat} {s : State} (h : Sole r s) (hid : r.id = id)
    (hown : r.id / 256 = s.settings.nodeId.val) (hc : r.confirmed = false) : confirmAlert id s
      = post .alertConfirmed [word id] (changeAlert id (fun _ => { r with confirmed := true }) s) := by
  rw [confirmAlert, alertOf_at h hid]
  refine (if_pos ⟨(own_iff r s).2 hown, hc⟩).trans ?_
  rw [changeAlert_sole h hid]

theorem confirmAlert_frame (id : Nat) (s : State) :
    confirmAlert id s = { s with cp := (confirmAlert id s).cp, au := (confirmAlert id s).au } := by
  unfold confirmAlert
  split
  · split <;> rfl
  · rfl

theorem confirmFrom_frame (b : AnnounceBody) (s : State) :
    confirmFrom b s = { s with cp := (confirmFrom b s).cp, au := (confirmFrom b s).au } := by
  unfold confirmFrom
  split
  · exact confirmAlert_frame _ s
  · rfl

/-! ## An announce bearing the own id (R20) -/

theorem duplicateCheck_mutes {b : AnnounceBody} {s : State}
    (h : s.lu.state = .listening ∨ (s.lu.state = .joined ∧ b.stamp ≠ s.lu.stamp)) :
    duplicateCheck b s = enterMuted .heard s := by
  unfold duplicateCheck
  rcases h with h | ⟨h, hs⟩
  · rw [h]
  · rw [h]
    exact if_neg hs

theorem duplicateCheck_discards {b : AnnounceBody} {s : State}
    (h : s.lu.state = .muted ∨ (s.lu.state = .joined ∧ b.stamp = s.lu.stamp)) : duplicateCheck b s = s := by
  unfold duplicateCheck
  rcases h with h | ⟨h, hs⟩
  · rw [h]
  · rw [h]
    exact if_pos hs

/-- Entry to MUTED, whatever the state before it. -/
theorem enterMuted_frame (c : DuplicateCause) (s : State) : SeatFrame (mutedAlone c s) (enterMuted c s) := by
  by_cases h : s.lu.state = .joined
  · rw [enterMuted_joined h]
    exact seatFrame_leaves _
  · rw [enterMuted_apart h]
    exact ⟨rfl⟩

theorem enterMuted_noSeat {c : DuplicateCause} {s : State} (h : s.settings.roles.playout = false) :
    enterMuted c s = mutedAlone c s := by
  by_cases hj : s.lu.state = .joined
  · rw [enterMuted_joined hj, seatLeavesLine_none (by exact h)]
  · exact enterMuted_apart hj

theorem enterMuted_posted (c : DuplicateCause) (s : State) :
    Posted (s.cp.post ⟨.duplicateId, s.clock.blockCount, [word c.ctorIdx]⟩) (enterMuted c s).cp := by
  by_cases h : s.lu.state = .joined
  · rw [enterMuted_joined h]
    exact (seatLeavesLine_steady (.refl (mutedAlone c s))).posted
  · rw [enterMuted_apart h]
    exact .refl _

/-! ## Silent peers (R24) -/

theorem airDropOwner_only (k : Fin 8) (s : State) : AirOnly s (airDropOwner k s) :=
  ((airRemove_only k 0 s).trans (airRemove_only k 1 _)).trans (airRemove_only k 2 _)

/-- The callers of a node leave the Air Queue, and no other entry does (R120). -/
theorem airDropOwner_queue (k : Fin 8) (s : State) :
    (airDropOwner k s).ku.airQueue = s.ku.airQueue.filter fun e => e.node != k := by
  change (airRemove k 2 (airRemove k 1 (airRemove k 0 s))).ku.airQueue = _
  rw [airRemove_queue, airRemove_queue, airRemove_queue, List.filter_filter, List.filter_filter]
  refine List.filter_congr fun e _ => ?_
  have hline : e.line = 0 ∨ e.line = 1 ∨ e.line = 2 := by omega
  by_cases hn : e.node = k
  · rcases hline with h | h | h <;> simp [hn, h]
  · have hnode : (e.node == k) = false := beq_eq_false_iff_ne.2 hn
    simp [hnode, bne]

/-- The heard records of a list leave the table, and nothing but that and their notices changes. -/
theorem endHeards_frame (l : List Alert) (why : HeardEnd) (s : State) : ∃ cp,
    forEach l (fun r => endHeard r.id why) s
      = { s with cp := cp, au := { s.au with table := s.au.table.filter fun x => ∀ r ∈ l, x.id ≠ r.id } } := by
  induction l generalizing s with
  | nil => exact ⟨s.cp, by simp [forEach]⟩
  | cons r l ih =>
    obtain ⟨cp, hrest⟩ := ih (endHeard r.id why s)
    refine ⟨cp, (forEach_cons ..).trans (hrest.trans ?_)⟩
    have htable : (s.au.table.filter fun x => x.id != r.id).filter (fun x => ∀ q ∈ l, x.id ≠ q.id)
        = s.au.table.filter fun x => ∀ q ∈ r :: l, x.id ≠ q.id := by
      rw [List.filter_filter]
      exact List.filter_congr fun x _ => by by_cases hx : x.id = r.id <;> simp [hx]
    rw [← htable]
    rfl

/-- An origin's records leave the table (R145). -/
theorem loseOrigin_frame (k : Fin 8) (s : State) : ∃ cp table, loseOrigin k s
    = { s with cp := cp, au := { s.au with table := table } }
      ∧ ∀ r ∈ table, r.own s = false → r.id / 256 ≠ k.val := by
  obtain ⟨cp, h⟩ := endHeards_frame (s.au.table.filter fun r => !r.own s && r.id / 256 == k.val) .originLost s
  refine ⟨cp, _, h, fun r hr hown hk => ?_⟩
  obtain ⟨hmem, hnot⟩ := List.mem_filter.1 hr
  exact (of_decide_eq_true hnot) r (List.mem_filter.2 ⟨hmem, by simp [hown, hk]⟩) rfl

/-! ## ANNOUNCE_RECEIVED -/

/-- The state in which another node's announce has been taken into the Peer Table. -/
def peerTaken (f : RxControl) (s : State) : State :=
  { endReceiving s with
    cp := peerSeen f.node (parseAnnounce f.body) (endReceiving s)
    peers := s.peers.put f.node ⟨.present, (parseAnnounce f.body).stamp, (parseAnnounce f.body).roles, 0,
      some (parseAnnounce f.body)⟩ }

section received

variable {f : RxControl} {s : State} (hl : s.lu.state ≠ .offline) (hr : s.lu.receiving = true)
  (hp : RxControl.passes f = true) (hk : f.kind = 1)

include hl hr hp hk

theorem announceReceived_taken : exec (.announceReceived f) s
    = .next (takeAnnounce f.node (parseAnnounce f.body) (endReceiving s)) := by
  refine congrArg Host.Outcome.next ?_
  rw [receiveAnnounce, receiveControl, hp, receiveFrame_passes hl hr]
  exact if_pos (by rw [hk]; rfl)

theorem announceReceived_other (hn : f.node ≠ s.settings.nodeId) : exec (.announceReceived f) s
    = .next (confirmFrom (parseAnnounce f.body) (airAnnounce f.node (parseAnnounce f.body) (peerTaken f s))) := by
  refine (announceReceived_taken hl hr hp hk).trans (congrArg Host.Outcome.next ((if_neg hn).trans ?_))
  rw [updatePeer_eq]
  rfl

theorem announceReceived_own (hn : f.node = s.settings.nodeId) : exec (.announceReceived f) s
    = .next (duplicateCheck (parseAnnounce f.body) (endReceiving s)) :=
  (announceReceived_taken hl hr hp hk).trans (congrArg Host.Outcome.next (if_pos hn))

end received

theorem mem_allLines (l : Fin 3) : l ∈ allLines := by revert l; decide

theorem airAnnounce_only (n : Fin 8) (b : AnnounceBody) (s : State) : AirOnly s (airAnnounce n b s) := by
  unfold airAnnounce
  split
  · exact airLines_only n b.lines allLines s
  · exact .refl s

/-- Settles O20. -/
theorem announcesAreTakenAndSent : Obligations.AnnouncesAreTakenAndSent := by
  refine ⟨fun f s hl hr hp hk => ?received, fun s hj hdue room => ⟨?due, rfl, rfl, fun h => ?seat, fun h => ?link, fun h l => ?lines⟩,
    fun k s hst hsince => ?lost, fun k s hst hsince => ?absent, fun k s => ⟨fun h => ⟨_, rfl, ?tick⟩, fun h h' => ?still⟩⟩
  case received =>
    intro b s' peers old note seen line stamp kept quiet queue without placed told unseen
    refine ⟨fun hn => ?other, fun hn h => ?discards, fun hn h => ?mutes⟩
    case discards =>
      exact (announceReceived_own hl hr hp hk hn).trans (congrArg Host.Outcome.next (duplicateCheck_discards h))
    case mutes =>
      have hframe := (enterMuted_frame .heard s').frame
      refine ⟨enterMuted .heard s', (announceReceived_own hl hr hp hk hn).trans
        (congrArg Host.Outcome.next (duplicateCheck_mutes h)), ?_, ?_, ?_, ?_, ?_, ?_, fun hp => ?_⟩
      · rw [hframe]; rfl
      · rw [hframe]; rfl
      · rw [hframe]; rfl
      · rw [hframe]; rfl
      · exact (enterMuted_steady .heard (.refl s')).posted
      · exact enterMuted_posted .heard s'
      · rw [enterMuted_noSeat (s := s') hp]
        exact ⟨rfl, rfl⟩
    case other =>
      have hother := announceReceived_other hl hr hp hk hn
      have hair : AirOnly (peerTaken f s) (airAnnounce f.node b (peerTaken f s)) := airAnnounce_only ..
      have hnone (hc : s.settings.roles.caller = false) : airAnnounce f.node b (peerTaken f s) = peerTaken f s :=
        airAnnounce_none hc
      have hlines (hc : s.settings.roles.caller = true) :
          airAnnounce f.node b (peerTaken f s) = airLines f.node b.lines allLines (peerTaken f s) := airAnnounce_caller hc
      generalize hA : airAnnounce f.node b (peerTaken f s) = A at hother hair hnone hlines
      have hconf := confirmFrom_frame b A
      have hunseen (h : unseen) : confirmFrom b A = A := confirmFrom_unseen h
      have hau : A.au = s.au := by rw [hair.frame]; rfl
      have hclock : A.clock = s.clock := by rw [hair.frame]; rfl
      have hset : A.settings = s.settings := by rw [hair.frame]; rfl
      have hku : (confirmFrom b A).ku = A.ku := by rw [hconf]
      refine ⟨confirmFrom b A, hother, ?_, ?_, fun h => ?_, fun hc => ?_, fun hc h => ?_,
        fun id hlink hecho => ⟨fun hno => ?_, fun r hsole hid hown hunc => ?_⟩, fun hc => ?_⟩
      · exact hair.posted.trans (confirmFrom_steady b (.refl A)).posted
      · rw [hconf, hair.frame]
        rfl
      · rw [hunseen h, hau]
      · rw [hku, hnone hc]
        rfl
      · rw [hunseen h, hnone hc]
        rfl
      · have hsame : confirmFrom b A = A := (confirmFrom_echo hlink hecho).trans (confirmAlert_none (by rw [hau, hset]; exact hno))
        rw [hsame]
        exact ⟨hau, fun hc => by rw [hnone hc]; rfl⟩
      · have hfirst : confirmFrom b A
            = post .alertConfirmed [word id] (changeAlert id (fun _ => { r with confirmed := true }) A) :=
          (confirmFrom_echo hlink hecho).trans (confirmAlert_first (by rw [Sole, hau]; exact hsole) hid (by rw [hset]; exact hown) hunc)
        rw [hfirst]
        refine ⟨?_, ⟨A.cp, hair.posted, ?_⟩, fun hc => ?_⟩
        · rw [post_au, changeAlert, hau]
        · rw [post_eq, ← hclock]
          rfl
        · rw [hnone hc]
          rfl
      · have hfind (l : Fin 3) : airFind f.node l (confirmFrom b A) = airFind f.node l A := by rw [airFind, airFind, hku]
        have hA := hlines hc
        refine ⟨fun e he => ?_, fun l => ?_, fun h hquiet => ?_, fun l h hquiet => ?_⟩
        · rw [hku, hA]
          exact mem_airLines_other f.node b.lines he allLines _
        · obtain ⟨v, hv, hbefore, hafter⟩ := airFind_airLines f.node b.lines (mem_allLines l) (by decide) (peerTaken f s)
          have hvclock : v.clock = s.clock := by rw [hv.frame]; rfl
          have hvcaller : v.settings.roles.caller = true := by rw [hv.frame]; exact hc
          rw [hfind, hA, hafter]
          refine ⟨fun hready => ?_, fun hready hno => ?_, fun e hready he => ⟨fun hkept => ?_, fun hkept => ?_⟩⟩
          · rw [airSummary_not hready, airFind_remove]
          · rw [airSummary_new hready (hbefore.trans hno), airFind_add hvcaller (hbefore.trans hno), hvclock]
          · rw [airSummary_known hready (hbefore.trans he), hvclock, if_pos hkept]
            exact hbefore.trans he
          · rw [airSummary_known hready (hbefore.trans he), hvclock, if_neg hkept]
            exact airFind_add (by rw [(airRemove_only f.node l v).frame]; exact hvcaller) (airFind_remove f.node l v)
        · rw [hunseen h, hA, airLines_quiet f.node b.lines (s := peerTaken f s) fun l _ => hquiet l]
          exact ⟨rfl, rfl⟩
        · have hone := airLines_one f.node b.lines (mem_allLines l) (by decide) (s := peerTaken f s) fun j _ hj => hquiet j hj
          rw [hunseen h, hA, hone]
          refine ⟨fun hready hno => ?_, fun e he => ⟨fun hready => ?_, fun hready hkept => ?_⟩⟩
          · rw [airSummary_new (x := Tab.at b.lines l) (s := peerTaken f s) hready hno, airAdd_eq (s := peerTaken f s) hc hno]
            exact ⟨rfl, rfl⟩
          · rw [airSummary_not (x := Tab.at b.lines l) hready, airRemove_eq (s := peerTaken f s) he]
            exact ⟨rfl, rfl⟩
          · have hremove := airRemove_eq (s := peerTaken f s) he
            rw [airSummary_known (x := Tab.at b.lines l) (s := peerTaken f s) hready he, if_neg (by exact hkept),
              airAdd_eq (by rw [hremove]; exact hc) (airFind_remove ..), hremove]
            exact ⟨rfl, rfl⟩
  case due => exact congrArg Host.Outcome.next ((if_pos ⟨by simp [joined, hj], hdue⟩).trans (queueAnnounce_room room))
  case seat => simp [announceBody, h]
  case link => simp [announceBody, h]
  case lines => simp [announceBody, h]
  case lost =>
    let u : State := postPeer k .lost (setPeer k { Tab.at s.peers k with state := .lost } s)
    have hair := (airDropOwner_only k u).frame
    have hqueue := airDropOwner_queue k u
    obtain ⟨cp, table, hframe, htable⟩ := loseOrigin_frame k (airDropOwner k u)
    refine ⟨loseOrigin k (airDropOwner k u), congrArg Host.Outcome.next (if_pos ⟨hst, hsince⟩),
      (loseOrigin_steady k (airDropOwner_steady k (.refl u))).posted, ?_, fun e he => ?_, fun r hr hown => ?_, fun e he hn => ?_⟩
    · rw [hframe, hair]
      rfl
    · rw [hframe] at he
      rw [hqueue] at he
      simpa using (List.mem_filter.1 he).2
    · rw [hframe] at hr
      refine htable r hr ?_
      rw [hair]
      exact hown
    · rw [hframe]
      rw [hqueue]
      exact List.mem_filter.2 ⟨he, by simpa using hn⟩
  case absent =>
    let u : State := postPeer k .absent (setPeer k Peer.absent s)
    obtain ⟨cp, table, hframe, htable⟩ := loseOrigin_frame k u
    refine ⟨loseOrigin k u, congrArg Host.Outcome.next (if_pos ⟨hst, hsince⟩),
      (loseOrigin_steady k (.refl u)).posted, ?_, fun r hr hown => ?_⟩
    · rw [hframe]
      rfl
    · rw [hframe] at hr
      exact htable r hr hown
  case tick => exact congrArg Host.Outcome.next (Eq.symm (if_pos h))
  case still => exact if_neg fun k => k.elim h h'

end Sys2Proof.Machine
end

section
/-! SUPPORT. Commands that read (R13, R40, R79, R105, R130, R191), and the settling of O21. -/

namespace Sys2Proof.Machine

/-- A table's values in the order of their places. -/
theorem toList_eq_finRange {α : Type} {n : Nat} (v : Tab α n) : v.toList = (List.finRange n).map (Tab.at v) := by
  refine List.ext_getElem (by simp) fun i h₁ h₂ => ?_
  rw [List.getElem_map, List.getElem_finRange]
  rfl

/-- A command that only reads answers with what it reads, and nothing but the port changes. -/
theorem readRow {s : State} {i : Instr} {m : CommandMessage} (h : Running s i m) {f : State → Reply} {d : List Word}
    (hf : f s = .okWith d) : hostRow i (reading f) s = .next (answer m .ok d s) :=
  (hostRow_running h (reading f)).trans (by rw [reading, hf]; rfl)

theorem count_counted (c : Counter) (s : State) : (count c s).counters = if Tab.at s.settings.counterEnable c.index then
    s.counters.put c.index (bump 65535 (Tab.at s.counters c.index)) else s.counters := by
  unfold count
  split <;> rfl

/-- Settles O21. -/
theorem readCommandsReturnTheirState : Obligations.ReadCommandsReturnTheirState := by
  refine ⟨⟨fun m s h => ?counters, fun c s => ⟨count_frame c s, ?counted, fun d hd => ?others⟩⟩, fun m s hsite => ?_⟩
  case counters => exact (hostRow_running h readCountersCommand).trans (by rw [readCountersCommand, toList_eq_finRange, List.map_map]; rfl)
  case counted =>
    rw [count_counted]
    split
    · exact (Tab.at_put _ _ _ _).trans (if_pos rfl)
    · rfl
  case others =>
    rw [count_counted]
    split
    · exact Tab.at_put_ne _ _ hd
    · rfl
  have hstudio {i : Instr} (h : Running s i m) : ¬atSite s = true := by rw [atSite_iff h.running, hsite]; decide
  refine ⟨fun h => readRow h (if_neg (hstudio h)), fun h => readRow h (if_neg (hstudio h)), fun w c hw h => readRow h ?clip,
    fun w g hw h => readRow h ?group, fun w n hw h => ⟨_, rfl, readRow h ?extents⟩, fun hp h => readRow h (if_neg (by simp [hp])),
    fun h => readRow h ?seat, fun hc h => readRow h ?lines, fun hc h => readRow h (if_neg (by simp [hc])),
    fun h => readRow h (if_neg (hstudio h)), fun h => readRow h (if_neg (hstudio h))⟩
  case clip => rw [readClipReply, hw, index?_val]; rfl
  case group => rw [readGroupReply, hw, index?_val]
  case extents =>
    rw [readExtentsReply, index?_eq_some.2 (show (⟨w.toNat, hw⟩ : Fin 512).val = w.toNat from rfl)]
    have htake : (s.cs.owner.toList.drop w.toNat).take (min (clampNat 1 64 n.toNat) (512 - w.toNat))
        = (s.cs.owner.toList.drop w.toNat).take (max 1 (min 64 n.toNat)) := by
      rw [List.take_eq_take_iff, List.length_drop, Vector.length_toList, clampNat]
      omega
    exact congrArg (fun l : List (Option (Fin 256)) => Reply.okWith (word l.length :: l.map (fun o => wordOpt (o.map Fin.val))
      ++ [word (s.cs.owner.toList.filter Option.isNone).length, word (fillFree s)])) htake
  case seat =>
    refine (if_neg (hstudio h)).trans ?_
    by_cases hp : s.settings.roles.playout = true
    · rw [if_pos hp]; exact if_neg (by simp [hp])
    · rw [if_neg hp]; exact if_pos (by simp [hp])
  case lines =>
    refine (if_neg (by simp [hc])).trans ?_
    rw [toList_eq_finRange, List.flatMap_map]
    rfl

end Sys2Proof.Machine
end

section
/-! SUPPORT. The Contribution Unit (R31 to R37), and the settling of O22. -/

namespace Sys2Proof.Machine

/-! ## The presence decision (R31 to R34) -/

theorem decideEntry_arrived {now : Word} {e : Entry} {a : Arrival} (h : e.arrival = some a) (hb : a.block = now) :
    decideEntry now e = some { e with
      tier := a.tier, air := a.air, cue := a.cue, mono := a.mono, tag := a.tag
      presence := .present, missing := 0, arrival := none
      samples := a.samples, seq := a.seq, endPending := a.last } := by
  have hfilter : (e.arrival.filter fun a => a.block == now) = some a := by rw [h]; simp [hb]
  rw [decideEntry, hfilter]

theorem decideEntry_missed {now : Word} {e : Entry} (h : ∀ a, e.arrival = some a → a.block ≠ now) :
    decideEntry now e = if e.endPending then none
      else if e.missing = 0 then some { e with presence := .concealed, missing := 1, arrival := none }
      else some { e with presence := .stale, missing := e.missing + 1, arrival := none } := by
  have hfilter : (e.arrival.filter fun a => a.block == now) = none := by
    rw [Option.filter_eq_none_iff]
    intro a ha
    simpa using h a ha
  rw [decideEntry, hfilter]

/-- An entry's missing count increases by at most 1. -/
theorem decideEntry_missing {now : Word} {e d : Entry} (h : decideEntry now e = some d) : d.missing ≤ e.missing + 1 := by
  unfold decideEntry at h
  split at h
  · obtain rfl := Option.some.inj h
    exact Nat.zero_le _
  · split at h
    · exact nomatch h
    · split at h <;> obtain rfl := Option.some.inj h <;> dsimp only <;> omega

/-- Where no entry runs out, none is removed by CHANNEL_GONE. -/
theorem presenceDecision_kept {closing : Word} {s : State} (h : ∀ e ∈ s.cu.table, e.missing < 63) :
    presenceDecision closing s = recomputeTiers (decideAll closing s) := by
  have hgone : (decideAll closing s).cu.table.filter Entry.gone = [] := by
    refine List.filter_eq_nil_iff.2 fun d hd => ?_
    obtain ⟨e, he, hde⟩ := List.mem_filterMap.1 hd
    have hle := decideEntry_missing hde
    have hlt := h e he
    simp [Entry.gone]
    omega
  rw [presenceDecision, hgone]
  rfl

theorem removeGone_gone {node slot : Fin 8} {e : Entry} {s : State} (h : findEntry node slot s.cu.table = some e)
    (hm : 64 ≤ e.missing) : removeGone node slot s = { s with
      cp := s.cp.post ⟨.channelGone, s.clock.blockCount, [word (node.val * 8 + slot.val), word e.tier.ctorIdx, wordFlag e.air]⟩
      cu := { s.cu with
        table := s.cu.table.filter fun x => !(x.node == node && x.slot == slot), fullReported := false } } := by
  rw [removeGone, h]
  exact if_pos (decide_eq_true hm)

/-! ## Tiers and weights (R35 to R37) -/

theorem recomputeTiers_eq (s : State) : recomputeTiers s = { s with
    cp := if highestTier (activeTiers s.cu.table) ≠ s.cu.inForce then s.cp.post ⟨.tierChange, s.clock.blockCount,
        [tierWord s.cu.inForce, tierWord (highestTier (activeTiers s.cu.table))]⟩ else s.cp
    cu := { s.cu with
      active := activeTiers s.cu.table
      inForce := highestTier (activeTiers s.cu.table)
      targets := duckTargets s.settings.duck (activeTiers s.cu.table)
      weights := stepWeights (duckTargets s.settings.duck (activeTiers s.cu.table)) s.cu.weights } } := by
  unfold recomputeTiers postIf
  dsimp only
  by_cases h : highestTier (activeTiers s.cu.table) = s.cu.inForce
  · rw [if_neg (by simp [h]), if_neg (not_not.2 h)]
  · rw [if_pos (by simpa using h), if_pos h]
    rfl

theorem activeTiers_get (t : List Entry) (k : Tier) : (activeTiers t).get k = tierActive t k := by cases k <;> rfl

theorem tierActive_iff (t : List Entry) (k : Tier) : tierActive t k = true
    ↔ ∃ e ∈ t, e.tier = k ∧ e.air = true ∧ e.presence ≠ .stale := by
  simp [tierActive, and_assoc]

/-- The tier in force is the highest active one. -/
theorem highestTier_eq (a : PerTier Bool) : (highestTier a = none ↔ ∀ k, a.get k = false)
    ∧ ∀ k, highestTier a = some k → a.get k = true ∧ ∀ u : Tier, u.ctorIdx < k.ctorIdx → a.get u = false := by
  have hall : (∀ k, a.get k = false) ↔ a.alert = false ∧ a.live = false ∧ a.playout = false ∧ a.filler = false :=
    ⟨fun h => ⟨h .alert, h .live, h .playout, h .filler⟩, fun ⟨ha, hl, hp, hf⟩ k => by cases k <;> assumption⟩
  rw [hall]
  unfold highestTier
  split
  case isTrue ha =>
    refine ⟨by simp [ha], fun k h => ?_⟩
    obtain rfl := Option.some.inj h
    exact ⟨ha, fun u hu => absurd hu (Nat.not_lt_zero _)⟩
  case isFalse ha =>
    have ha := Bool.eq_false_iff.2 ha
    split
    case isTrue hl =>
      refine ⟨by simp [hl], fun k h => ?_⟩
      obtain rfl := Option.some.inj h
      refine ⟨hl, fun u hu => ?_⟩
      cases u with
      | alert => exact ha
      | live | playout | filler => exact absurd hu (by decide)
    case isFalse hl =>
      have hl := Bool.eq_false_iff.2 hl
      split
      case isTrue hp =>
        refine ⟨by simp [hp], fun k h => ?_⟩
        obtain rfl := Option.some.inj h
        refine ⟨hp, fun u hu => ?_⟩
        cases u with
        | alert => exact ha
        | live => exact hl
        | playout | filler => exact absurd hu (by decide)
      case isFalse hp =>
        have hp := Bool.eq_false_iff.2 hp
        split
        case isTrue hf =>
          refine ⟨by simp [hf], fun k h => ?_⟩
          obtain rfl := Option.some.inj h
          refine ⟨hf, fun u hu => ?_⟩
          cases u with
          | alert => exact ha
          | live => exact hl
          | playout => exact hp
          | filler => exact absurd hu (by decide)
        case isFalse hf => exact ⟨iff_of_true rfl ⟨ha, hl, hp, Bool.eq_false_iff.2 hf⟩, fun k h => nomatch h⟩

theorem stepWeights_get (t w : PerTier Nat) (k : Tier) : (stepWeights t w).get k = stepWeight (t.get k) (w.get k) := by
  cases k <;> rfl

theorem duckTargets_le (d : Duck) (a : PerTier Bool) (k : Tier) : (duckTargets d a).get k ≤ 16 := by
  have hducked (b : Bool) (v : Nat) : ducked b (min 16 v) ≤ 16 := by cases b <;> simp [ducked]
  cases k with
  | alert => exact Nat.le_refl _
  | live => exact hducked ..
  | playout | filler => exact (Nat.min_le_left ..).trans (hducked ..)

/-- Settles O22. -/
theorem presenceAndTiersDecided : Obligations.PresenceAndTiersDecided := by
  refine ⟨fun now e => ⟨fun a ha hb => ⟨_, decideEntry_arrived ha hb, rfl, rfl, rfl, rfl, rfl, rfl, rfl, rfl, rfl, rfl, rfl, rfl,
      rfl, rfl, rfl⟩, fun hno => ⟨fun he => ?ends, fun he => ?missed⟩⟩,
    fun s => ?tiers, fun node slot e s he hm => congrArg Host.Outcome.next (removeGone_gone he hm),
    fun closing s h => presenceDecision_kept h, fun s => ?change, fun s k => ?weights, by decide, by decide, by decide, by decide,
    fun s => rfl, fun k => by cases k <;> rfl⟩
  case ends => rw [decideEntry_missed hno, if_pos he]
  case missed =>
    rw [decideEntry_missed hno, if_neg (by simp [he])]
    by_cases hm : e.missing = 0
    · exact ⟨.concealed, by rw [if_pos hm, hm], fun _ => ⟨rfl, rfl⟩, fun h => absurd hm (Nat.ne_of_gt h)⟩
    · exact ⟨.stale, by rw [if_neg hm], fun h => absurd h hm, fun _ => ⟨rfl, rfl⟩⟩
  case tiers =>
    intro t
    have ht : t = _ := recomputeTiers_eq s
    obtain ⟨hnone, hsome⟩ := highestTier_eq (activeTiers s.cu.table)
    rw [ht]
    exact ⟨fun k => by rw [activeTiers_get, tierActive_iff], hnone, hsome, rfl, rfl, rfl, rfl⟩
  case change =>
    intro t
    have ht : t = _ := recomputeTiers_eq s
    rw [ht]
    exact ⟨fun h => if_neg (not_not.2 h), fun h => if_pos h⟩
  case weights =>
    intro t w v
    have ht : t = _ := recomputeTiers_eq s
    have hv : v = stepWeight (t.cu.targets.get k) w := by
      simp only [v, w]
      rw [ht]
      exact stepWeights_get ..
    have hle : t.cu.targets.get k ≤ 16 := by rw [ht]; exact duckTargets_le ..
    have hframe : t = { s with cp := t.cp, cu := { s.cu with
        active := t.cu.active, inForce := t.cu.inForce, targets := t.cu.targets, weights := t.cu.weights } } := by
      rw [ht]
    rw [stepWeight] at hv
    refine ⟨fun h => ?_, fun h => ?_, fun h => ?_, hle, fun h => ?_, ?_, ?_, hframe⟩
    all_goals split at hv <;> (try split at hv) <;> omega

end Sys2Proof.Machine
end

section
/-! SUPPORT. The Mix Engine's arithmetic, commands, meters and silence monitor (R43, R45, R46, R49, R51 to R53, R56 to R59), and
the settling of O24 to O26. -/

namespace Sys2Proof.Machine

/-! ## Ramps and sample limits (R43, R45, R51, R53, R56, R57) -/

theorem Ramp.give_ramp {top v n : Nat} (r : Ramp) (h : 0 < n) :
    r.give top v n = ⟨r.current, min top v, r.current, n, 0⟩ := if_neg (Nat.ne_of_gt h)

/-- A ramp to the value at which it stands has that value at every sample. -/
theorem Ramp.gain_same {r : Ramp} (h : r.target = r.start) (hc : r.current = r.start) (k : Nat) : r.gain k = r.current := by
  unfold Ramp.gain
  split
  · rfl
  · rw [h, Int.sub_self, Int.zero_mul, Int.zero_ediv, Int.add_zero, hc]

theorem applyGain_below {x g : Int} (hl : -8388608 ≤ x) (hh : x ≤ 8388607) (hg : 0 ≤ g) (hu : g ≤ 4096) :
    -8388608 ≤ (x * g + 2048) / 4096 ∧ (x * g + 2048) / 4096 ≤ 8388607 := by
  have hlow : -8388608 * 4096 ≤ x * g := by nlinarith
  have hhigh : x * g ≤ 8388607 * 4096 := by nlinarith
  omega

/-- A value lies outside the 24-bit range exactly where it saturates. -/
theorem sat24_changes (x : Int) : (sat24 x != x) = decide (x < -8388608 ∨ 8388607 < x) := by
  rw [Bool.eq_iff_iff, bne_iff_ne, decide_eq_true_iff, sat24]
  omega

/-- The gains of a block against its 48 frames. -/
theorem gains_zip (r : Ramp) {acc : Block} (h : acc.length = 48) :
    r.gains.zip acc = (List.range 48).map fun k => (r.gain k, acc.getD k (0, 0)) := by
  refine List.ext_getElem (by simp [Ramp.gains, h]) fun i h₁ h₂ => ?_
  have hi : i < acc.length := by rw [List.length_zip] at h₁; omega
  rw [List.getElem_zip, List.getElem_map, List.getElem_range, List.getD_eq_getElem _ _ hi]
  simp [Ramp.gains]

/-- The output stage, frame by frame (R51). -/
theorem outputStage_frames (trim : Ramp) {acc : Block} (h : acc.length = 48) :
    outputStage trim acc =
      ⟨(List.range 48).map fun k => (sat24 (trimmed (acc.getD k (0, 0)).1 (trim.gain k)),
          sat24 (trimmed (acc.getD k (0, 0)).2 (trim.gain k))),
        clipped sat24 ((List.range 48).flatMap fun k => [trimmed (acc.getD k (0, 0)).1 (trim.gain k),
          trimmed (acc.getD k (0, 0)).2 (trim.gain k)])⟩ := by
  rw [outputStage, gains_zip trim h, List.map_map, List.map_map, List.flatMap_map]
  rfl

theorem trimmed_rest (a : Int) : trimmed a 4096 = (a + 8) / 16 ∧ trimmed (16 * a) 4096 = a ∧ trimmed a 0 = 0 := by
  unfold trimmed
  omega

theorem holdOf_limits (acc : Block) : holdOf 16 acc = acc ∧ holdOf 0 acc = acc.map fun _ => (0, 0) := by
  unfold holdOf
  constructor
  · conv_rhs => rw [← List.map_id acc]
    refine List.map_congr_left fun p _ => Prod.ext ?_ ?_ <;> dsimp only [id] <;> omega
  · refine List.map_congr_left fun p _ => Prod.ext ?_ ?_ <;> dsimp only <;> omega

/-- Settles O24. -/
theorem gainTargetsAndSampleLimits : Obligations.GainTargetsAndSampleLimits := by
  refine ⟨fun r v n => ⟨fun h => ⟨r.give_ramp h, r.give_ramp h⟩, rfl, rfl, rfl, rfl, rfl, rfl, fun h k hk hc => ?same⟩,
    fun x g => ⟨(sat24_range _).1, (sat24_range _).2, sat24_id, fun hl hh hg hu => ?below⟩, fun trim acc h => ?output,
    trimmed_rest, fun h acc _ => rfl, holdOf_limits, fun p q hl hh => ?up, fun a b c => ⟨rfl, ?_, ?_⟩, fun x => ?down⟩
  case same =>
    have hgive : r.giveGain v n = _ := r.give_ramp (top := 8192) (v := v) h
    rw [hgive]
    exact Ramp.gain_same hc.symm rfl k
  case below =>
    obtain ⟨hlow, hhigh⟩ := applyGain_below hl hh hg hu
    exact sat24_id hlow hhigh
  case output =>
    intro raw limit
    rw [outputStage_frames trim h]
    refine ⟨rfl, ?_⟩
    exact congrArg (fun p => (((List.range 48).flatMap fun k => [(raw k).1, (raw k).2]).filter p).length) (funext sat24_changes)
  case up =>
    refine ⟨rfl, _, _, rfl, ?_⟩
    omega
  case down =>
    dsimp only [downSample]
    omega
  all_goals rw [sat16]; omega

/-! ## Slots (R46 to R49) -/

theorem deskOf_some {k : Fin 8} {d : Fin 2} (h : k.val = d.val) : deskOf k = some d := index?_eq_some.2 h.symm

theorem deskOf_none {k : Fin 8} (h : 2 ≤ k.val) : deskOf k = none := index?_eq_none.2 h

theorem lineOf_some {k : Fin 8} {l : Fin 3} (h : k.val = l.val + 5) : lineOf k = some l :=
  (if_pos (by omega)).trans (index?_eq_some.2 (by omega))

theorem lineOf_none {k : Fin 8} (h : k.val < 5) : lineOf k = none := if_neg (by omega)

theorem lineUpOn_iff (s : State) : lineUpOn s = true ↔ s.tg.lineUp = .on := beq_iff_eq

/-- A desk input's flags (R48). -/
theorem slotFlags_desk {k : Fin 8} {d : Fin 2} {s : State} (h : k.val = d.val) (hl : s.tg.lineUp ≠ .on) : slotFlags k s
    = if s.settings.roles.desk && ((Tab.at s.me.desk d).air || (Tab.at s.me.desk d).cue) then
        some ((Tab.at s.me.desk d).air, (Tab.at s.me.desk d).cue) else none := by
  rw [slotFlags, if_neg fun k => hl ((lineUpOn_iff s).1 k.2), deskOf_some h]

/-- A caller line's flags (R48). -/
theorem slotFlags_line {k : Fin 8} {l : Fin 3} {s : State} (h : k.val = l.val + 5) : slotFlags k s
    = if s.settings.roles.caller && ((lineAt s l).state == .onAir || (Tab.at s.me.caller l).cue) then
        some ((lineAt s l).state == .onAir, (Tab.at s.me.caller l).cue) else none := by
  rw [slotFlags, if_neg fun k => by omega, deskOf_none (by omega), lineOf_some h]
  rfl

/-- The END block owed once a slot may have stopped (R48). -/
theorem noteStop_at (k j : Fin 8) (s : State) : Tab.at (noteStop k s).me.endOwed j
    = if j = k then Tab.at s.me.endOwed k || (Tab.at s.me.produced k && (slotFlags k s).isNone) else Tab.at s.me.endOwed j := by
  unfold noteStop
  by_cases hstop : Tab.at s.me.produced k = true ∧ slotFlags k s = none
  · rw [if_pos hstop]
    by_cases hj : j = k
    · simp [hj, hstop]
    · rw [if_neg hj]
      exact Tab.at_put_ne _ _ hj
  · rw [if_neg hstop]
    by_cases hj : j = k
    · rw [if_pos hj, hj]
      have : (Tab.at s.me.produced k && (slotFlags k s).isNone) = false := by
        rw [Bool.eq_false_iff, ne_eq, Bool.and_eq_true, Option.isNone_iff_eq_none]
        exact hstop
      rw [this, Bool.or_false]
    · rw [if_neg hj]

/-! ## SET GAIN and SET CHANNEL (R46, R49) -/

/-- A host command acted on with a known outcome. -/
theorem hostRow_act {s t : State} {i : Instr} {m : CommandMessage} {act : State → State × Reply} {r : Reply}
    (h : Running s i m) (hact : act s = (t, r)) : hostRow i act s = .next (answer m r.code r.data t) :=
  (hostRow_running h act).trans (by rw [hact])

theorem flagOf_wordFlag (b : Bool) : flagOf (wordFlag b).toNat = some b := by cases b <;> rfl

theorem flagOf_above {n : Nat} (h : 1 < n) : flagOf n = none := by
  unfold flagOf
  split
  case h_1 | h_2 => omega
  case h_3 => rfl

theorem slot_index {n k : Nat} (h : k < n) : index? n k = some ⟨k, h⟩ := index?_eq_some.2 rfl

section setGain

variable {slot gain : Word} {s : State}

theorem setGain_site (h : atSite s = true) : setGainCommand slot gain s = refuse .notRole s := if_pos h

theorem setGain_desk {d : Fin 2} (h : atSite s = false) (hd : slot.toNat = d.val) : setGainCommand slot gain s
    = if s.settings.roles.desk then (giveDeskGain d gain.toNat s, .only .ok) else refuse .notRole s := by
  have hk : slot.toNat < 8 := by omega
  rw [setGainCommand, h, slot_index hk]
  dsimp only
  rw [deskOf_some (k := ⟨slot.toNat, hk⟩) hd]
  rfl

theorem setGain_line {l : Fin 3} (h : atSite s = false) (hl : slot.toNat = l.val + 5) : setGainCommand slot gain s
    = if s.settings.roles.caller then (giveCallerGain l gain.toNat s, .only .ok) else refuse .notRole s := by
  have hk : slot.toNat < 8 := by omega
  rw [setGainCommand, h, slot_index hk]
  dsimp only
  rw [deskOf_none (k := ⟨slot.toNat, hk⟩) (by dsimp only; omega), lineOf_some (k := ⟨slot.toNat, hk⟩) hl]
  rfl

theorem setGain_noSource (h : atSite s = false) (hk : slot.toNat ∈ [2, 3, 4] ∨ 7 < slot.toNat) :
    setGainCommand slot gain s = refuse .badParam s := by
  rw [setGainCommand, h]
  rcases hk with hk | hk
  · have hlow : 2 ≤ slot.toNat ∧ slot.toNat < 5 := by simp at hk; omega
    rw [slot_index (show slot.toNat < 8 by omega)]
    dsimp only
    rw [deskOf_none (by exact hlow.1), lineOf_none (by exact hlow.2)]
    rfl
  · rw [index?_eq_none.2 (by omega)]
    rfl

end setGain

section setChannel

variable {slot air cue : Word} {a c : Bool} {k : Fin 8} {s : State}

theorem setChannel_site (h : atSite s = true) : setChannelCommand slot air cue s = refuse .notRole s := if_pos h

theorem setChannel_desk {d : Fin 2} (h : atSite s = false) (ha : air = wordFlag a) (hc : cue = wordFlag c)
    (hk : slot.toNat = k.val) (hd : k.val = d.val) : setChannelCommand slot air cue s
    = if s.settings.roles.desk then
        (noteStop k (setDesk d { Tab.at s.me.desk d with air := a, cue := c } s), channelReply a c)
      else refuse .notRole s := by
  rw [setChannelCommand, h, hk, index?_val, ha, hc, flagOf_wordFlag, flagOf_wordFlag]
  dsimp only
  rw [deskOf_some hd]
  rfl

theorem setChannel_line {l : Fin 3} (h : atSite s = false) (ha : air = wordFlag a) (hc : cue = wordFlag c)
    (hk : slot.toNat = k.val) (hl : k.val = l.val + 5) : setChannelCommand slot air cue s
    = if !s.settings.roles.caller then refuse .notRole s
      else if a then refuse .badParam s
      else (noteStop k (setCallerSource l { Tab.at s.me.caller l with cue := c } s),
        channelReply ((lineAt s l).state == .onAir) c) := by
  rw [setChannelCommand, h, hk, index?_val, ha, hc, flagOf_wordFlag, flagOf_wordFlag]
  dsimp only
  rw [deskOf_none (by omega), lineOf_some hl]
  rfl

theorem setChannel_noSource (h : atSite s = false) (ha : air = wordFlag a) (hc : cue = wordFlag c)
    (hk : slot.toNat = k.val) (hlow : 2 ≤ k.val) (hhigh : k.val < 5) : setChannelCommand slot air cue s = refuse .badParam s := by
  rw [setChannelCommand, h, hk, index?_val, ha, hc, flagOf_wordFlag, flagOf_wordFlag]
  dsimp only
  rw [deskOf_none hlow, lineOf_none hhigh]
  rfl

theorem setChannel_outside (h : atSite s = false) (hout : 7 < slot.toNat ∨ 1 < air.toNat ∨ 1 < cue.toNat) :
    setChannelCommand slot air cue s = refuse .badParam s := by
  rw [setChannelCommand, h]
  refine (if_neg Bool.false_ne_true).trans ?_
  split
  case h_1 k a c hk ha hc =>
    rcases hout with ho | ho | ho
    · rw [index?_eq_none.2 (by omega)] at hk
      exact nomatch hk
    · rw [flagOf_above ho] at ha
      exact nomatch ha
    · rw [flagOf_above ho] at hc
      exact nomatch hc
  case h_2 => rfl

end setChannel

/-- A slot's END block owed and the rest of what SET CHANNEL leaves. -/
theorem noteStop_leaves (k : Fin 8) (s : State) :
    noteStop k s = { s with me := { s.me with endOwed := (noteStop k s).me.endOwed } } := by
  unfold noteStop
  split <;> rfl

theorem isNone_ite {α : Type} (b : Bool) (x : α) : (if b then some x else none).isNone = !b := by cases b <;> rfl

/-- Settles O25. -/
theorem mixCommandsSetSources : Obligations.MixCommandsSetSources := by
  have hsite {i : Instr} {m : CommandMessage} {s : State} {b : Bool} (h : Running s i m) (hb : s.settings.roles.site = b) :
      atSite s = b := (atSite_iff h.running).trans hb
  refine ⟨fun slot gain m s h hs => ⟨fun d hd hr => ?gainDesk, fun l hl hr => ?gainLine, fun hk => ?gainNone, fun hk => ?gainRole⟩,
    fun slot air cue a c m s h hs ha hc k hk => ⟨fun d hd hr => ?desk, fun l hl hr hair => ?line, fun hlow hr hair => ?air,
      fun hnone => ?none, fun hrole => ?role⟩,
    fun slot air cue m s h => ⟨fun hs hout => hostRow_act h (setChannel_outside (hsite h hs) hout),
      fun hs => hostRow_act h (setChannel_site (hsite h hs))⟩,
    fun slot gain m s h hs => hostRow_act h (setGain_site (hsite h hs))⟩
  case gainDesk => exact hostRow_act h ((setGain_desk (hsite h hs) hd).trans (if_pos hr))
  case gainLine => exact hostRow_act h ((setGain_line (hsite h hs) hl).trans (if_pos hr))
  case gainNone => exact hostRow_act h (setGain_noSource (hsite h hs) (by simp; omega))
  case gainRole =>
    rcases hk with ⟨hlt, hr⟩ | ⟨hlow, hhigh, hr⟩
    · exact hostRow_act h ((setGain_desk (d := ⟨slot.toNat, hlt⟩) (hsite h hs) rfl).trans (if_neg (by simp [hr])))
    · exact hostRow_act h ((setGain_line (l := ⟨slot.toNat - 5, by omega⟩) (hsite h hs) (by dsimp only; omega)).trans
        (if_neg (by simp [hr])))
  case desk =>
    let u := setDesk d { Tab.at s.me.desk d with air := a, cue := c } s
    refine ⟨noteStop k u, hostRow_act h ((setChannel_desk (hsite h hs) ha hc hk hd).trans (if_pos hr)),
      noteStop_leaves k u, fun hl => ?_, fun j hj => (noteStop_at k j u).trans (if_neg hj)⟩
    rw [noteStop_at, if_pos rfl, slotFlags_desk (s := u) hd hl]
    have hdesk : Tab.at u.me.desk d = { Tab.at s.me.desk d with air := a, cue := c } := (Tab.at_put ..).trans (if_pos rfl)
    rw [hdesk]
    have hroles : u.settings.roles.desk = true := hr
    rw [hroles, isNone_ite, Bool.true_and, Bool.not_or, ← Bool.and_assoc]
    rfl
  case line =>
    let u := setCallerSource l { Tab.at s.me.caller l with cue := c } s
    refine ⟨noteStop k u, hostRow_act h ((setChannel_line (hsite h hs) ha hc hk hl).trans
      ((if_neg (by simp [hr])).trans (if_neg (by simp [hair])))), noteStop_leaves k u, ?_,
      fun j hj => (noteStop_at k j u).trans (if_neg hj)⟩
    rw [noteStop_at, if_pos rfl, slotFlags_line (s := u) hl]
    have hcaller : Tab.at u.me.caller l = { Tab.at s.me.caller l with cue := c } := (Tab.at_put ..).trans (if_pos rfl)
    rw [hcaller]
    have hroles : u.settings.roles.caller = true := hr
    rw [hroles, isNone_ite, Bool.true_and, Bool.not_or, Bool.and_comm (!(lineAt u l).state == .onAir), ← Bool.and_assoc]
    rfl
  case air => exact hostRow_act h ((setChannel_line (l := ⟨k.val - 5, by omega⟩) (hsite h hs) ha hc hk (by dsimp only; omega)).trans
      ((if_neg (by simp [hr])).trans (if_pos hair)))
  case none => exact hostRow_act h (setChannel_noSource (hsite h hs) ha hc hk (by omega) (by omega))
  case role =>
    rcases hrole with ⟨hlt, hr⟩ | ⟨hlow, hr⟩
    · exact hostRow_act h ((setChannel_desk (d := ⟨k.val, hlt⟩) (hsite h hs) ha hc hk rfl).trans (if_neg (by simp [hr])))
    · exact hostRow_act h ((setChannel_line (l := ⟨k.val - 5, by omega⟩) (hsite h hs) ha hc hk (by dsimp only; omega)).trans
        (if_pos (by simp [hr])))

end Sys2Proof.Machine
end

section
/-! SUPPORT. Trims, meters and the silence monitor (R52, R58, R59), and the settling of O26. -/

namespace Sys2Proof.Machine

theorem setTrim_site {bus trim : Word} {s : State} (h : atSite s = true) : setTrimCommand bus trim s = refuse .notRole s :=
  if_pos h

theorem setTrim_outside {bus trim : Word} {s : State} (h : atSite s = false) (hb : 6 ≤ bus.toNat) :
    setTrimCommand bus trim s = refuse .badParam s := by
  rw [setTrimCommand, h, index?_eq_none.2 hb]
  rfl

theorem setTrim_bus {bus trim : Word} {b : Fin 6} {s : State} (h : atSite s = false) (hb : bus.toNat = b.val) :
    setTrimCommand bus trim s = if isMixMinus b && !s.settings.roles.caller then refuse .notRole s
      else ({ s with me := { s.me with
          trims := s.me.trims.put b ((Tab.at s.me.trims b).giveGain trim.toNat 1) } }, .only .ok) := by
  rw [setTrimCommand, h, hb, index?_val]
  rfl

theorem readMeters_site {s : State} (h : atSite s = true) : readMetersCommand s = refuse .notRole s := if_pos h

theorem readMeters_studio {s : State} (h : atSite s = false) : readMetersCommand s
    = ({ s with me := { s.me with meters := Tab.each s.me.meters fun m => { m with held := 0, clips := 0 } } },
      .okWith ((List.finRange 6).flatMap (fun b => meterWords (Tab.at s.me.meters b))
        ++ [wordFlag s.me.silent, word s.me.quietRun, word s.me.soundRun])) := by
  rw [readMetersCommand, if_neg (by simp [h]), toList_eq_finRange, List.flatMap_map]

theorem becomeSilent_silent {s : State} (h : s.me.silent = false) (hq : s.settings.silenceLimit ≤ s.me.quietRun) :
    becomeSilent s = { s with
      cp := s.cp.post ⟨.programSilent, s.clock.blockCount, [word (programPeak s)]⟩, me := { s.me with silent := true } } :=
  if_pos ⟨h, hq⟩

theorem becomeSilent_stays {s : State} (h : s.me.silent = true ∨ s.me.quietRun < s.settings.silenceLimit) :
    becomeSilent s = s := by
  refine if_neg fun ⟨hs, hq⟩ => ?_
  rcases h with h | h
  · exact absurd (hs.symm.trans h) (by decide)
  · omega

theorem becomeSounding_sounds {s : State} (h : s.me.silent = true) (hr : 48 ≤ s.me.soundRun) :
    becomeSounding s = { s with
      cp := s.cp.post ⟨.programRestored, s.clock.blockCount, [word (programPeak s)]⟩
      me := { s.me with silent := false, soundRun := 0 } } := if_pos ⟨h, hr⟩

theorem becomeSounding_stays {s : State} (h : s.me.silent = false ∨ s.me.soundRun < 48) : becomeSounding s = s := by
  refine if_neg fun ⟨hs, hr⟩ => ?_
  rcases h with h | h
  · exact absurd (hs.symm.trans h) (by decide)
  · omega

section monitor

variable {s : State}

theorem silenceMonitor_quiet (h : programPeak s < s.settings.silenceFloor) (hs : s.me.silent = false) : silenceMonitor s
    = becomeSilent { s with me := { s.me with
      quietRun := min s.settings.silenceLimit (s.me.quietRun + 1), soundRun := 0 } } :=
  (if_pos h).trans (if_neg (by simp [hs]))

theorem silenceMonitor_still (h : programPeak s < s.settings.silenceFloor) (hs : s.me.silent = true) :
    silenceMonitor s = { s with me := { s.me with soundRun := 0 } } := (if_pos h).trans (if_pos hs)

theorem silenceMonitor_loud (h : s.settings.silenceFloor ≤ programPeak s) (hs : s.me.silent = false) :
    silenceMonitor s = { s with me := { s.me with quietRun := 0 } } := (if_neg (Nat.not_lt.2 h)).trans (if_neg (by simp [hs]))

theorem silenceMonitor_sounds (h : s.settings.silenceFloor ≤ programPeak s) (hs : s.me.silent = true) : silenceMonitor s
    = becomeSounding { s with me := { s.me with quietRun := 0, soundRun := min 48 (s.me.soundRun + 1) } } :=
  (if_neg (Nat.not_lt.2 h)).trans (if_pos hs)

end monitor

/-- Settles O26. -/
theorem trimsMetersAndSilence : Obligations.TrimsMetersAndSilence := by
  have hsite {i : Instr} {m : CommandMessage} {s : State} {b : Bool} (h : Running s i m) (hb : s.settings.roles.site = b) :
      atSite s = b := (atSite_iff h.running).trans hb
  refine ⟨⟨fun bus trim b m s h hs hb => ⟨fun hrole => ?trim, fun hlow hrole => ?trimRole⟩,
      fun bus trim m s h => ⟨fun hs hb => hostRow_act h (setTrim_outside (hsite h hs) hb),
        fun hs => hostRow_act h (setTrim_site (hsite h hs))⟩,
      fun m s h hs => hostRow_act h (readMeters_site (hsite h hs)), fun m s h hs => ?meters⟩,
    fun s => ⟨fun h hq => congrArg Host.Outcome.next (becomeSilent_silent h hq),
      fun h => congrArg Host.Outcome.next (becomeSilent_stays h),
      fun h hr => congrArg Host.Outcome.next (becomeSounding_sounds h hr),
      fun h => congrArg Host.Outcome.next (becomeSounding_stays h)⟩,
    fun s => ?monitor⟩
  case trim =>
    refine hostRow_act h ((setTrim_bus (hsite h hs) hb).trans (if_neg ?_))
    rcases hrole with hlow | hcaller
    · simp [isMixMinus, Nat.not_le.2 hlow]
    · simp [hcaller]
  case trimRole => exact hostRow_act h ((setTrim_bus (hsite h hs) hb).trans (if_pos (by simp [isMixMinus, hlow, hrole])))
  case meters =>
    refine ⟨{ s with me := { s.me with meters := Tab.each s.me.meters fun m => { m with held := 0, clips := 0 } } },
      hostRow_act h (readMeters_studio (hsite h hs)), rfl, fun b => Tab.at_each ..⟩
  case monitor =>
    refine ⟨fun hp hs => ⟨fun hq => ?_, fun hq => ?_, congrArg Host.Outcome.next (silenceMonitor_quiet hp hs).symm⟩,
      silenceMonitor_still, silenceMonitor_loud,
      fun hp hs => ⟨fun hr => ?_, fun hr => ?_, congrArg Host.Outcome.next (silenceMonitor_sounds hp hs).symm⟩⟩
    · rw [silenceMonitor_quiet hp hs, Nat.min_eq_right (Nat.le_of_lt hq)]
      exact becomeSilent_stays (.inr hq)
    · rw [silenceMonitor_quiet hp hs, Nat.min_eq_left hq]
      exact becomeSilent_silent hs (Nat.le_refl _)
    · rw [silenceMonitor_sounds hp hs, Nat.min_eq_right (Nat.le_of_lt hr)]
      exact becomeSounding_stays (.inr hr)
    · rw [silenceMonitor_sounds hp hs, Nat.min_eq_left hr]
      exact becomeSounding_sounds hs (Nat.le_refl _)

end Sys2Proof.Machine
end

section
/-! SUPPORT. The source stage (R9, R41, R45, R47, R48), and the settling of O27. -/

namespace Sys2Proof.Machine

/-! ## The AUDIO queue (R9) -/

theorem Counter.index_ne {c d : Counter} (h : c ≠ d) : c.index ≠ d.index := by
  intro k
  refine h ?_
  revert k
  cases c <;> cases d <;> decide

theorem count_at_other {c d : Counter} (h : c ≠ d) (s : State) :
    Tab.at (count d s).counters c.index = Tab.at s.counters c.index := by
  rw [count_counted]
  split
  · exact Tab.at_put_ne _ _ (Counter.index_ne h)
  · rfl

theorem count_at_same (c : Counter) (s : State) : Tab.at (count c s).counters c.index
    = if Tab.at s.settings.counterEnable c.index then min 65535 (Tab.at s.counters c.index + 1)
      else Tab.at s.counters c.index := by
  rw [count_counted]
  split
  · exact (Tab.at_put ..).trans (if_pos rfl)
  · rfl

theorem countTimes_frame (c : Counter) (n : Nat) (s : State) :
    countTimes c n s = { s with counters := (countTimes c n s).counters } := by
  induction n generalizing s with
  | zero => rfl
  | succ n ih =>
    rw [countTimes, ih (count c s)]
    rw [count_frame c s]

theorem countTimes_at_other {c d : Counter} (h : c ≠ d) (n : Nat) (s : State) :
    Tab.at (countTimes d n s).counters c.index = Tab.at s.counters c.index := by
  induction n generalizing s with
  | zero => rfl
  | succ n ih => exact (ih (count d s)).trans (count_at_other h s)

/-- So many counts at once, stopping at 65,535 (R13). -/
theorem countTimes_at_same (c : Counter) (n : Nat) {s : State} (h : Tab.at s.counters c.index ≤ 65535) :
    Tab.at (countTimes c n s).counters c.index = if Tab.at s.settings.counterEnable c.index then
      min 65535 (Tab.at s.counters c.index + n) else Tab.at s.counters c.index := by
  induction n generalizing s with
  | zero => rw [countTimes, Nat.add_zero, Nat.min_eq_right h, ite_self]
  | succ n ih =>
    have hone := count_at_same c s
    have hset : (count c s).settings = s.settings := by rw [count_frame]
    by_cases he : Tab.at s.settings.counterEnable c.index = true
    · rw [if_pos he] at hone
      rw [countTimes, ih (by omega), hset, hone, if_pos he, if_pos he]
      omega
    · rw [if_neg he] at hone
      rw [countTimes, ih (by omega), hset, hone, if_neg he, if_neg he]

theorem takeOwn_frame (slot : Fin 8) (a : Arrival) (s : State) :
    takeOwn slot a s = { s with cu := (takeOwn slot a s).cu } := by
  unfold takeOwn
  split <;> rfl

theorem handBlock_eq (slot : Fin 8) (b : SourceBlock) (s : State) : handBlock slot b s
    = takeOwn slot (arrivalFrom slot b s) (queueAudio slot (frameOf slot b s)
      { s with me := { s.me with seq := s.me.seq.put slot (Tab.at s.me.seq slot + 1) } }) := rfl

theorem queueAudio_joined {slot : Fin 8} {f : AudioFrame} {s : State} (h : s.lu.state = .joined) :
    queueAudio slot f s = { s with tx := { s.tx with audio := s.tx.audio.put slot (some f) } } :=
  if_pos (by simp [joined, h])

theorem queueAudio_apart {slot : Fin 8} {f : AudioFrame} {s : State} (h : s.lu.state ≠ .joined) :
    queueAudio slot f s = s := if_neg (by simp [joined, h])

/-- What the hand-over of one block changes (R9, R47). -/
theorem handBlock_frame (slot : Fin 8) (b : SourceBlock) (s : State) : handBlock slot b s
    = { s with
      me := { s.me with seq := s.me.seq.put slot (Tab.at s.me.seq slot + 1) }
      tx := if s.lu.state = .joined then { s.tx with audio := s.tx.audio.put slot (some (frameOf slot b s)) } else s.tx
      cu := (handBlock slot b s).cu } := by
  rw [handBlock_eq, takeOwn_frame]
  by_cases h : s.lu.state = .joined
  · rw [queueAudio_joined (by exact h), if_pos h]
  · rw [queueAudio_apart (by exact h), if_neg h]

/-! ## A slot's own block (R47, R48, R187) -/

theorem slotBlock_desk {slot : Fin 8} {d : Fin 2} {input : BlockInput} {ups : Tab (List Int) 3} {s : State}
    (h : slot.val = d.val) (hl : s.tg.lineUp ≠ .on) : slotBlock slot input ups s =
    if s.settings.roles.desk && ((Tab.at s.me.desk d).air || (Tab.at s.me.desk d).cue) then
      some ⟨(Tab.at s.me.desk d).air, (Tab.at s.me.desk d).cue, false, false, .live, 0, false,
        applyRamp (Tab.at s.me.desk d).gain (tdmBlock input slot)⟩
    else if Tab.at s.me.endOwed slot then
      some ⟨(Tab.at s.me.desk d).air, (Tab.at s.me.desk d).cue, false, true, .live, 0, false,
        applyRamp (Tab.at s.me.desk d).gain (tdmBlock input slot)⟩
    else none := by
  have hup : lineUpOn s = false := Bool.eq_false_iff.2 fun k => hl ((lineUpOn_iff s).1 k)
  rw [slotBlock, slotFlags_desk h hl, hup, slotSamples, deskOf_some h, lineOf_none (by omega), Bool.and_false]
  by_cases hf : (s.settings.roles.desk && ((Tab.at s.me.desk d).air || (Tab.at s.me.desk d).cue)) = true
  · rw [if_pos hf, if_pos hf]
    rfl
  · rw [if_neg hf, if_neg hf]
    rfl

theorem slotBlock_line {slot : Fin 8} {l : Fin 3} {input : BlockInput} {ups : Tab (List Int) 3} {s : State}
    (h : slot.val = l.val + 5) : slotBlock slot input ups s =
    if s.settings.roles.caller && ((lineAt s l).state == .onAir || (Tab.at s.me.caller l).cue) then
      some ⟨(lineAt s l).state == .onAir, (Tab.at s.me.caller l).cue, true, false, .live, 0, false,
        applyRamp (Tab.at s.me.caller l).gain (block48 ((Tab.at ups l).map fun x => (x, x)))⟩
    else if Tab.at s.me.endOwed slot then
      some ⟨false, (Tab.at s.me.caller l).cue, true, true, .live, 0, false,
        applyRamp (Tab.at s.me.caller l).gain (block48 ((Tab.at ups l).map fun x => (x, x)))⟩
    else none := by
  have hslot : decide (slot = 0) = false := decide_eq_false fun k => by omega
  rw [slotBlock, slotFlags_line h, hslot, slotSamples, deskOf_none (by omega), lineOf_some h, Bool.false_and]
  by_cases hf : (s.settings.roles.caller && ((lineAt s l).state == .onAir || (Tab.at s.me.caller l).cue)) = true
  · rw [if_pos hf, if_pos hf]
    rfl
  · rw [if_neg hf, if_neg hf]
    rfl

theorem slotBlock_lineUp {v : Fin 4} {input : BlockInput} {ups : Tab (List Int) 3} {s : State} (hl : s.tg.lineUp = .on)
    (hv : lineUpVoice s = some v) : slotBlock 0 input ups s
      = some ⟨s.tg.route == .air, s.tg.route == .cue, true, false, .live, 0, true, voiceBlock v s⟩ := by
  have hup : lineUpOn s = true := (lineUpOn_iff s).2 hl
  rw [slotBlock, slotFlags, if_pos ⟨rfl, hup⟩, hup, hv]
  rfl

/-- Settles O27. -/
theorem sourceStageHandsBlocks : Obligations.SourceStageHandsBlocks := by
  unfold Obligations.SourceStageHandsBlocks
  intro queued arrived
  have hqueued : queued = fun slot b s => frameOf slot b s := by
    funext slot b s
    obtain ⟨air, cue, mono, last, tier, tag, lineUp, samples⟩ := b
    cases tier <;> rfl
  have harrived : arrived = fun slot b s => arrivalFrom slot b s := rfl
  clear_value queued arrived
  subst hqueued harrived
  refine ⟨fun s h => ⟨?empties, ?overrun, fun c hc => ?other⟩, fun slot b s => ?hand, fun input ups a b alert s => ?stage,
    fun slot d input ups s h hl => ⟨fun hr hp => ?deskOn, fun hp => ?deskOff⟩,
    fun slot l input ups s h => ⟨fun hr hp => ?lineOn, fun hr ha hc => ?lineOff⟩,
    fun v input ups s hl hv => slotBlock_lineUp hl hv⟩
  case empties => exact countTimes_frame ..
  case overrun => exact countTimes_at_same (s := { s with tx := { s.tx with audio := Vector.replicate 8 none } }) .overrun _ h
  case other => exact countTimes_at_other (s := { s with tx := { s.tx with audio := Vector.replicate 8 none } }) hc _
  case hand =>
    intro t
    have ht : t = _ := handBlock_frame slot b s
    refine ⟨by rw [ht], fun hj => by rw [ht]; exact if_pos hj, fun hj => by rw [ht]; exact if_neg hj,
      ((handBlock_turn slot b s).hands b rfl).2.2⟩
  case stage =>
    intro t player given
    obtain ⟨u, ht, hturns⟩ := sourceStage_turns input ups a b alert s
    have ht : t = advanceSources u := ht
    have hme := hturns.frame
    have hplayer (slot : Fin 8) : player slot ↔ slot = 2 ∨ slot = 3 ∨ slot = 4 := by revert slot; decide
    have hall (slot : Fin 8) : slot ∈ ([0, 1, 5, 6, 7, 2, 3, 4] : List (Fin 8)) := by revert slot; decide
    rw [ht]
    refine ⟨?_, fun d => ?_, fun l => ?_, fun p => ⟨?_, ?_⟩, fun node slot hn => hturns.finds node slot (.inl hn),
      fun slot => ⟨fun hp => ?_, fun hp => ?_, hturns.idles slot (hall slot), hturns.hands slot (hall slot)⟩⟩
    · rw [advanceSources, hme]
    · rw [advanceSources, hme]
      exact Tab.at_each ..
    · rw [advanceSources, hme]
      exact Tab.at_each ..
    · rw [advanceSources, hme]
      exact Tab.at_each ..
    · rw [advanceSources, hme]
      exact Tab.at_each ..
    · exact ⟨(hturns.owes slot (hall slot)).trans (if_pos ((hplayer slot).1 hp)),
        (hturns.produces slot (hall slot)).trans (if_pos ((hplayer slot).1 hp))⟩
    · exact ⟨(hturns.owes slot (hall slot)).trans (if_neg fun k => hp ((hplayer slot).2 k)),
        (hturns.produces slot (hall slot)).trans (if_neg fun k => hp ((hplayer slot).2 k))⟩
  case deskOn =>
    rw [slotBlock_desk h hl]
    exact if_pos (by simpa [hr] using hp)
  case deskOff =>
    rw [slotBlock_desk h hl]
    refine if_neg ?_
    rcases hp with hr | ⟨ha, hc⟩
    · simp [hr]
    · simp [ha, hc]
  case lineOn =>
    rw [slotBlock_line h]
    exact if_pos (by simpa [hr] using hp)
  case lineOff =>
    rw [slotBlock_line h, hc, if_neg (by rw [ha]; simp)]

end Sys2Proof.Machine
end

section
/-! SUPPORT. The players' blocks (R45, R85, R87 to R89, R101), and the settling of O28. -/

namespace Sys2Proof.Machine

/-! ## Streams (R85) -/

/-- The length of a stream whose clips are all copied: the segue points of its clips but the last, and the last clip's
length. -/
theorem streamLength_eq (l : List StreamClip) : streamLength l = if l.all StreamClip.copied then
    some ((l.dropLast.map fun c => min c.segue c.length).sum + ((l.getLast?.map StreamClip.length).getD 0)) else none := by
  induction l with
  | nil => rfl
  | cons c rest ih =>
    rw [streamLength, ih, List.all_cons]
    by_cases hc : c.copied = true
    · rw [if_pos hc, hc, Bool.true_and]
      by_cases hrest : rest.all StreamClip.copied = true
      · rw [if_pos hrest, if_pos hrest, Option.map_some]
        cases rest with
        | nil => simp [partLength]
        | cons d rest =>
          rw [List.dropLast_cons_cons, List.map_cons, List.sum_cons, List.getLast?_cons_cons, Nat.add_assoc]
          rfl
      · rw [if_neg hrest, if_neg hrest]
        rfl
    · rw [if_neg hc, Bool.eq_false_iff.2 hc, Bool.false_and]
      rfl

/-! ## Producing (R85, R88, R89) -/

theorem Player.produces_iff (x : Player) : x.produces = true ↔ x.ended = false
    ∧ (x.state = .playing ∨ x.state = .ending ∨ (x.state = .held ∧ x.phase = .fading)) := by
  unfold Player.produces
  cases x.state <;> simp

theorem producePlayer_silent {p : Fin 2} {s : State} (h : (playerAt s p).produces = false) :
    producePlayer p s = (s, none) := if_neg (by simp [h])

theorem foldl_max_le {α : Type} {g : α → Nat} {k : Nat} {l : List α} (h : ∀ a ∈ l, g a ≤ k) :
    l.foldl (fun k a => max k (g a)) k = k := by
  induction l with
  | nil => rfl
  | cons a l ih =>
    rw [List.foldl_cons, Nat.max_eq_left (h a List.mem_cons_self)]
    exact ih fun b hb => h b (List.mem_cons_of_mem _ hb)

/-- A player's record once it has produced its block. -/
def playedRecord (p : Fin 2) (s : State) : Player :=
  (playerAt s p).afterBlock ((playerAt s p).lastBlock (Tab.at s.me.playerEnvelope p))

/-- The state in which a player has produced its block, before its low flag is looked at. -/
def blockPlayed (p : Fin 2) (s : State) : State :=
  postIf ((playerAt s p).short && !(playerAt s p).underrunTold) .playerUnderrun
    [word p, word (heldTag (playerAt s p)).toNat, word (playerAt s p).position]
    (setPlayer p (playedRecord p s) s)

/-- The block of a player none of whose frames is of a later clip than those before. -/
theorem producePlayer_block {p : Fin 2} {s : State} (h : (playerAt s p).produces = true)
    (hpart : ∀ f ∈ (playerAt s p).buffer.take 48, f.part ≤ (playerAt s p).part) : producePlayer p s
    = (noteLow p (blockPlayed p s), some
      { air := playerAir (playerAt s p) s
        cue := !playerAir (playerAt s p) s
        mono := (playerAt s p).monoBlock ((playerAt s p).buffer.take 48)
        last := (playerAt s p).lastBlock (Tab.at s.me.playerEnvelope p)
        tier := ((playerAt s p).entry.map HeldEntry.tier).getD .playout
        tag := heldTag (playerAt s p)
        lineUp := false
        samples := applyRamp (Tab.at s.me.playerEnvelope p) (applyRamp (Tab.at s.me.playerGain p)
          (block48 (((playerAt s p).buffer.take 48).map BufFrame.pair))) }) := by
  have hlater : laterClip p (playerAt s p) (((playerAt s p).buffer.take 48).foldl (fun k f => max k f.part)
      (playerAt s p).part) s = s := if_neg (by rw [foldl_max_le hpart]; omega)
  unfold producePlayer
  dsimp only
  rw [if_pos h, hlater]
  rfl

theorem blockPlayed_player (p : Fin 2) (s : State) : playerAt (blockPlayed p s) p = playedRecord p s := by
  unfold blockPlayed postIf
  split <;> exact playerAt_setPlayer ..

/-- What the note of a low buffer changes. -/
theorem noteLow_player (p : Fin 2) (s : State) : playerAt (noteLow p s) p = { playerAt s p with
    low := (playerAt s p).low || (decide ((playerAt s p).state = .playing)
      && decide ((playerAt s p).buffer.length < 1536) && !(playerAt s p).fullyFetched) } := by
  by_cases h : (playerAt s p).state = .playing ∧ (playerAt s p).low = false ∧ (playerAt s p).buffer.length < 1536
      ∧ (playerAt s p).fullyFetched = false
  · obtain ⟨hst, hlow, hlen, hfull⟩ := h
    have hnote : noteLow p s = post .playerLow [word p, word (heldTag (playerAt s p)).toNat]
        (setPlayer p { playerAt s p with low := true } s) := if_pos ⟨hst, hlow, hlen, hfull⟩
    rw [hnote]
    refine (playerAt_setPlayer ..).trans ?_
    simp [hst, hlen, hfull]
  · have hnote : noteLow p s = s := if_neg h
    have hlow : ((playerAt s p).low || (decide ((playerAt s p).state = .playing)
        && decide ((playerAt s p).buffer.length < 1536) && !(playerAt s p).fullyFetched)) = (playerAt s p).low := by
      cases hl : (playerAt s p).low with
      | true => rfl
      | false =>
        rw [Bool.false_or, Bool.eq_false_iff]
        intro k
        simp only [Bool.and_eq_true, decide_eq_true_eq, Bool.not_eq_true'] at k
        exact h ⟨k.1.1, hl, k.1.2, k.2⟩
    rw [hnote, hlow]

theorem noteLow_frame (p : Fin 2) (s : State) : noteLow p s
    = { s with cp := (noteLow p s).cp, pu := { s.pu with players := s.pu.players.put p (playerAt (noteLow p s) p) } } := by
  have hnote : ∃ cp x, noteLow p s = { s with cp := cp, pu := { s.pu with players := s.pu.players.put p x } } := by
    unfold noteLow
    dsimp only
    split
    · exact ⟨_, _, rfl⟩
    · exact ⟨s.cp, playerAt s p, by rw [playerAt, Tab.put_at]⟩
  obtain ⟨cp, x, hx⟩ := hnote
  have hat : playerAt (noteLow p s) p = x := by
    rw [hx]
    exact (Tab.at_put ..).trans (if_pos rfl)
  rw [hat, hx]

theorem Player.short_iff (x : Player) : x.short = true ↔ x.buffer.length < 48 ∧ x.fullyFetched = false := by
  simp [Player.short]

theorem blockPlayed_frame (p : Fin 2) (s : State) : blockPlayed p s = { s with
    cp := (blockPlayed p s).cp, pu := { s.pu with players := s.pu.players.put p (playedRecord p s) } } := by
  unfold blockPlayed postIf
  split <;> rfl

theorem blockPlayed_posted (p : Fin 2) (s : State) : Posted s.cp (blockPlayed p s).cp :=
  (postIf_steady _ .playerUnderrun _ (.refl (setPlayer p (playedRecord p s) s))).posted

theorem blockPlayed_tells {p : Fin 2} {s : State} (h : (playerAt s p).short = true)
    (ht : (playerAt s p).underrunTold = false) : (blockPlayed p s).cp = s.cp.post ⟨.playerUnderrun, s.clock.blockCount,
      [word p, word (heldTag (playerAt s p)).toNat, word (playerAt s p).position]⟩ := by
  rw [blockPlayed, h, ht]
  rfl

theorem noteLow_posted (p : Fin 2) (s : State) : Posted s.cp (noteLow p s).cp := (noteLow_steady p (.refl s)).posted

/-- The state after a player's block. -/
theorem blockNoted_frame (p : Fin 2) (s : State) : noteLow p (blockPlayed p s) = { s with
    cp := (noteLow p (blockPlayed p s)).cp
    pu := { s.pu with players := s.pu.players.put p (playerAt (noteLow p (blockPlayed p s)) p) } } := by
  have hnote := noteLow_frame p (blockPlayed p s)
  generalize noteLow p (blockPlayed p s) = t at hnote ⊢
  rw [blockPlayed_frame] at hnote
  exact hnote.trans (by rw [Tab.put_put])

/-- The record after a player's block, its low flag looked at. -/
theorem blockNoted_player (p : Fin 2) (s : State) : playerAt (noteLow p (blockPlayed p s)) p
    = { playedRecord p s with low := (playedRecord p s).low || (decide ((playerAt s p).state = .playing)
      && decide ((playedRecord p s).buffer.length < 1536) && !(playedRecord p s).fullyFetched) } := by
  rw [noteLow_player, blockPlayed_player]
  rfl

theorem Player.lastBlock_iff (x : Player) (r : Ramp) : x.lastBlock r = true
    ↔ (∃ n, streamLength x.stream = some n ∧ n ≤ x.position + 48)
      ∨ ((x.state = .ending ∨ x.state = .held) ∧ r.length ≤ r.position + 1) := by
  unfold Player.lastBlock Ramp.finishes
  cases streamLength x.stream <;> cases x.state <;> simp

theorem Player.capped_none {x : Player} (h : streamLength x.stream = none) (n : Nat) : x.capped n = n := by
  rw [Player.capped, h]

theorem Player.capped_some {x : Player} {len : Nat} (h : streamLength x.stream = some len) (n : Nat) :
    x.capped n = min len n := by rw [Player.capped, h]

theorem Player.monoBlock_held {x : Player} {frames : List BufFrame} (h : frames ≠ []) :
    x.monoBlock frames = frames.all BufFrame.mono := by
  cases frames with
  | nil => exact absurd rfl h
  | cons f rest => rfl

/-- Settles O28. -/
theorem playersProduceTheirBlocks : Obligations.PlayersProduceTheirBlocks := by
  refine ⟨fun p s => ⟨Player.produces_iff _, producePlayer_silent⟩, streamLength_eq, fun p e s hprod he => ?_⟩
  intro x frames r y air hparts
  obtain ⟨hstate, hblock⟩ := Prod.ext_iff.1 (producePlayer_block hprod fun f hf =>
    of_decide_eq_true (List.all_eq_true.1 hparts f hf))
  have hstate : r.1 = noteLow p (blockPlayed p s) := hstate
  have hblock : r.2 = _ := hblock
  clear_value r
  have hy : y = _ := (congrArg (playerAt · p) hstate).trans (blockNoted_player p s)
  have htag : heldTag x = e.tag := by rw [heldTag, he]; rfl
  refine ⟨_, hblock, ?_⟩
  refine ⟨rfl, rfl, by rw [he]; rfl, htag, rfl, ?samples, fun hne => Player.monoBlock_held hne, Player.lastBlock_iff ..,
    ?frame, ?posted, by rw [hy]; rfl, by rw [hy]; rfl, by rw [hy]; rfl, by rw [hy]; rfl, 
    fun hn => (congrArg Player.position hy).trans (Player.capped_none hn _),
    fun n hn => (congrArg Player.position hy).trans (Player.capped_some hn _), fun hfull => ?full,
    fun hlen hfull => ?short, ?low⟩
  case samples => simp only [frames, x]
  case frame =>
    simp only [y]
    rw [hstate]
    exact blockNoted_frame p s
  case posted =>
    rw [hstate]
    exact (blockPlayed_posted p s).trans (noteLow_posted p _)
  case full =>
    have hshort : ¬x.short = true := by
      rw [Player.short_iff]
      rintro ⟨hlen, hno⟩
      rcases hfull with h | h
      · omega
      · exact absurd (h.symm.trans hno) (by decide)
    exact ⟨(congrArg Player.fetchPosition hy).trans (if_neg hshort), (congrArg Player.underruns hy).trans (if_neg hshort)⟩
  case short =>
    have hshort : x.short = true := (Player.short_iff x).2 ⟨hlen, hfull⟩
    refine ⟨?_, (congrArg Player.underruns hy).trans (if_pos hshort), fun htold => ?_⟩
    · rw [hy]
      exact if_pos hshort
    · rw [hstate, ← htag, ← blockPlayed_tells hshort htold]
      exact noteLow_posted p _
  case low =>
    have hlow : y.low = (x.low && !(decide (3072 ≤ y.buffer.length) || y.fullyFetched)
        || (decide (x.state = .playing) && decide (y.buffer.length < 1536) && !y.fullyFetched)) := by
      rw [hy]
      rfl
    rw [hlow]
    simp only [Bool.or_eq_true, Bool.and_eq_true, Bool.not_eq_true', Bool.or_eq_false_iff, decide_eq_true_eq,
      decide_eq_false_iff_not, Nat.not_le]
    tauto

end Sys2Proof.Machine
end

section
/-! SUPPORT. The bus stage and the forward frame (R50 to R58, R157, R167), and the settling of O29. -/

namespace Sys2Proof.Machine

/-! ## Blocks stay 48 frames long on the way to a bus (R41, R50) -/

theorem length_addWeighted {acc : Block} (h : acc.length = 48) (b : Block) (w : Int) : (addWeighted acc b w).length = 48 := by
  simp [addWeighted, block48, silence, h]

theorem length_accumulate (t : List Entry) (includes : Entry → Bool) (weight : Entry → Nat) :
    (accumulate t includes weight).length = 48 :=
  List.foldlRecOn _ _ (motive := fun acc : Block => acc.length = 48) (by simp [zeroAcc, silence])
    fun _ h e _ => length_addWeighted h (contribution e) (weight e)

theorem length_zeroAcc : zeroAcc.length = 48 := List.length_replicate

theorem length_holdOf (h : Nat) (acc : Block) : (holdOf h acc).length = acc.length := List.length_map _

theorem length_lessOwn (l : Fin 3) {prog : Block} (h : prog.length = 48) (s : State) : (lessOwn l prog s).length = 48 := by
  unfold lessOwn
  split
  · split
    · exact length_addWeighted h _ _
    · exact h
  · exact h

theorem length_mixMinusAcc (l : Fin 3) (input : BlockInput) {prog : Block} (h : prog.length = 48) (s : State) :
    (mixMinusAcc l input prog s).length = 48 := by
  unfold mixMinusAcc
  dsimp only
  split
  case h_1 => exact length_lessOwn l h s
  case h_2 => exact length_addWeighted length_zeroAcc _ _
  case h_3 => exact (length_holdOf _ _).trans (length_lessOwn l h s)
  case h_4 => exact (length_holdOf _ _).trans (length_lessOwn l h s)
  case h_5 =>
    split
    · exact length_addWeighted length_zeroAcc _ _
    · exact length_zeroAcc
  case h_6 => exact length_zeroAcc

theorem length_outputStage (trim : Ramp) {acc : Block} (h : acc.length = 48) : (outputStage trim acc).block.length = 48 := by
  simp [outputStage, Ramp.gains, h]

/-! ## Three frames make a phone sample (R57) -/

theorem downConvert_eq : ∀ (n : Nat) (b : Block), b.length = 3 * n → downConvert b
    = (List.range n).map fun j => downSample (b.getD (3 * j) (0, 0)) (b.getD (3 * j + 1) (0, 0)) (b.getD (3 * j + 2) (0, 0))
  | 0, b, h => by
    rw [List.eq_nil_of_length_eq_zero h]
    rfl
  | n + 1, [], h => by simp at h
  | n + 1, [_], h => by simp at h; omega
  | n + 1, [_, _], h => by simp at h; omega
  | n + 1, x :: y :: z :: rest, h => by
    have hr : rest.length = 3 * n := by
      simp only [List.length_cons] at h
      omega
    rw [downConvert, downConvert_eq n rest hr, List.range_succ_eq_map, List.map_cons, List.map_map]
    rfl

theorem sat16_changes (x : Int) : (sat16 x != x) = decide (x < -32768 ∨ 32767 < x) := by
  rw [Bool.eq_iff_iff, bne_iff_ne, decide_eq_true_iff, sat16]
  omega

theorem clipped_sat16 (l : List Int) : clipped sat16 l = (l.filter fun x => decide (x < -32768 ∨ 32767 < x)).length :=
  congrArg (fun p => (l.filter p).length) (funext sat16_changes)

/-! ## The bus stage, bus by bus (R50 to R58) -/

/-- The accumulator of a bus (R52 to R54). -/
def busAcc (input : BlockInput) (s : State) (b : Fin 6) : Block :=
  match b.val with
  | 0 => programAcc s
  | 1 => cueAcc s
  | 2 => holdOf (holdWeight s) (programAcc s)
  | n => match index? 3 (n - 3) with
    | some l => mixMinusAcc l input (programAcc s) s
    | none => zeroAcc

/-- A bus as its output stage leaves it, where it is formed (R51, R54). -/
def busOut (input : BlockInput) (s : State) (b : Fin 6) : BusOut :=
  if s.settings.roles.caller || !isMixMinus b then outputStage (Tab.at s.me.trims b) (busAcc input s b) else ⟨silence, 0⟩

/-- A line's phone samples before the 16-bit limit (R57). -/
def busPhone (input : BlockInput) (s : State) (l : Fin 3) : List Int :=
  if s.settings.roles.caller then downConvert (busOut input s ⟨l.val + 3, by omega⟩).block else List.replicate 16 0

theorem busStage_frame (input : BlockInput) (s : State) : busStage input s = { s with me := { s.me with
    trims := Tab.each s.me.trims Ramp.advance, meters := (busStage input s).me.meters, playing := s.me.outputs
    phonePlaying := s.me.phoneOutputs, outputs := (busStage input s).me.outputs
    phoneOutputs := (busStage input s).me.phoneOutputs } } := rfl

theorem busStage_output_none {input : BlockInput} {s : State} {k : Fin 8} (h : Tab.at s.settings.outMap k = none) :
    Tab.at (busStage input s).me.outputs k = silence := by
  refine (Tab.at_ofFn _ _).trans ?_
  dsimp only
  rw [h]

/-- The bus that stands at a place of the order of R52. -/
theorem busStage_output {input : BlockInput} {s : State} {k : Fin 8} {b : Bus} (h : Tab.at s.settings.outMap k = some b)
    {i : Fin 6} (hi : Bus.place b = i.val) : Tab.at (busStage input s).me.outputs k = (busOut input s i).block := by
  refine (Tab.at_ofFn _ _).trans ?_
  dsimp only
  rw [h]
  dsimp only
  rw [hi, index?_val]
  exact congrArg BusOut.block (Tab.at_ofFn _ _)

/-- What the 16-bit limits of a line's phone samples add to its bus's clip count (R58). -/
def busClips (input : BlockInput) (s : State) (b : Fin 6) : Nat :=
  match index? 3 (b.val - 3) with
  | some l => if 3 ≤ b.val then clipped sat16 (busPhone input s l) else 0
  | none => 0

theorem busStage_phone (input : BlockInput) (s : State) (l : Fin 3) :
    Tab.at (busStage input s).me.phoneOutputs l = (busPhone input s l).map sat16 := by
  refine (Tab.at_ofFn _ _).trans ?_
  simp only [Tab.at_ofFn]
  rfl

theorem busStage_meter (input : BlockInput) (s : State) (b : Fin 6) :
    Tab.at (busStage input s).me.meters b = if s.settings.roles.caller || !isMixMinus b then
        (Tab.at s.me.meters b).take (busOut input s b).block ((busOut input s b).clips + busClips input s b)
      else { Tab.at s.me.meters b with last := 0 } := by
  refine (Tab.at_ofFn _ _).trans ?_
  simp only [Tab.at_ofFn]
  rfl

theorem busStage_meter_main (input : BlockInput) (s : State) {b : Fin 6} (hb : b.val < 3) :
    Tab.at (busStage input s).me.meters b
      = (Tab.at s.me.meters b).take (busOut input s b).block ((busOut input s b).clips + 0) := by
  have hn : b.val - 3 = (0 : Fin 3).val := Nat.sub_eq_zero_of_le (by omega)
  rw [busStage_meter, if_pos (by simp [isMixMinus, hb]), busClips, hn, index?_val]
  dsimp only
  rw [if_neg (by omega)]

theorem busStage_meter_line (input : BlockInput) {s : State} (hc : s.settings.roles.caller = true) (l : Fin 3) :
    Tab.at (busStage input s).me.meters ⟨l.val + 3, by omega⟩ = (Tab.at s.me.meters ⟨l.val + 3, by omega⟩).take
      (busOut input s ⟨l.val + 3, by omega⟩).block
      ((busOut input s ⟨l.val + 3, by omega⟩).clips + clipped sat16 (busPhone input s l)) := by
  rw [busStage_meter, if_pos (by simp [hc]), busClips]
  dsimp only
  rw [Nat.add_sub_cancel, index?_val]
  dsimp only
  rw [if_pos (by omega)]

theorem busStage_meter_unformed (input : BlockInput) {s : State} (hc : s.settings.roles.caller = false) (l : Fin 3) :
    Tab.at (busStage input s).me.meters ⟨l.val + 3, by omega⟩
      = { Tab.at s.me.meters ⟨l.val + 3, by omega⟩ with last := 0 } := by
  rw [busStage_meter, if_neg (by simp [hc, isMixMinus])]

theorem busOut_main (input : BlockInput) (s : State) {b : Fin 6} (hb : b.val < 3) :
    busOut input s b = outputStage (Tab.at s.me.trims b) (busAcc input s b) :=
  if_pos (by simp [isMixMinus, hb])

theorem busAcc_line (input : BlockInput) (s : State) (l : Fin 3) :
    busAcc input s ⟨l.val + 3, by omega⟩ = mixMinusAcc l input (programAcc s) s := by
  match l with
  | 0 => rfl
  | 1 => rfl
  | 2 => rfl

theorem busOut_line (input : BlockInput) {s : State} (hc : s.settings.roles.caller = true) (l : Fin 3) :
    busOut input s ⟨l.val + 3, by omega⟩
      = outputStage (Tab.at s.me.trims ⟨l.val + 3, by omega⟩) (mixMinusAcc l input (programAcc s) s) := by
  rw [busOut, if_pos (by simp [hc]), busAcc_line]

theorem busOut_unformed (input : BlockInput) {s : State} (hc : s.settings.roles.caller = false) (l : Fin 3) :
    busOut input s ⟨l.val + 3, by omega⟩ = ⟨silence, 0⟩ :=
  if_neg (by simp [hc, isMixMinus])

theorem busPhone_formed (input : BlockInput) {s : State} (hc : s.settings.roles.caller = true) (l : Fin 3) :
    busPhone input s l = (List.range 16).map fun j =>
      downSample ((busOut input s ⟨l.val + 3, by omega⟩).block.getD (3 * j) (0, 0))
        ((busOut input s ⟨l.val + 3, by omega⟩).block.getD (3 * j + 1) (0, 0))
        ((busOut input s ⟨l.val + 3, by omega⟩).block.getD (3 * j + 2) (0, 0)) := by
  rw [busPhone, if_pos hc]
  refine downConvert_eq 16 _ ?_
  rw [busOut_line input hc l]
  exact length_outputStage _ (length_mixMinusAcc l input (length_accumulate _ _ _) s)

theorem produceFiller_link (s : State) :
    (produceFiller .link s).1.link.forwardCount = s.link.forwardCount := by
  unfold produceFiller
  dsimp only
  split
  · rfl
  · unfold postIf
    split <;> rfl

theorem sendForward_eq (prog : Block) (s : State) : sendForward prog s = { (produceFiller .link s).1 with
    link := { (produceFiller .link s).1.link with
      forwardCount := s.link.forwardCount + 1
      sent := onStream (forwardBytes
        { count := s.link.forwardCount
          samples := crossfadeBlocks s.link.filler.gain prog (produceFiller .link s).2
          levels := s.link.outputs
          alert := (airingRecord s).map Alert.id
          cls := (airingRecord s).map Alert.cls
          filler := s.link.filler.state != .off
          lineUp := lineUpOn s })
      filler := { (produceFiller .link s).1.link.filler with gain := (produceFiller .link s).1.link.filler.gain.advance } } } := by
  unfold sendForward
  dsimp only
  rw [produceFiller_link]

/-- Settles O29: each bus is formed once (`busOut`), and slots, meters and phone outputs take it by its place. -/
theorem blockIsMixedAndSentForward : Obligations.BlockIsMixedAndSentForward := by
  refine ⟨?_, fun prog s => sendForward_eq prog s⟩
  intro input s t out program cue hold metered less feed own
  have hfeed : ∀ l, mixMinusAcc l input (programAcc s) s = feed l := by
    intro l
    unfold mixMinusAcc feed lineAt
    dsimp only
    cases (Tab.at s.ku.lines l).state
    case checking => cases (Tab.at s.ku.lines l).voice <;> rfl
    all_goals rfl
  have hplace : ∀ l : Fin 3, Bus.place (own l) = l.val + 3 := by decide
  have hline : s.settings.roles.caller = true → ∀ l : Fin 3,
      busOut input s ⟨l.val + 3, by omega⟩ = out ⟨l.val + 3, by omega⟩ (feed l) :=
    fun hc l => (busOut_line input hc l).trans (congrArg (outputStage _) (hfeed l))
  clear_value feed less
  have main : ∀ b : Fin 6, b.val < 3 → metered b (out b (busAcc input s b)) 0 := fun b hb =>
    (busStage_meter_main input s hb).trans
      (congrArg (fun o => (Tab.at s.me.meters b).take o.block (o.clips + 0)) (busOut_main input s hb))
  have slot : ∀ (b : Fin 6) k, b.val < 3 → ∀ v, Tab.at s.settings.outMap k = some v → Bus.place v = b.val →
      Tab.at t.me.outputs k = (out b (busAcc input s b)).block := fun b _ hb _ hk hv =>
    (busStage_output hk hv).trans (congrArg BusOut.block (busOut_main input s hb))
  refine ⟨busStage_frame input s, fun _ hk => busStage_output_none hk, fun k hk => slot 0 k (by decide) _ hk rfl,
    fun k hk => slot 1 k (by decide) _ hk rfl, fun k hk => slot 2 k (by decide) _ hk rfl,
    main 0 (by decide), main 1 (by decide), main 2 (by decide), rfl, ?caller, ?apart⟩
  case caller =>
    intro hc l b o phone
    have hphone : busPhone input s l = phone := by
      rw [busPhone_formed input hc l, hline hc l]
    refine ⟨(busStage_phone input s l).trans (congrArg _ hphone), ?_, fun k hk => ?_⟩
    · refine (busStage_meter_line input hc l).trans ?_
      rw [hphone, clipped_sat16, hline hc l]
      rfl
    · exact (busStage_output hk (hplace l)).trans (congrArg BusOut.block (hline hc l))
  case apart =>
    intro hc l
    refine ⟨?_, fun k hk => ?_, busStage_meter_unformed input hc l⟩
    · rw [busStage_phone, busPhone, if_neg (by simp [hc])]
      rfl
    · exact (busStage_output hk (hplace l)).trans (congrArg BusOut.block (busOut_unformed input hc l))

end Sys2Proof.Machine
end

section
/-! SUPPORT. DEFINE CLIP and CLIP DATA (R64, R66, R69, R70), and the settling of O30. -/

namespace Sys2Proof.Machine

/-! ## The words of a command that name extents, clips and formats -/

theorem mapM_index {n : Nat} : ∀ {ws : List Word} {l : List (Fin n)}, ws.map BitVec.toNat = l.map Fin.val →
    ws.mapM (fun w : Word => index? n w.toNat) = some l
  | [], [], _ => rfl
  | [], _ :: _, h => nomatch h
  | _ :: _, [], h => nomatch h
  | w :: ws, i :: l, h => by
    obtain ⟨hw, hl⟩ := List.cons.inj h
    rw [List.mapM_cons, mapM_index hl, hw, index?_val]
    rfl

theorem formatOf_code (f : ClipFormat) : formatOf f.ctorIdx = some f := by cases f <;> rfl

/-! ## DEFINE CLIP (R66) -/

section
variable {clip format length : Word} {extents : List Word} {c : Fin 256} {s : State}

theorem defineClip_inUse (hc : clip.toNat = c.val) (h : 252 ≤ c.val ∨ (clipAt s c).state ≠ .empty) :
    defineClip clip format length extents s = refuse .inUse s := by
  rw [defineClip, openClip_number s _ hc]
  split
  case isTrue => rfl
  case isFalse hp => exact if_pos (h.resolve_left fun h => hp (isProtected_iff.2 h))

/-- The words of a well-formed definition (R66). -/
structure Definable (format length : Word) (extents : List Word) (f : ClipFormat) (map : List (Fin 512)) : Prop where
  code : format.toNat = f.ctorIdx
  sized : length.toNat ≠ 0
  named : extents.map BitVec.toNat = map.map Fin.val
  some : map ≠ []
  bound : map.length ≤ 255
  nodup : map.Nodup
  room : length.toNat * bytesPerFrame f ≤ map.length * 1048576

variable {f : ClipFormat} {map : List (Fin 512)}

theorem Definable.fits (h : Definable format length extents f map) : ¬(length.toNat = 0 ∨ map = [] ∨ 255 < map.length
    ∨ ¬map.Nodup ∨ map.length * extentBytes < length.toNat * bytesPerFrame f) := by
  rintro (hl | hm | hb | hn | hr)
  · exact h.sized hl
  · exact h.some hm
  · exact Nat.not_lt.2 h.bound hb
  · exact hn h.nodup
  · exact Nat.not_lt.2 h.room hr

theorem defineClip_owned (hc : clip.toNat = c.val) (ho : c.val < 252) (he : (clipAt s c).state = .empty)
    (h : Definable format length extents f map) {e : Fin 512} {o : Fin 256}
    (hf : map.find? (fun e => (Tab.at s.cs.owner e).isSome) = some e) (hw : Tab.at s.cs.owner e = some o) :
    defineClip clip format length extents s = (s, ⟨.extentOwned, [word e, word o]⟩) := by
  rw [defineClip, openClip_unprotected s _ hc ho, if_neg (not_not_intro he), h.code, formatOf_code, mapM_index h.named]
  dsimp only
  rw [if_neg h.fits, hf]
  dsimp only
  rw [hw]
  rfl

/-- The descriptor that DEFINE CLIP writes (R66). -/
def definedClip (f : ClipFormat) (length : Nat) (map : List (Fin 512)) : Clip :=
  { Clip.empty with state := .filling, format := f, length := length, map := map, segue := length }

theorem defineClip_taken (hc : clip.toNat = c.val) (ho : c.val < 252) (he : (clipAt s c).state = .empty)
    (h : Definable format length extents f map) (hf : ∀ e ∈ map, Tab.at s.cs.owner e = none) :
    defineClip clip format length extents s
      = (setClip c (definedClip f length.toNat map) (ownExtents map (some c) s), .only .ok) := by
  have hfree : map.find? (fun e => (Tab.at s.cs.owner e).isSome) = none :=
    List.find?_eq_none.2 fun e hm => by simp [hf e hm]
  rw [defineClip, openClip_unprotected s _ hc ho, if_neg (not_not_intro he), h.code, formatOf_code, mapM_index h.named]
  dsimp only
  rw [if_neg h.fits, hfree]
  rfl

end

/-! ## The entries and addresses of a run (R64, R69) -/

theorem fillChunks_runs (c : Fin 256) : ∀ (k : Nat) (bs : List Byte), bs.length ≤ k →
    (fillChunks c k bs).length = (bs.length + 63) / 64 ∧ (∀ e ∈ fillChunks c k bs, e.clip = c ∧ e.bytes.length ≤ 64)
      ∧ (∀ e ∈ (fillChunks c k bs).dropLast, e.bytes.length = 64) ∧ (fillChunks c k bs).flatMap FillEntry.bytes = bs := by
  intro k
  induction k with
  | zero =>
    intro bs hk
    rw [List.eq_nil_of_length_eq_zero (Nat.le_zero.1 hk)]
    exact ⟨rfl, nofun, nofun, rfl⟩
  | succ k ih =>
    intro bs hk
    rw [fillChunks]
    split
    case isTrue h =>
      rw [h]
      exact ⟨rfl, nofun, nofun, rfl⟩
    case isFalse h =>
      have hpos := List.length_pos_iff.2 h
      have hdrop : (bs.drop 64).length = bs.length - 64 := List.length_drop
      obtain ⟨hlen, hall, hlast, hbytes⟩ := ih (bs.drop 64) (by omega)
      refine ⟨?_, ?_, fun e he => ?_, ?_⟩
      · rw [List.length_cons, hlen, hdrop]
        omega
      · exact List.forall_mem_cons.2 ⟨⟨rfl, List.length_take_le 64 bs⟩, hall⟩
      · by_cases hn : fillChunks c k (bs.drop 64) = []
        · rw [hn] at he
          exact nomatch he
        · rw [List.dropLast_cons_of_ne_nil hn] at he
          obtain rfl | he := List.mem_cons.1 he
          · have hmore : (bs.drop 64).length ≠ 0 := fun h0 => by
              rw [h0] at hlen
              exact hn (List.eq_nil_of_length_eq_zero hlen)
            exact List.length_take_of_le (by omega)
          · exact hlast e he
      · rw [List.flatMap_cons, hbytes]
        exact List.take_append_drop 64 bs

theorem translate_in {map : List (Fin 512)} {o : Nat} (h : o / 1048576 < map.length) :
    translate map o = some ((map[o / 1048576]).val * 1048576 + o % 1048576) := by
  rw [translate, extentBytes, List.getElem?_eq_getElem h]
  rfl

/-- A run of at most 256 bytes lies in one extent or goes on at the start of the next. -/
theorem fillRun_address (c : Fin 256) {map : List (Fin 512)} {o n k : Nat} (hn : n ≤ 256) (hk : k < n)
    (h : o + n ≤ map.length * 1048576) : translate map (o + k) = some ((fillRun c map o n).addressOf k) := by
  have hfirst : o / 1048576 < map.length := by omega
  unfold fillRun FillRun.addressOf
  rw [translate_in hfirst, extentBytes]
  by_cases hin : o % 1048576 + n ≤ 1048576
  case pos =>
    have hq : (o + k) / 1048576 = o / 1048576 := by omega
    have hr : (o + k) % 1048576 = o % 1048576 + k := by omega
    rw [if_pos hin, translate_in (by omega)]
    simp only [hq, hr, Option.getD_some, Nat.add_assoc]
  case neg =>
    have hq : (o + (1048576 - o % 1048576)) / 1048576 = o / 1048576 + 1 := by omega
    have hr : (o + (1048576 - o % 1048576)) % 1048576 = 0 := by omega
    have hnext : (o + (1048576 - o % 1048576)) / 1048576 < map.length := by omega
    rw [if_neg hin]
    dsimp only
    rw [translate_in hnext]
    simp only [Option.map_some, Option.getD_some, hq, hr]
    split
    case isTrue hk' =>
      have hq' : (o + k) / 1048576 = o / 1048576 + 1 := by omega
      have hr' : (o + k) % 1048576 = k - (1048576 - o % 1048576) := by omega
      rw [translate_in (by omega)]
      simp only [hq', hr', Nat.add_zero]
    case isFalse hk' =>
      have hq' : (o + k) / 1048576 = o / 1048576 := by omega
      have hr' : (o + k) % 1048576 = o % 1048576 + k := by omega
      rw [translate_in (by omega)]
      simp only [hq', hr', Nat.add_assoc]

/-! ## The head of the fill queue (R70) -/

theorem drainHead_frame (s : State) : drainHead s = { s with cs := { s.cs with
    fill := (drainList s.cs.fill s.cs.drain).1, drain := (drainList s.cs.fill s.cs.drain).2 } } := rfl

theorem drainList_chunks (c : Fin 256) (k : Nat) (bs : List Byte) (d : Option Drain) :
    drainList (fillChunks c k bs) d = (fillChunks c k bs, d) := by
  cases k with
  | zero => rfl
  | succ k =>
    rw [fillChunks]
    split <;> rfl

theorem writeWaits_iff {s : State} : writeWaits s = true ↔ ∃ c bs rest, s.cs.fill = .data c bs :: rest := by
  unfold writeWaits
  split
  case h_1 c bs rest h => exact ⟨fun _ => ⟨c, bs, rest, h⟩, fun _ => rfl⟩
  case h_2 h => exact ⟨nofun, fun ⟨c, bs, rest, hf⟩ => absurd hf (h c bs rest)⟩

theorem drainList_waits {s : State} (h : writeWaits s = true) (l : List FillEntry) (d : Option Drain) :
    drainList (s.cs.fill ++ l) d = (s.cs.fill ++ l, d) := by
  obtain ⟨c, bs, rest, hf⟩ := writeWaits_iff.1 h
  rw [hf]
  rfl

theorem queueBytes_frame (c : Fin 256) (bs : List Byte) (s : State) : queueBytes c bs s = { s with cs := { s.cs with
    fill := (queueBytes c bs s).cs.fill, drain := (queueBytes c bs s).cs.drain
    directory := s.cs.directory.put c { clipAt s c with queued := (clipAt s c).queued + bs.length } } } := rfl

theorem queueBytes_empty {c : Fin 256} {bs : List Byte} {s : State} (h : s.cs.fill = []) :
    (queueBytes c bs s).cs.fill = fillChunks c bs.length bs
    ∧ (queueBytes c bs s).cs.drain = some ⟨fillRun c (clipAt s c).map (clipAt s c).queued bs.length, 0⟩ := by
  have hq : drainList (s.cs.fill ++ .address (fillRun c (clipAt s c).map (clipAt s c).queued bs.length)
      :: fillChunks c bs.length bs) s.cs.drain
      = (fillChunks c bs.length bs, some ⟨fillRun c (clipAt s c).map (clipAt s c).queued bs.length, 0⟩) := by
    rw [h]
    exact drainList_chunks c bs.length bs _
  exact ⟨congrArg Prod.fst hq, congrArg Prod.snd hq⟩

theorem queueBytes_waiting {c : Fin 256} {bs : List Byte} {s : State} (h : writeWaits s = true) :
    (queueBytes c bs s).cs.fill = s.cs.fill ++ .address (fillRun c (clipAt s c).map (clipAt s c).queued bs.length)
      :: fillChunks c bs.length bs
    ∧ (queueBytes c bs s).cs.drain = s.cs.drain := by
  have hq := drainList_waits h (.address (fillRun c (clipAt s c).map (clipAt s c).queued bs.length)
    :: fillChunks c bs.length bs) s.cs.drain
  exact ⟨congrArg Prod.fst hq, congrArg Prod.snd hq⟩

/-! ## CLIP DATA (R69) -/

section
variable {clip offset : Word} {bs : List Byte} {c : Fin 256} {s : State}

/-- CLIP DATA of a run of bytes for a clip that is being filled. -/
structure DataOffered (clip : Word) (bs : List Byte) (c : Fin 256) (s : State) : Prop where
  number : clip.toNat = c.val
  unprotected : c.val < 252
  some : bs ≠ []
  bound : bs.length ≤ 256
  filling : (clipAt s c).state = .filling
  unsealed : (clipAt s c).sealPending = false

theorem clipData_offered (h : DataOffered clip bs c s) : clipData clip offset bs s
    = if offset.toNat ≠ (clipAt s c).queued then (s, ⟨.badOffset, [word (clipAt s c).queued]⟩)
      else if (clipAt s c).bytes < offset.toNat + bs.length then refuse .badParam s
      else if fillFree s < fillNeed bs.length then (s, ⟨.full, [word (fillFree s)]⟩)
      else (queueBytes c bs s, .okWith [word ((clipAt s c).queued + bs.length)]) := by
  have hrun : ¬(bs = [] ∨ 256 < bs.length) := fun hb => hb.elim h.some (Nat.not_lt.2 h.bound)
  have hopen : ¬isProtected c = true := fun hp => Nat.not_le.2 h.unprotected (isProtected_iff.1 hp)
  have hstate : ¬((clipAt s c).state ≠ .filling ∨ (clipAt s c).sealPending = true) := by simp [h.filling, h.unsealed]
  rw [clipData, h.number, index?_val]
  dsimp only
  rw [if_neg hrun, if_neg hopen, if_neg hstate]

theorem clipData_offset (h : DataOffered clip bs c s) (ho : offset.toNat ≠ (clipAt s c).queued) :
    clipData clip offset bs s = (s, ⟨.badOffset, [word (clipAt s c).queued]⟩) :=
  (clipData_offered h).trans (if_pos ho)

theorem clipData_full (h : DataOffered clip bs c s) (ho : offset.toNat = (clipAt s c).queued)
    (hb : offset.toNat + bs.length ≤ (clipAt s c).bytes) (hf : fillFree s < fillNeed bs.length) :
    clipData clip offset bs s = (s, ⟨.full, [word (fillFree s)]⟩) := by
  rw [clipData_offered h, if_neg (not_not_intro ho), if_neg (Nat.not_lt.2 hb), if_pos hf]

theorem clipData_taken (h : DataOffered clip bs c s) (ho : offset.toNat = (clipAt s c).queued)
    (hb : offset.toNat + bs.length ≤ (clipAt s c).bytes) (hf : fillNeed bs.length ≤ fillFree s) :
    clipData clip offset bs s = (queueBytes c bs s, .okWith [word ((clipAt s c).queued + bs.length)]) := by
  rw [clipData_offered h, if_neg (not_not_intro ho), if_neg (Nat.not_lt.2 hb), if_neg (Nat.not_lt.2 hf)]

end

/-- Settles O30: DEFINE CLIP by the clip and the owners of its extents, CLIP DATA by its offset and the room. -/
theorem clipIsDefinedAndFilled : Obligations.ClipIsDefinedAndFilled := by
  refine ⟨?define, ?data⟩
  case define =>
    intro clip format length extents c m s h hc
    refine ⟨fun f map ho he hf hl hn hs hb hd hr => ?_, fun hu => hostRow_act h (defineClip_inUse hc hu)⟩
    have hdef : Definable format length extents f map := ⟨hf, hl, hn, hs, hb, hd, hr⟩
    refine ⟨fun hfree => ⟨_, hostRow_act h (defineClip_taken hc ho he hdef hfree), rfl,
      ownExtents_owner map (some c) s⟩, fun e o hfind howner => ?_⟩
    exact hostRow_act h (defineClip_owned hc ho he hdef hfind howner)
  case data =>
    intro clip offset bs c m s h hc ho hs hb hf hu
    have hdata : DataOffered clip bs c s := ⟨hc, ho, hs, hb, hf, hu⟩
    refine ⟨fun hoff => hostRow_act h (clipData_offset hdata hoff), fun hoff hbytes => ⟨fun hfull => ?_, fun hroom hmap => ?_⟩⟩
    · exact hostRow_act h (clipData_full hdata hoff hbytes (by unfold fillFree fillNeed; omega))
    · obtain ⟨hlen, hall, hlast, hflat⟩ := fillChunks_runs c bs.length bs (Nat.le_refl _)
      refine ⟨queueBytes c bs s, fillRun c (clipAt s c).map (clipAt s c).queued bs.length, fillChunks c bs.length bs,
        ?_, ?_, rfl, hoff.symm, rfl, fun k hk => ?_, hlen, hall, hlast, hflat, queueBytes_empty, queueBytes_waiting⟩
      · rw [hoff]
        exact hostRow_act h (clipData_taken hdata hoff hbytes (by unfold fillFree fillNeed; omega))
      · rw [hoff]
        exact queueBytes_frame c bs s
      · rw [hoff]
        exact fillRun_address c hb hk (by omega)

end Sys2Proof.Machine
end

section
/-! SUPPORT. SEAL CLIP, DELETE CLIP and the rotation groups (R68, R71, R77, R78), and the settling of O31. -/

namespace Sys2Proof.Machine

/-! ## SEAL CLIP (R71) -/

theorem clipAt_setClip (c : Fin 256) (d : Clip) (s : State) : clipAt (setClip c d s) c = d :=
  (setClip_at c c d s).trans (if_pos rfl)

theorem setClip_setClip (c : Fin 256) (d d' : Clip) (s : State) : setClip c d' (setClip c d s) = setClip c d' s := by
  unfold setClip
  dsimp only
  rw [Tab.put_put]

section
variable {c : Fin 256} {s : State}

theorem settleSeal_written {d : Clip} (hp : d.sealPending = true) (hw : d.written = d.bytes) :
    settleSeal c (setClip c d s) = post .clipReady [word c] (setClip c { d with state := .ready, sealPending := false } s) := by
  rw [settleSeal, clipAt_setClip]
  exact (if_pos ⟨hp, hw⟩).trans (congrArg (post .clipReady [word c]) (setClip_setClip _ _ _ _))

theorem settleSeal_unwritten {d : Clip} (hw : d.written ≠ d.bytes) : settleSeal c (setClip c d s) = setClip c d s := by
  rw [settleSeal, clipAt_setClip]
  exact if_neg fun h => hw h.2

theorem takeSeal_written (hp : (clipAt s c).sealPending = false) (hw : (clipAt s c).written = (clipAt s c).bytes) :
    takeSeal c s = post .clipReady [word c] (setClip c { clipAt s c with state := .ready } s) := by
  refine (settleSeal_written (d := { clipAt s c with sealPending := true }) rfl hw).trans ?_
  rw [← hp]

theorem takeSeal_unwritten (hw : (clipAt s c).written ≠ (clipAt s c).bytes) :
    takeSeal c s = setClip c { clipAt s c with sealPending := true } s :=
  settleSeal_unwritten hw

variable {clip : Word}

/-- SEAL CLIP of a clip that is being filled and wholly queued. -/
theorem sealClip_queued (hc : clip.toNat = c.val) (ho : c.val < 252) (hf : (clipAt s c).state = .filling)
    (hq : (clipAt s c).bytes ≤ (clipAt s c).queued) {t : State}
    (ht : (if (clipAt s c).sealPending then s else takeSeal c s) = t) :
    sealClip clip s = (t, .okWith [word (clipAt t c).state.ctorIdx]) := by
  have hready : ¬((clipAt s c).state ≠ .filling ∨ (clipAt s c).queued < (clipAt s c).bytes) :=
    not_or.2 ⟨not_not_intro hf, Nat.not_lt.2 hq⟩
  rw [sealClip, openClip_unprotected s _ hc ho]
  dsimp only
  rw [if_neg hready, ht]

end

/-! ## DELETE CLIP (R68) -/

section
variable {clip : Word} {c : Fin 256} {s : State}

theorem deleteClip_inUse (hc : clip.toNat = c.val) (ho : c.val < 252) (he : (clipAt s c).state ≠ .empty) {r : Nat × Nat}
    (hr : clipReference c s = some r) : deleteClip clip s = (s, ⟨.inUse, [word r.1, word r.2]⟩) := by
  rw [deleteClip, openClip_unprotected s _ hc ho, if_neg he, hr]

theorem deleteClip_freed (hc : clip.toNat = c.val) (ho : c.val < 252) (he : (clipAt s c).state ≠ .empty)
    (hr : clipReference c s = none) :
    deleteClip clip s = (setClip c Clip.empty (ownExtents (clipAt s c).map none s), .only .ok) := by
  rw [deleteClip, openClip_unprotected s _ hc ho, if_neg he, hr]

end

/-- A clip without a reference: nothing of R68's table keeps it. -/
theorem clipReference_none {c : Fin 256} {s : State} (h : clipReference c s = none) :
    (∀ e ∈ s.pu.cues, e.source ≠ .clip c) ∧ (∀ g, c ∉ (Tab.at s.cs.groups g).clips) ∧ fillEntriesOf c s = 0
      ∧ (clipAt s c).assigned = false ∧ s.settings.fillerClip ≠ some c ∧ s.settings.siteAlertClip ≠ some c := by
  unfold clipReference at h
  split at h
  case h_1 => exact nomatch h
  case h_2 hcue =>
  split at h
  case h_1 => exact nomatch h
  case h_2 =>
  split at h
  case h_1 => exact nomatch h
  case h_2 hgroup =>
  split at h
  case isTrue => exact nomatch h
  case isFalse hfill =>
  split at h
  case isTrue => exact nomatch h
  case isFalse hfiller =>
  split at h
  case isTrue => exact nomatch h
  case isFalse hsite =>
  split at h
  case isTrue => exact nomatch h
  case isFalse hassigned =>
  refine ⟨fun e he hs => List.find?_eq_none.1 hcue e he (beq_iff_eq.2 hs),
    fun g hg => List.find?_eq_none.1 hgroup g (List.mem_finRange g) (List.contains_iff_mem.2 hg),
    Nat.eq_zero_of_not_pos hfill, Bool.eq_false_iff.2 hassigned, hfiller, hsite⟩

/-! ## Rotation groups (R77, R78) -/

theorem groupModeOf_code (md : GroupMode) : groupModeOf md.ctorIdx = some md := by cases md <;> rfl

theorem setGroup_taken {group mode start : Word} {clips : List Word} {g : Fin 16} {md : GroupMode} {l : List (Fin 256)}
    {s : State} (hg : group.toNat = g.val) (hm : mode.toNat = md.ctorIdx) (hl : clips.map BitVec.toNat = l.map Fin.val)
    (hs : l ≠ []) (hb : l.length ≤ 8) (hc : ∀ c ∈ l, c.val < 252 ∧ (clipAt s c).state ≠ .empty) {v : Nat}
    (hv : v = if start.toNat = 0 then l.length else min l.length start.toNat) :
    setGroup group mode clips start s
      = ({ s with cs := { s.cs with groups := s.cs.groups.put g ⟨l, md, v, v⟩ } }, .only .ok) := by
  have hrun : ¬(l = [] ∨ 8 < l.length) := fun h => h.elim hs (Nat.not_lt.2 hb)
  have hopen : ¬l.any isProtected = true := fun h => by
    obtain ⟨c, hm, hp⟩ := List.any_eq_true.1 h
    exact Nat.not_le.2 (hc c hm).1 (isProtected_iff.1 hp)
  have hdef : ¬l.any (fun c => (clipAt s c).state == .empty) = true := fun h => by
    obtain ⟨c, hm, he⟩ := List.any_eq_true.1 h
    exact (hc c hm).2 (beq_iff_eq.1 he)
  rw [setGroup, hg, index?_val, hm, groupModeOf_code, mapM_index hl]
  dsimp only
  rw [if_neg hrun, if_neg hopen, if_neg hdef, ← hv]

theorem clearGroup_named {group : Word} {g : Fin 16} {s : State} (hg : group.toNat = g.val) : clearGroup group s
    = if groupCued g s then refuse .inUse s
      else ({ s with cs := { s.cs with groups := s.cs.groups.put g Group.empty } }, .only .ok) := by
  rw [clearGroup, hg, index?_val]

theorem groupCued_iff {g : Fin 16} {s : State} : groupCued g s = true ↔ ∃ e ∈ s.pu.cues, e.source = .group g := by
  simp [groupCued]

theorem resolveGroup_at (g : Fin 16) (s : State) :
    Tab.at (resolveGroup g s).1.cs.groups g = (Tab.at s.cs.groups g).turn := (Tab.at_put _ g g _).trans (if_pos rfl)

theorem Group.answer_empty {g : Group} (h : g.clips = []) : g.answer = [] := by
  unfold Group.answer
  split <;> simp [h]

theorem Group.answer_single {g : Group} (hm : g.mode = .single) (h1 : 1 ≤ g.pointer) (h2 : g.pointer ≤ g.clips.length) :
    g.answer.map some = [g.clips[g.pointer - 1]?] := by
  have hlt : g.pointer - 1 < g.clips.length := by omega
  rw [Group.answer, hm]
  dsimp only
  rw [List.getElem?_eq_getElem hlt]
  rfl

theorem Group.turn_single {g : Group} (hc : g.clips ≠ []) (hm : g.mode = .single) (h1 : 1 ≤ g.pointer) :
    g.turn = { g with pointer := if g.pointer = 1 then g.start else g.pointer - 1 } := by
  have hone : (g.pointer - 1 = 0) = (g.pointer = 1) := propext (by omega)
  rw [Group.turn, if_neg hc, hm]
  dsimp only
  simp only [hone]

theorem Group.turn_sweep {g : Group} (hc : g.clips ≠ []) (hm : g.mode = .sweep) :
    g.answer = (g.clips.take g.pointer).reverse ∧ g.turn = { g with pointer := g.start } := by
  rw [Group.turn, if_neg hc, Group.answer, hm]
  exact ⟨rfl, rfl⟩

/-- Settles O31, each command by its own case, a resolution by the group's mode. -/
theorem clipsAndGroupsAreChanged : Obligations.ClipsAndGroupsAreChanged := by
  refine ⟨⟨?sealing, ?delete⟩, ?setGroup, ?clearGroup, ?resolve⟩
  case sealing =>
    intro clip c m s h hc ho hf hq
    refine ⟨fun hp hw => ?_, fun hp hw => ?_, fun hp => ?_⟩
    · have ht : (if (clipAt s c).sealPending then s else takeSeal c s) = _ :=
        (if_neg (Bool.eq_false_iff.1 hp)).trans (takeSeal_written hp hw)
      refine (hostRow_act h (sealClip_queued hc ho hf hq ht)).trans ?_
      rw [show (clipAt (post .clipReady [word c] (setClip c { clipAt s c with state := .ready } s)) c).state = .ready from
        congrArg Clip.state (clipAt_setClip c _ s)]
      rfl
    · have ht : (if (clipAt s c).sealPending then s else takeSeal c s) = _ :=
        (if_neg (Bool.eq_false_iff.1 hp)).trans (takeSeal_unwritten hw)
      refine (hostRow_act h (sealClip_queued hc ho hf hq ht)).trans ?_
      rw [clipAt_setClip, hf]
      rfl
    · refine (hostRow_act h (sealClip_queued hc ho hf hq (if_pos hp))).trans ?_
      rw [hf]
      rfl
  case delete =>
    intro clip c m s h hc ho he
    refine ⟨fun r hr => hostRow_act h (deleteClip_inUse hc ho he hr), fun hr => ?_⟩
    obtain ⟨hcue, hgroup, hfill, hassigned, hfiller, hsite⟩ := clipReference_none hr
    exact ⟨hcue, hgroup, hfill, hassigned, hfiller, hsite, _, hostRow_act h (deleteClip_freed hc ho he hr), rfl,
        ownExtents_owner (clipAt s c).map none s⟩
  case setGroup =>
    intro group mode start clips g md l m s h hg hm hl hs hb hc
    exact ⟨_, rfl, hostRow_act h (setGroup_taken hg hm hl hs hb hc rfl)⟩
  case clearGroup =>
    intro group g m s h hg
    refine ⟨fun hn => ?_, fun e he hs => ?_⟩
    · have hcued : ¬groupCued g s = true := fun hcued => by
        obtain ⟨e, he, hs⟩ := groupCued_iff.1 hcued
        exact hn e he hs
      exact hostRow_act h ((clearGroup_named hg).trans (if_neg hcued))
    · exact hostRow_act h ((clearGroup_named hg).trans (if_pos (groupCued_iff.2 ⟨e, he, hs⟩)))
  case resolve =>
    intro g s r t
    have hat : Tab.at t.1.cs.groups g = r.turn := resolveGroup_at g s
    refine ⟨fun hc => ⟨Group.answer_empty hc, hat.trans (if_pos hc)⟩,
      fun hc hm h1 h2 => ⟨Group.answer_single hm h1 h2, hat.trans (Group.turn_single hc hm h1)⟩, fun hc hm => ?_⟩
    obtain ⟨hanswer, hturn⟩ := Group.turn_sweep hc hm
    exact ⟨hanswer, hat.trans hturn⟩

end Sys2Proof.Machine
end

section
/-! SUPPORT. The DRAM port's writes and fetches (R64, R70 to R73, R88), and the settling of O33. -/

namespace Sys2Proof.Machine

/-! ## What a run of writes leaves in DRAM -/

/-- A byte written once in a run of writes to distinct addresses is read back. -/
theorem memRead_memWriteAll_mem {l : List (Nat × Byte)} {m : List Host.Cell} (h : Memory.wf m = true)
    (hd : (l.map Prod.fst).Nodup) {a : Nat} {b : Byte} (hm : (a, b) ∈ l) : memRead (memWriteAll m l) a = b := by
  induction l generalizing m with
  | nil => exact nomatch hm
  | cons p l ih =>
    obtain ⟨hp, hl⟩ := List.nodup_cons.1 hd
    obtain rfl | hm := List.mem_cons.1 hm
    · rw [memWriteAll, memRead_memWriteAll l (memWrite_wf a b h) a fun q hq he => hp (List.mem_map.2 ⟨q, hq, he⟩),
        memRead_memWrite a a b h, if_pos rfl]
    · exact ih (memWrite_wf p.1 p.2 h) hl hm

theorem writeList_fst (d : Drain) (bs : List Byte) :
    (writeList d bs).map Prod.fst = (List.range bs.length).map fun k => d.run.addressOf (d.done + k) :=
  List.map_fst_zip (by simp)

theorem mem_writeList (d : Drain) {bs : List Byte} {k : Nat} (h : k < bs.length) :
    (d.run.addressOf (d.done + k), bs[k]) ∈ writeList d bs := by
  have hk : k < (writeList d bs).length := by simp [writeList, h]
  have he : (writeList d bs)[k] = (d.run.addressOf (d.done + k), bs[k]) := by simp [writeList]
  exact he ▸ List.getElem_mem hk

theorem writeList_nodup {d : Drain} {bs : List Byte} (h : ∀ j k, j < bs.length → k < bs.length →
    d.run.addressOf (d.done + j) = d.run.addressOf (d.done + k) → j = k) : ((writeList d bs).map Prod.fst).Nodup := by
  rw [writeList_fst]
  exact List.Nodup.map_on (fun j hj k hk => h j k (List.mem_range.1 hj) (List.mem_range.1 hk)) List.nodup_range

/-! ## A completed write (R70, R71) -/

theorem settleSeal_of_not {c : Fin 256} {s : State}
    (h : ¬((clipAt s c).sealPending = true ∧ (clipAt s c).written = (clipAt s c).bytes)) :
    settleSeal c s = s := if_neg h

/-- The state when the head entry's bytes are in DRAM and the port is free again (R70). -/
def writeDone (bs : List Byte) (rest : List FillEntry) (d : Drain) (s : State) : State :=
  { s with dram := memWriteAll s.dram (writeList d bs)
           cs := { s.cs with port := .free, fill := rest, drain := some { d with done := d.done + bs.length } } }

section
variable {c : Fin 256} {bs : List Byte} {rest : List FillEntry} {d : Drain} {marks : Bool} {s : State}

theorem completeWrite_eq (hp : s.cs.port = .write marks) (hf : s.cs.fill = .data c bs :: rest) (hd : s.cs.drain = some d) :
    completeWrite s = drainHead (if marks then advanceWritten c bs.length (writeDone bs rest d s) else writeDone bs rest d s) := by
  rw [completeWrite, hp, hf]
  dsimp only
  rw [hd]
  rfl

theorem drainList_held {l : List FillEntry} (h : ∀ r, l.head? ≠ some (.address r)) (d : Option Drain) :
    drainList l d = (l, d) := by
  match l with
  | [] => rfl
  | .data _ _ :: _ => rfl
  | .address r :: _ => exact absurd rfl (h r)

end

/-- A write marked on a clip that is then wholly written makes it READY where its seal is pending (R71). -/
theorem advanceWritten_ready {c : Fin 256} {n : Nat} {s : State} (hp : (clipAt s c).sealPending = true)
    (hw : (clipAt s c).written + n = (clipAt s c).bytes) : advanceWritten c n s = post .clipReady [word c]
      (setClip c { clipAt s c with written := (clipAt s c).written + n, state := .ready, sealPending := false } s) :=
  settleSeal_written (d := { clipAt s c with written := (clipAt s c).written + n }) hp hw

theorem advanceWritten_short {c : Fin 256} {n : Nat} {s : State}
    (h : ¬((clipAt s c).sealPending = true ∧ (clipAt s c).written + n = (clipAt s c).bytes)) :
    advanceWritten c n s = setClip c { clipAt s c with written := (clipAt s c).written + n } s := by
  refine settleSeal_of_not ?_
  rw [clipAt_setClip]
  exact h

/-- What the marking of a completed write does: the clip's written mark alone, and READY with its notice where that ends its
seal (R70, R71). -/
structure WriteMarked (c : Fin 256) (n : Nat) (s t : State) : Prop where
  frame : t = { s with cp := t.cp, cs := { s.cs with directory := t.cs.directory } }
  other : ∀ x, x ≠ c → clipAt t x = clipAt s x
  written : (clipAt t c).written = (clipAt s c).written + n
  ready : (clipAt s c).sealPending = true → (clipAt s c).written + n = (clipAt s c).bytes →
    (clipAt t c).state = .ready ∧ t.cp = s.cp.post ⟨.clipReady, s.clock.blockCount, [word c]⟩
  short : ¬((clipAt s c).sealPending = true ∧ (clipAt s c).written + n = (clipAt s c).bytes) →
    (clipAt t c).state = (clipAt s c).state ∧ t.cp = s.cp

theorem clipAt_setClip_ne {c x : Fin 256} (d : Clip) (s : State) (h : x ≠ c) : clipAt (setClip c d s) x = clipAt s x :=
  (setClip_at c x d s).trans (if_neg fun he => h he.symm)

theorem advanceWritten_marked (c : Fin 256) (n : Nat) (s : State) : WriteMarked c n s (advanceWritten c n s) := by
  by_cases h : (clipAt s c).sealPending = true ∧ (clipAt s c).written + n = (clipAt s c).bytes
  case pos =>
    rw [advanceWritten_ready h.1 h.2]
    refine ⟨rfl, fun x hx => clipAt_setClip_ne _ s hx, ?_, fun _ _ => ⟨?_, rfl⟩, fun hn => absurd h hn⟩
    · exact congrArg Clip.written (clipAt_setClip c _ s)
    · exact congrArg Clip.state (clipAt_setClip c _ s)
  case neg =>
    rw [advanceWritten_short h]
    refine ⟨rfl, fun x hx => clipAt_setClip_ne _ s hx, ?_, fun hp hw => absurd ⟨hp, hw⟩ h, fun _ => ⟨?_, rfl⟩⟩
    · exact congrArg Clip.written (clipAt_setClip c _ s)
    · rw [clipAt_setClip]

/-! ## Requests (R72, R73, R88, R148, R165, R181) -/

theorem requestFetch_joins {r : Reader} {s : State} (h : hasFetch r s = false) (c : Fin 256) (frame place : Nat) :
    requestFetch r c frame place s = { s with cs := { s.cs with
      waiting := s.cs.waiting.take (s.cs.waiting.length - s.cs.asked)
        ++ insertFetch ⟨r, c, frame, place, true⟩ (s.cs.waiting.drop (s.cs.waiting.length - s.cs.asked))
      asked := s.cs.asked + 1 } } := if_neg (Bool.eq_false_iff.1 h)

theorem askFetch_player (p : Fin 2) (s : State) : askFetch (playerReader p) s = playerFetch p s := by
  match p with
  | 0 => rfl
  | 1 => rfl

theorem playerFetch_some {p : Fin 2} {s : State} (ha : (playerAt s p).asks = true)
    (hf : hasFetch (playerReader p) s = false) {c : Fin 256} {f : Nat}
    (hn : (seekStream s (playerAt s p).stream (playerAt s p).fetchPosition).2 = some (c, f)) :
    playerFetch p s = requestFetch (playerReader p) c f (playerAt s p).fetchPosition (setPlayer p { playerAt s p with
      stream := (seekStream s (playerAt s p).stream (playerAt s p).fetchPosition).1 } s) := by
  unfold playerFetch
  dsimp only
  rw [if_pos ⟨ha, hf⟩, hn]

theorem readyFiller_some {c : Fin 256} {s : State} (hc : s.settings.fillerClip = some c) (hr : (clipAt s c).state = .ready) :
    readyFiller s = some c := by
  simp [readyFiller, hc, hr]

theorem fillerFetch_asks {e : FillerEnd} {c : Fin 256} {s : State} (hc : readyFiller s = some c)
    (hb : (fillerAt e s).buffer.length ≤ 3024) (hn : (fillerAt e s).notWritten = false)
    (hf : hasFetch (fillerReader e) s = false) : fillerFetch e s = requestFetch (fillerReader e) c
      (fillerAt e s).fetchPosition (fillerAt e s).fetchPosition (setFiller e { fillerAt e s with
        trim := if (fillerAt e s).trimCopied then (fillerAt e s).trim else (clipAt s c).trim, trimCopied := true } s) := by
  rw [fillerFetch, hc]
  exact if_pos ⟨hb, hn, hf⟩

/-! ## Completions (R73, R88, R148, R165, R181) -/

theorem deliver_player {f : Fetch} {p : Fin 2} (h : f.reader = playerReader p) (c : Completion) (s : State) :
    deliver f c s = playerCompletion p f c s := by
  rw [deliver, h]
  match p with
  | 0 => rfl
  | 1 => rfl

/-- A fetch no longer wanted brings nothing but its NOT_WRITTEN. -/
theorem deliver_unwanted {f : Fetch} {c : Completion} (hl : f.live = false) (hc : c ≠ .notWritten) (s : State) :
    deliver f c s = s := by
  have hplayer (p : Fin 2) : playerCompletion p f c s = s := by
    rw [playerCompletion, if_neg (Bool.eq_false_iff.1 hl), if_neg hc]
  have hfiller (e : FillerEnd) : fillerCompletion e f c s = s :=
    if_neg (not_or.2 ⟨Bool.eq_false_iff.1 hl, hc⟩)
  unfold deliver
  split
  case h_1 => exact hplayer 0
  case h_2 => exact hplayer 1
  case h_3 =>
    unfold alertCompletion
    rw [hl]
    cases c
    case notWritten => exact absurd rfl hc
    all_goals rfl
  case h_4 => exact hfiller .link
  case h_5 =>
    unfold siteAlertCompletion
    rw [hl]
    cases c
    case notWritten => exact absurd rfl hc
    all_goals rfl
  case h_6 => exact hfiller .site

theorem alertCompletion_notWritten (f : Fetch) (s : State) :
    alertCompletion f .notWritten s = setAlertPlayer { s.au.player with notWritten := true } s := by
  unfold alertCompletion
  cases f.live <;> rfl

theorem alertCompletion_pastEnd {f : Fetch} (h : f.live = true) (s : State) :
    alertCompletion f .pastEnd s = setAlertPlayer { s.au.player with fetchedAll := true } s := by
  unfold alertCompletion
  rw [h]

theorem alertCompletion_frames {f : Fetch} {s : State} (h : f.live = true) (hp : f.place = s.au.player.fetchPosition)
    (b : Block) : alertCompletion f (.ok b) s = setAlertPlayer { s.au.player with
      buffer := s.au.player.buffer ++ b, fetchPosition := f.place + b.length } s := by
  unfold alertCompletion
  rw [h]
  dsimp only
  rw [← hp, Nat.sub_self, Nat.max_eq_right (Nat.le_add_right _ _)]
  rfl

theorem siteAlertCompletion_notWritten (f : Fetch) (s : State) :
    siteAlertCompletion f .notWritten s = setSitePlayer { s.site.player with notWritten := true } s := by
  unfold siteAlertCompletion
  cases f.live <;> rfl

theorem siteAlertCompletion_pastEnd {f : Fetch} (h : f.live = true) (s : State) :
    siteAlertCompletion f .pastEnd s = setSitePlayer { s.site.player with fetchedAll := true } s := by
  unfold siteAlertCompletion
  rw [h]

theorem siteAlertCompletion_frames {f : Fetch} {s : State} (h : f.live = true) (hp : f.place = s.site.player.fetchPosition)
    (b : Block) : siteAlertCompletion f (.ok b) s = setSitePlayer { s.site.player with
      buffer := s.site.player.buffer ++ b, fetchPosition := f.place + b.length } s := by
  unfold siteAlertCompletion
  rw [h]
  dsimp only
  rw [← hp, Nat.sub_self, Nat.max_eq_right (Nat.le_add_right _ _)]
  rfl

theorem fillerCompletion_notWritten (e : FillerEnd) (f : Fetch) (s : State) :
    fillerCompletion e f .notWritten s = setFiller e { fillerAt e s with notWritten := true } s :=
  if_pos (.inr rfl)

theorem fillerCompletion_pastEnd (e : FillerEnd) {f : Fetch} (h : f.live = true) (s : State) :
    fillerCompletion e f .pastEnd s = setFiller e { fillerAt e s with fetchPosition := 0 } s :=
  if_pos (.inl h)

theorem loopAhead_self (len a : Nat) : loopAhead len a a = 0 := by
  unfold loopAhead
  split
  · rfl
  · rw [Nat.add_sub_cancel_left, Nat.mod_self]

theorem fillerCompletion_frames (e : FillerEnd) {f : Fetch} {s : State} (h : f.live = true)
    (hp : f.place = (fillerAt e s).fetchPosition) (b : Block) : fillerCompletion e f (.ok b) s
      = setFiller e { fillerAt e s with
        buffer := (fillerAt e s).buffer ++ b, fetchPosition := if b.length < 48 then 0 else f.place + b.length
        primed := (fillerAt e s).primed || decide (3072 ≤ (fillerAt e s).buffer.length + b.length) } s := by
  refine (if_pos (.inl h)).trans (congrArg (setFiller e · s) ?_)
  rw [Filler.take]
  dsimp only
  rw [← hp, loopAhead_self, if_pos (Nat.zero_le _), List.drop_zero, List.length_append]

theorem playerCompletion_live {f : Fetch} (h : f.live = true) (p : Fin 2) (c : Completion) (s : State) :
    BufferSettles p ((playerAt s p).take f c) s (playerCompletion p f c s) := by
  rw [playerCompletion, if_pos h]
  exact settleLoad_settles p _ s

theorem playerCompletion_lost {f : Fetch} (h : f.live = false) (p : Fin 2) (s : State) :
    playerCompletion p f .notWritten s = setPlayer p { playerAt s p with notWritten := true } s := by
  rw [playerCompletion, if_neg (Bool.eq_false_iff.1 h), if_pos rfl]

/-! ## Grants (R72, R73) -/

section
variable {f : Fetch} {rest : List Fetch} {s : State}

theorem grantFetch_ok {b : Block} (hw : s.cs.waiting = f :: rest)
    (hg : s.cs.port = .free ∧ (writeWaits s = false ∨ s.cs.lastKind = .write)) (h : fetchOutcome s f = .ok b) :
    grantFetch s = ({ s with cs := { s.cs with port := .fetch f b, waiting := rest, lastKind := .fetch, asked := 0 } }, none) := by
  rw [grantFetch, hw]
  dsimp only
  rw [if_pos hg, h]

theorem grantFetch_short {c : Completion} (hw : s.cs.waiting = f :: rest)
    (hg : s.cs.port = .free ∧ (writeWaits s = false ∨ s.cs.lastKind = .write)) (h : fetchOutcome s f = c)
    (hc : ∀ b, c ≠ .ok b) :
    grantFetch s = ({ s with cs := { s.cs with waiting := rest, lastKind := .fetch, asked := 0 } }, some (f, c)) := by
  rw [grantFetch, hw]
  dsimp only
  rw [if_pos hg, h]
  cases c
  case ok b => exact absurd rfl (hc b)
  all_goals rfl

theorem exec_fetchGrant_short {c : Completion} (hw : s.cs.waiting = f :: rest)
    (hg : s.cs.port = .free ∧ (writeWaits s = false ∨ s.cs.lastKind = .write)) (h : fetchOutcome s f = c)
    (hc : ∀ b, c ≠ .ok b) : exec .fetchGrant s
      = .next (deliver f c { s with cs := { s.cs with waiting := rest, lastKind := .fetch, asked := 0 } }) :=
  congrArg (fun r => Host.Outcome.next (deliverAny r)) (grantFetch_short hw hg h hc)

theorem fetchOutcome_pastEnd (h : (clipAt s f.clip).state = .empty ∨ (clipAt s f.clip).length ≤ f.frame) :
    fetchOutcome s f = .pastEnd := if_pos h

theorem fetchOutcome_inside (he : (clipAt s f.clip).state ≠ .empty) (hl : f.frame < (clipAt s f.clip).length) :
    fetchOutcome s f = if (clipAt s f.clip).written
        < min (f.frame + 48) (clipAt s f.clip).length * bytesPerFrame (clipAt s f.clip).format then .notWritten
      else .ok ((List.range (min (f.frame + 48) (clipAt s f.clip).length - f.frame)).map fun k =>
        readFrame s (clipAt s f.clip) (f.frame + k)) :=
  if_neg (not_or.2 ⟨he, Nat.not_le.2 hl⟩)

theorem exec_fetchComplete {b : Block} (h : s.cs.port = .fetch f b) : exec .fetchComplete s
    = .next (deliver f (.ok b) { s with cs := { s.cs with port := .free, asked := 0 } }) := by
  show Host.Outcome.next (deliverAny (finishFetch s)) = _
  rw [finishFetch, h]
  rfl

end

/-! ## Addresses and samples (R64) -/

theorem translate_iff {map : List (Fin 512)} {o a : Nat} : translate map o = some a ↔
    ∃ e, map[o / 1048576]? = some e ∧ e.val * 1048576 + o % 1048576 = a := Option.map_eq_some_iff

theorem translate_injective {map : List (Fin 512)} {o p a : Nat} (h : map.Nodup) (ho : translate map o = some a)
    (hp : translate map p = some a) : o = p := by
  obtain ⟨e, he, hea⟩ := translate_iff.1 ho
  obtain ⟨g, hg, hga⟩ := translate_iff.1 hp
  have hsame : e = g := Fin.ext (by omega)
  obtain ⟨hlt, hget⟩ := List.getElem?_eq_some_iff.1 he
  obtain ⟨hlt', hget'⟩ := List.getElem?_eq_some_iff.1 hg
  have hindex : o / 1048576 = p / 1048576 := (h.getElem_inj_iff).1 (hget.trans (hsame.trans hget'.symm))
  omega

theorem clipByte_of {s : State} {map : List (Fin 512)} {o : Nat} {b : Byte}
    (h : ∃ a, translate map o = some a ∧ memRead s.dram a = b) : clipByte s map o = b := by
  obtain ⟨a, ha, hb⟩ := h
  rw [clipByte, ha]
  exact hb

/-- The completion of a write as O33 has it. -/
structure WriteCompletes (c : Fin 256) (bs : List Byte) (rest : List FillEntry) (d : Drain) (marks : Bool) (s t : State) :
    Prop where
  frame : t = { s with cp := t.cp, dram := t.dram, cs := { s.cs with
    port := .free, fill := t.cs.fill, drain := t.cs.drain, directory := t.cs.directory } }
  dram : t.dram = memWriteAll s.dram (writeList d bs)
  queue : (t.cs.fill, t.cs.drain) = drainList rest (some { d with done := d.done + bs.length })
  other : ∀ x, x ≠ c → clipAt t x = clipAt s x
  written : (clipAt t c).written = (clipAt s c).written + (if marks then bs.length else 0)
  ready : marks = true ∧ (clipAt s c).sealPending = true ∧ (clipAt s c).written + bs.length = (clipAt s c).bytes →
    (clipAt t c).state = .ready ∧ t.cp = s.cp.post ⟨.clipReady, s.clock.blockCount, [word c]⟩
  short : ¬(marks = true ∧ (clipAt s c).sealPending = true ∧ (clipAt s c).written + bs.length = (clipAt s c).bytes) →
    (clipAt t c).state = (clipAt s c).state ∧ t.cp = s.cp

theorem completeWrite_completes {c : Fin 256} {bs : List Byte} {rest : List FillEntry} {d : Drain} {marks : Bool}
    {s : State} (hp : s.cs.port = .write marks) (hf : s.cs.fill = .data c bs :: rest) (hd : s.cs.drain = some d) :
    WriteCompletes c bs rest d marks s (completeWrite s) := by
  rw [completeWrite_eq hp hf hd]
  cases marks
  case false => exact ⟨rfl, rfl, rfl, fun _ _ => rfl, rfl, fun h => (nomatch h.1), fun _ => ⟨rfl, rfl⟩⟩
  case true =>
    obtain ⟨hframe, hother, hwritten, hready, hshort⟩ := advanceWritten_marked c bs.length (writeDone bs rest d s)
    rw [if_pos rfl]
    generalize advanceWritten c bs.length (writeDone bs rest d s) = u at *
    refine { frame := ?_, dram := ?_, queue := ?_, other := hother, written := hwritten
             ready := fun ⟨_, hs, hw⟩ => hready hs hw, short := fun h => hshort fun ⟨hs, hw⟩ => h ⟨rfl, hs, hw⟩ }
    · rw [hframe]
      rfl
    · rw [hframe]
      rfl
    · rw [hframe]
      rfl

/-- The fill writes of O33. -/
theorem write_completes {c : Fin 256} {bs : List Byte} {rest : List FillEntry} {d : Drain} {marks : Bool} {s t : State}
    (hm : Memory.wf s.dram = true) (hd : ∀ j k, j < bs.length → k < bs.length →
      d.run.addressOf (d.done + j) = d.run.addressOf (d.done + k) → j = k) (h : WriteCompletes c bs rest d marks s t) :
    (∀ k (h : k < bs.length), memRead t.dram (d.run.addressOf (d.done + k)) = bs[k])
    ∧ (∀ a, (∀ k, k < bs.length → a ≠ d.run.addressOf (d.done + k)) → memRead t.dram a = memRead s.dram a)
    ∧ ((∀ r, rest.head? ≠ some (.address r)) →
      t.cs.fill = rest ∧ t.cs.drain = some { d with done := d.done + bs.length })
    ∧ (∀ r e l, rest = .address r :: .data e l :: rest.drop 2 → t.cs.fill = rest.drop 1 ∧ t.cs.drain = some ⟨r, 0⟩) := by
  obtain ⟨_, hdram, hqueue, _, _, _, _⟩ := h
  refine ⟨fun k hk => ?_, fun a ha => ?_, fun hr => ?_, fun r e l hr => ?_⟩
  · rw [hdram]
    exact memRead_memWriteAll_mem hm (writeList_nodup hd) (mem_writeList d hk)
  · rw [hdram]
    refine memRead_memWriteAll _ hm a fun q hq he => ?_
    have hq' := List.mem_map_of_mem (f := Prod.fst) hq
    rw [writeList_fst] at hq'
    obtain ⟨k, hk, hkq⟩ := List.mem_map.1 hq'
    exact ha k (List.mem_range.1 hk) (he.symm.trans hkq.symm)
  · rw [drainList_held hr] at hqueue
    exact Prod.ext_iff.1 hqueue
  · rw [hr] at hqueue ⊢
    exact Prod.ext_iff.1 hqueue

/-- Settles O33: writes by the drain position, each reader's request, grant and completion by its own lemma. -/
theorem dramServesWritesAndFetches : Obligations.DramServesWritesAndFetches := by
  refine ⟨⟨fun s hp hw hf => congrArg Host.Outcome.next (if_pos ⟨hp, hw, hf⟩), ?write⟩,
    ⟨?player, ?alert, ?siteAlert, ?filler, ?elsewhere, ?grant, ?cut, ?outcome, ?complete⟩,
    ⟨?inside, fun map o p a => translate_injective, ?straddle, by decide, by decide, by decide, by decide, by decide, ?frame⟩⟩
  case write =>
    intro c bs rest d marks s hm hp hf hd hone
    have h := completeWrite_completes hp hf hd
    obtain ⟨hread, hleft, hhead, hnext⟩ := write_completes hm hone h
    exact ⟨_, rfl, h.frame, hread, hleft, hhead, hnext, h.other, h.written, h.ready, h.short⟩
  case player =>
    intro p s ha hf x sought with' s'
    refine ⟨fun hn => ?_, fun c f hn => ?_⟩
    · obtain ⟨hfull, hfetch⟩ := playerFetch_none ha hf hn
      refine ⟨hfull, _, rfl, ?_⟩
      rw [askFetch_player, hfetch]
      exact settleLoad_settles p _ s
    · refine congrArg Host.Outcome.next ((askFetch_player p s).trans ((playerFetch_some ha hf hn).trans ?_))
      exact requestFetch_joins (s := s') hf c f x.fetchPosition
  case alert =>
    intro c s x hc hs hb hn ha hp hf
    refine congrArg Host.Outcome.next (Eq.trans ?_ (requestFetch_joins hf c _ _))
    show alertFetch s = _
    rw [alertFetch, hc]
    exact if_pos ⟨hs, hb, hn, ha, hp, hf⟩
  case siteAlert =>
    intro c s x hr hsite hc hs hb hn ha hp hf
    refine congrArg Host.Outcome.next ((if_pos ((atSite_iff hr).trans hsite)).trans
      (Eq.trans ?_ (requestFetch_joins hf c _ _)))
    rw [siteAlertFetch, hc]
    exact if_pos ⟨hs, hb, hn, ha, hp, hf⟩
  case filler =>
    intro c s hr hc hready primed
    refine ⟨?link, ?site⟩
    case link =>
      intro x hsite hlink hb hn hf
      have hon : onLine s = true ∧ s.settings.roles.link = true := ⟨by simp [onLine, hr, hsite], hlink⟩
      exact congrArg Host.Outcome.next ((if_pos hon).trans
        ((fillerFetch_asks (e := .link) (readyFiller_some hc hready) hb hn hf).trans
          (requestFetch_joins (s := setFiller .link (primed x) s) hf c _ _)))
    case site =>
      intro x hsite hb hn hf
      exact congrArg Host.Outcome.next ((if_pos ((atSite_iff hr).trans hsite)).trans
        ((fillerFetch_asks (e := .site) (readyFiller_some hc hready) hb hn hf).trans
          (requestFetch_joins (s := setFiller .site (primed x) s) hf c _ _)))
  case elsewhere =>
    intro s
    refine ⟨fun h => congrArg Host.Outcome.next (if_neg ?_), fun h => ?_⟩
    · rcases h with h | h <;> simp [onLine, h]
    · have hsite : ¬atSite s = true := by simp [atSite, h]
      exact ⟨congrArg Host.Outcome.next (if_neg hsite), congrArg Host.Outcome.next (if_neg hsite)⟩
  case grant =>
    intro f rest b s hp hw hg
    refine ⟨fun ho => congrArg (fun r => Host.Outcome.next (deliverAny r)) (grantFetch_ok hw ⟨hp, hg⟩ ho), fun ho => ?_⟩
    intro t missing
    have hmiss (h : missing) : exec .fetchGrant s = .next (deliver f .notWritten t) :=
      exec_fetchGrant_short hw ⟨hp, hg⟩ h nofun
    have hpast (h : ¬missing) : exec .fetchGrant s = .next (deliver f .pastEnd t) :=
      exec_fetchGrant_short hw ⟨hp, hg⟩ (ho.resolve_right h) nofun
    refine ⟨fun hl h => (hpast h).trans (congrArg _ (deliver_unwanted (c := .pastEnd) hl nofun t)), fun hr => ?_, fun hr => ?_, fun hr => ?_,
      fun hr => ?_, fun p hr => ?_⟩
    · have hd (c : Completion) : deliver f c t = alertCompletion f c t := by rw [deliver, hr]
      exact ⟨fun h => (hmiss h).trans (congrArg _ ((hd _).trans (alertCompletion_notWritten f t))),
        fun hl h => (hpast h).trans (congrArg _ ((hd _).trans (alertCompletion_pastEnd hl t)))⟩
    · have hd (c : Completion) : deliver f c t = siteAlertCompletion f c t := by rw [deliver, hr]
      exact ⟨fun h => (hmiss h).trans (congrArg _ ((hd _).trans (siteAlertCompletion_notWritten f t))),
        fun hl h => (hpast h).trans (congrArg _ ((hd _).trans (siteAlertCompletion_pastEnd hl t)))⟩
    · have hd (c : Completion) : deliver f c t = fillerCompletion .link f c t := by rw [deliver, hr]
      exact ⟨fun h => (hmiss h).trans (congrArg _ ((hd _).trans (fillerCompletion_notWritten .link f t))),
        fun hl h => (hpast h).trans (congrArg _ ((hd _).trans (fillerCompletion_pastEnd .link hl t)))⟩
    · have hd (c : Completion) : deliver f c t = fillerCompletion .site f c t := by rw [deliver, hr]
      exact ⟨fun h => (hmiss h).trans (congrArg _ ((hd _).trans (fillerCompletion_notWritten .site f t))),
        fun hl h => (hpast h).trans (congrArg _ ((hd _).trans (fillerCompletion_pastEnd .site hl t)))⟩
    · refine ⟨fun hl h => (hmiss h).trans (congrArg _ ((deliver_player hr _ t).trans (playerCompletion_lost hl p t))),
        fun hl => ?_⟩
      by_cases h : missing
      · rw [if_pos h]
        exact ⟨_, hmiss h, (deliver_player hr .notWritten t).symm ▸ playerCompletion_live hl p .notWritten t⟩
      · rw [if_neg h]
        exact ⟨_, hpast h, (deliver_player hr .pastEnd t).symm ▸ playerCompletion_live hl p .pastEnd t⟩
  case cut =>
    intro c rest o n
    have hn : partLength rest.isEmpty c = n := by
      unfold partLength n
      simp only [List.isEmpty_iff]
    refine ⟨fun h => ?_, fun h => ?_⟩
    · rw [cutStream, hn]
      exact if_pos h
    · rw [cutStream, hn]
      exact if_neg (Nat.not_lt.2 h)
  case outcome =>
    intro f s d stop
    refine ⟨fetchOutcome_pastEnd, fun he hl hw => (fetchOutcome_inside he hl).trans (if_pos hw), fun he hl hw => ?_⟩
    refine ⟨_, (fetchOutcome_inside he hl).trans (if_neg (Nat.not_lt.2 hw)), ?_, fun k hk => ?_⟩
    · rw [List.length_map, List.length_range]
    · rw [List.getElem_map, List.getElem_range]
  case complete =>
    intro f b s hport t
    have hexec : exec .fetchComplete s = .next (deliver f (.ok b) t) := exec_fetchComplete hport
    refine ⟨fun hl => hexec.trans (congrArg _ (deliver_unwanted (c := .ok b) hl nofun t)), fun hl hr hp => ?_, fun hl hr hp => ?_,
      ⟨fun hl hr hp => ?_, fun hl hr hp => ?_⟩, fun p hl hr => ?_⟩
    · have hd : deliver f (.ok b) t = alertCompletion f (.ok b) t := by rw [deliver, hr]
      exact hexec.trans (congrArg _ (hd.trans (alertCompletion_frames (s := t) hl hp b)))
    · have hd : deliver f (.ok b) t = siteAlertCompletion f (.ok b) t := by rw [deliver, hr]
      exact hexec.trans (congrArg _ (hd.trans (siteAlertCompletion_frames (s := t) hl hp b)))
    · have hd : deliver f (.ok b) t = fillerCompletion .link f (.ok b) t := by rw [deliver, hr]
      exact hexec.trans (congrArg _ (hd.trans (fillerCompletion_frames (s := t) .link hl hp b)))
    · have hd : deliver f (.ok b) t = fillerCompletion .site f (.ok b) t := by rw [deliver, hr]
      exact hexec.trans (congrArg _ (hd.trans (fillerCompletion_frames (s := t) .site hl hp b)))
    · intro x
      have hsettle : BufferSettles p (x.take f (.ok b)) t (deliver f (.ok b) t) :=
        (deliver_player hr (.ok b) t).symm ▸ playerCompletion_live hl p (.ok b) t
      refine ⟨fun hn => ⟨_, hexec, ?_⟩, fun k c isLast hn => ⟨_, hexec, ?_⟩⟩
      · have hx : x.take f (.ok b) = x := by
          unfold Player.take
          dsimp only
          rw [hn]
        exact hx ▸ hsettle
      · have hx : x.take f (.ok b) = { x with
            buffer := x.buffer ++ ((b.take (partLength isLast c - f.frame)).drop (x.fetchPosition - f.place)).map fun q => ⟨q, isMono c.format, k⟩
            fetchPosition := max x.fetchPosition (f.place + (b.take (partLength isLast c - f.frame)).length) } := by
          unfold Player.take
          dsimp only
          rw [hn]
        rw [hx] at hsettle
        exact hsettle
  case inside =>
    intro map o e he
    exact ⟨translate_iff.2 ⟨e, he, rfl⟩, by omega⟩
  case straddle =>
    rintro fmt f k (rfl | rfl) hk
    · unfold bytesPerFrame at hk ⊢
      dsimp only at hk ⊢
      omega
    · unfold bytesPerFrame at hk ⊢
      dsimp only at hk ⊢
      omega
  case frame =>
    intro s d f b0 b1 b2 b3 b4 b5 h
    have byte (k : Nat) (b : Byte) (hm : (k, b) ∈ [(0, b0), (1, b1), (2, b2), (3, b3), (4, b4), (5, b5)])
        (hk : k < bytesPerFrame d.format) : clipByte s d.map (f * bytesPerFrame d.format + k) = b := clipByte_of (h k b hm hk)
    have at0 := byte 0 b0 (by simp)
    have at1 := byte 1 b1 (by simp)
    have at2 := byte 2 b2 (by simp)
    have at3 := byte 3 b3 (by simp)
    have at4 := byte 4 b4 (by simp)
    have at5 := byte 5 b5 (by simp)
    unfold readFrame
    generalize d.format = fmt at at0 at1 at2 at3 at4 at5 ⊢
    cases fmt
    case m16 => simp only [Nat.zero_add, Nat.reduceAdd, at0 (by decide), at1 (by decide)]
    case s16 => simp only [Nat.zero_add, Nat.reduceAdd, at0 (by decide), at1 (by decide), at2 (by decide), at3 (by decide)]
    case m24 => simp only [Nat.zero_add, Nat.reduceAdd, at0 (by decide), at1 (by decide), at2 (by decide)]
    case s24 =>
      simp only [Nat.zero_add, Nat.reduceAdd, at0 (by decide), at1 (by decide), at2 (by decide), at3 (by decide),
        at4 (by decide), at5 (by decide)]

end Sys2Proof.Machine
end

section
/-! SUPPORT. The cue list commands (R80 to R84), and the settling of O34 and O35. -/

namespace Sys2Proof.Machine

/-! ## Tags and the words of an entry (R80, R81) -/

theorem tagOf_tag {w : Word} {t : Half} (h : 1 ≤ w.toNat) (ht : w.toNat = t.toNat) : tagOf w = some t := by
  have hlt := t.isLt
  have heq : w.setWidth 16 = t := BitVec.eq_of_toNat_eq (by rw [BitVec.toNat_setWidth, ht, Nat.mod_eq_of_lt hlt])
  rw [tagOf, if_pos ⟨h, by omega⟩, heq]

theorem tagOf_outside {w : Word} (h : w = 0 ∨ 65535 < w.toNat) : tagOf w = none := by
  refine if_neg fun ⟨hlow, hhigh⟩ => ?_
  rcases h with rfl | h
  · exact absurd hlow (by decide)
  · omega

section
variable {tag : Word} {t : Half} {s : State} {act : CueEntry → State × Reply}

theorem atSite_studio (h : s.settings.roles.site = false) : atSite s = false := by simp [atSite, h]

theorem onCue_outside (hs : s.settings.roles.site = false) (h : tag = 0 ∨ 65535 < tag.toNat) :
    onCue tag s act = refuse .badParam s := by
  rw [onCue, if_neg (Bool.eq_false_iff.1 (atSite_studio hs)), tagOf_outside h]

theorem onCue_unknown (hs : s.settings.roles.site = false) (h : 1 ≤ tag.toNat) (ht : tag.toNat = t.toNat)
    (hn : cueOf s t = none) : onCue tag s act = refuse .noSuch s := by
  rw [onCue, if_neg (Bool.eq_false_iff.1 (atSite_studio hs)), tagOf_tag h ht]
  dsimp only
  rw [hn]

theorem onCue_found {e : CueEntry} (hs : s.settings.roles.site = false) (h : 1 ≤ tag.toNat) (ht : tag.toNat = t.toNat)
    (he : cueOf s t = some e) : onCue tag s act = act e := by
  rw [onCue, if_neg (Bool.eq_false_iff.1 (atSite_studio hs)), tagOf_tag h ht]
  dsimp only
  rw [he]

end

theorem startModeOf_code (m : StartMode) : startModeOf m.ctorIdx = some m := by cases m <;> rfl
theorem holdBehaviourOf_code (h : HoldBehaviour) : holdBehaviourOf h.ctorIdx = some h := by cases h <;> rfl
theorem endActionOf_code (a : EndAction) : endActionOf a.ctorIdx = some a := by cases a <;> rfl

theorem startModeOf_above {n : Nat} (h : 2 < n) : startModeOf n = none := by
  unfold startModeOf
  split
  case h_4 => rfl
  all_goals omega

theorem holdBehaviourOf_above {n : Nat} (h : 2 < n) : holdBehaviourOf n = none := by
  unfold holdBehaviourOf
  split
  case h_4 => rfl
  all_goals omega

theorem endActionOf_above {n : Nat} (h : 1 < n) : endActionOf n = none := by
  unfold endActionOf
  split
  case h_3 => rfl
  all_goals omega

theorem sourceOf_above {kind : Nat} (number : Nat) (h : 1 < kind) : sourceOf kind number = none := by
  unfold sourceOf
  split
  case h_3 => rfl
  all_goals omega

theorem sourceOf_named {kind source : Word} {src : CueSource} (h : (∃ c, src = .clip c ∧ kind = 0 ∧ source.toNat = c.val)
    ∨ (∃ g, src = .group g ∧ kind = 1 ∧ source.toNat = g.val)) : sourceOf kind.toNat source.toNat = some src := by
  rcases h with ⟨c, rfl, rfl, h⟩ | ⟨g, rfl, rfl, h⟩
  · exact congrArg (Option.map CueSource.clip) (index?_eq_some.2 h.symm)
  · exact congrArg (Option.map CueSource.group) (index?_eq_some.2 h.symm)

theorem cueTierOf_named {tier : Word} {t : Tier} (h : (t = .playout ∧ tier = 2) ∨ (t = .filler ∧ tier = 3)) :
    cueTierOf tier.toNat = some t := by
  rcases h with ⟨rfl, rfl⟩ | ⟨rfl, rfl⟩
  · rfl
  · rfl

section
variable {tag kind source startMode startTime gain fadeIn fadeOut tier hold endAction : Word}

theorem cueEntryOf_some {t : Half} {src : CueSource} {m : StartMode} {ti : Tier} {h : HoldBehaviour} {a : EndAction}
    (ht : tagOf tag = some t) (hs : sourceOf kind.toNat source.toNat = some src) (hm : startModeOf startMode.toNat = some m)
    (hti : cueTierOf tier.toNat = some ti) (hh : holdBehaviourOf hold.toNat = some h) (ha : endActionOf endAction.toNat = some a) :
    cueEntryOf tag kind source startMode startTime gain fadeIn fadeOut tier hold endAction
      = some ⟨t, src, m, startTime, min 8192 gain.toNat, min 255 fadeIn.toNat, min 255 fadeOut.toNat, ti, h, a,
          .waiting, false, 0⟩ := by
  rw [cueEntryOf, ht, hs, hm, hti, hh, ha]
  rfl

/-- One word outside its set and there is no entry. -/
theorem cueEntryOf_none (h : tagOf tag = none ∨ sourceOf kind.toNat source.toNat = none ∨ startModeOf startMode.toNat = none
    ∨ holdBehaviourOf hold.toNat = none ∨ endActionOf endAction.toNat = none) :
    cueEntryOf tag kind source startMode startTime gain fadeIn fadeOut tier hold endAction = none := by
  rcases h with h | h | h | h | h <;> simp [cueEntryOf, h]

/-! ## CUE INSERT (R81) -/

variable {position : Word} {e : CueEntry} {s : State}

theorem cueInsert_badParam (hp : s.settings.roles.playout = true)
    (he : cueEntryOf tag kind source startMode startTime gain fadeIn fadeOut tier hold endAction = none) :
    cueInsertCommand position tag kind source startMode startTime gain fadeIn fadeOut tier hold endAction s
      = refuse .badParam s := by
  rw [cueInsertCommand, if_neg (by simp [hp]), he]

theorem cueInsert_entry (hp : s.settings.roles.playout = true)
    (he : cueEntryOf tag kind source startMode startTime gain fadeIn fadeOut tier hold endAction = some e) :
    cueInsertCommand position tag kind source startMode startTime gain fadeIn fadeOut tier hold endAction s
      = if sourceProtected e.source then refuse .inUse s
        else if (cueOf s e.tag).isSome then refuse .inUse s
        else if 32 ≤ s.pu.cues.length then refuse .full s
        else if sourceEmpty e.source s then refuse .wrongState s
        else (trimWindow { s with pu := { s.pu with cues := insertAt s.pu.cues (placeIn s s.pu.cues position.toNat) e } },
          .okWith [word (placeIn s s.pu.cues position.toNat)]) := by
  rw [cueInsertCommand, if_neg (by simp [hp]), he]

end

/-! ## The place of an entry (R80, R81) -/

/-- The entries from the place after the front on are those that the search from the end passes over. -/
theorem frontPlace_split (s : State) (l : List CueEntry) :
    l = (l.reverse.dropWhile fun e => !atFront s e).reverse ++ (l.reverse.takeWhile fun e => !atFront s e).reverse := by
  rw [← List.reverse_append, List.takeWhile_append_dropWhile, List.reverse_reverse]

theorem frontPlace_eq (s : State) (l : List CueEntry) :
    frontPlace s l = (l.reverse.dropWhile fun e => !atFront s e).reverse.length := by
  have h := congrArg List.length (frontPlace_split s l)
  rw [List.length_append, List.length_reverse (as := List.takeWhile _ _)] at h
  rw [frontPlace]
  omega

theorem frontPlace_le (s : State) (l : List CueEntry) : frontPlace s l ≤ l.length := Nat.sub_le _ _

theorem frontPlace_drop (s : State) (l : List CueEntry) : ∀ x ∈ l.drop (frontPlace s l), atFront s x = false := by
  have hdrop : l.drop (frontPlace s l) = (l.reverse.takeWhile fun e => !atFront s e).reverse := by
    rw [frontPlace_eq]
    exact (congrArg (List.drop _) (frontPlace_split s l)).trans List.drop_left
  intro x hx
  rw [hdrop, List.mem_reverse] at hx
  simpa using List.mem_takeWhile_imp hx

theorem frontPlace_last (s : State) (l : List CueEntry) :
    frontPlace s l = 0 ∨ ∃ x, l[frontPlace s l - 1]? = some x ∧ atFront s x = true := by
  rcases hd : l.reverse.dropWhile (fun e => !atFront s e) with _ | ⟨x, rest⟩
  · exact .inl (by rw [frontPlace_eq, hd]; rfl)
  · have hn : frontPlace s l = rest.length + 1 := by rw [frontPlace_eq, hd, List.length_reverse, List.length_cons]
    have hfront := List.head?_dropWhile_not (fun e => !atFront s e) l.reverse
    rw [hd] at hfront
    refine .inr ⟨x, ?_, by simpa using hfront⟩
    rw [hn, Nat.add_sub_cancel, frontPlace_split s l, hd, List.reverse_cons, List.append_assoc]
    exact (List.getElem?_append_right (by simp)).trans (by simp)

theorem placeIn_front {s : State} {l : List CueEntry} {n : Nat} (h : 1 ≤ n) (hf : n ≤ frontPlace s l) :
    placeIn s l n = frontPlace s l + 1 := by
  have hl := frontPlace_le s l
  unfold placeIn
  dsimp only
  rw [if_neg (by omega)]
  omega

theorem placeIn_inside {s : State} {l : List CueEntry} {n : Nat} (hf : frontPlace s l < n) (h : n ≤ l.length) :
    placeIn s l n = n := by
  unfold placeIn
  dsimp only
  rw [if_neg (by omega)]
  omega

theorem placeIn_end {s : State} {l : List CueEntry} {n : Nat} (h : n = 0 ∨ l.length < n) : placeIn s l n = l.length + 1 := by
  have hl := frontPlace_le s l
  unfold placeIn
  dsimp only
  split <;> omega

theorem insertAt_tags (l : List CueEntry) (p : Nat) (e : CueEntry) : (insertAt l p e).map CueEntry.tag
    = (l.map CueEntry.tag).take (p - 1) ++ e.tag :: (l.map CueEntry.tag).drop (p - 1) := by
  rw [insertAt, List.map_append, List.map_cons, List.map_take, List.map_drop]

/-! ## CUE REMOVE, CUE MOVE and CUE GAIN (R82 to R84) -/

theorem tags_trimmed {s t : State} {l : List CueEntry} {p : Nat} {e : CueEntry}
    (h : WindowTrimmed { s with pu := { s.pu with cues := insertAt l p e } } t) : t.pu.cues.map CueEntry.tag
      = (l.map CueEntry.tag).take (p - 1) ++ e.tag :: (l.map CueEntry.tag).drop (p - 1) :=
  h.tags.trans (insertAt_tags l p e)

section
variable {p : Fin 2} {t : Half} {s : State}

/-- The state in which a removed entry's player is IDLE and lets its fetches go (R82). -/
def loadRemoved (p : Fin 2) (t : Half) (s : State) : State := { s with
  cp := s.cp.post ⟨.entryEnded, s.clock.blockCount, [word p, word t.toNat, word (playerAt s p).position, word 3]⟩
  cs := fetchesUnwanted (playerReader p) s.cs
  pu := { s.pu with players := s.pu.players.put p (playerAt s p).cleared } }

theorem removed_gone (p : Fin 2) (t : Half) (s : State) :
    postEnded (some p) t (playerAt s p).position .removed (idlePlayer p s) = loadRemoved p t s := by
  rw [idlePlayer_leaves]
  rfl

theorem removeFromPlayer_gone (h : (playerAt s p).state = .loading ∨ (playerAt s p).state = .loaded
    ∨ ((playerAt s p).state = .held ∧ (playerAt s p).phase = .waiting)) : removeFromPlayer p t s = loadRemoved p t s := by
  rw [← removed_gone]
  unfold removeFromPlayer
  dsimp only
  rcases h with h | h | ⟨h, hp⟩
  · rw [h]
  · rw [h]
  · rw [h]
    exact if_neg (by rw [hp]; exact nofun)

theorem removeFromPlayer_fading (h : (playerAt s p).state = .ending
    ∨ ((playerAt s p).state = .held ∧ (playerAt s p).phase = .fading)) :
    removeFromPlayer p t s = setPlayer p { playerAt s p with detached := true, cause := .removed } s := by
  unfold removeFromPlayer
  dsimp only
  rcases h with h | ⟨h, hp⟩
  · rw [h]
  · rw [h]
    exact if_pos hp

theorem stopPlaying_eq (p : Fin 2) (c : EntryEnd) (s : State) : stopPlaying p c s = { s with
    pu := { s.pu with players := s.pu.players.put p { playerAt s p with state := .ending, cause := c } }
    me := { s.me with playerEnvelope := s.me.playerEnvelope.put p ((Tab.at s.me.playerEnvelope p).giveEnvelope 0
      (((playerAt s p).entry.map HeldEntry.fadeOut).getD 0)) } } := rfl

theorem removeFromPlayer_playing {h : HeldEntry} (hs : (playerAt s p).state = .playing) (he : (playerAt s p).entry = some h) :
    removeFromPlayer p t s = { s with
      pu := { s.pu with
        players := s.pu.players.put p { playerAt s p with state := .ending, detached := true, cause := .removed } }
      me := { s.me with
        playerEnvelope := s.me.playerEnvelope.put p ((Tab.at s.me.playerEnvelope p).giveEnvelope 0 h.fadeOut) } } := by
  unfold removeFromPlayer
  dsimp only
  rw [hs]
  dsimp only
  rw [stopPlaying_eq, playerAt_setPlayer]
  dsimp only
  rw [he]
  simp [setPlayer]

end

section
variable {tag : Word} {t : Half} {e : CueEntry} {s : State}

/-- The cue list without an entry (R82). -/
def withoutCue (t : Half) (s : State) : State :=
  { s with pu := { s.pu with cues := s.pu.cues.filter fun x => x.tag != t } }

theorem cueRemove_outside (hs : s.settings.roles.site = false) (h : tag = 0 ∨ 65535 < tag.toNat) :
    cueRemoveCommand tag s = refuse .badParam s := onCue_outside hs h

theorem cueRemove_unknown (hs : s.settings.roles.site = false) (h1 : 1 ≤ tag.toNat) (ht : tag.toNat = t.toNat)
    (hn : cueOf s t = none) : cueRemoveCommand tag s = refuse .noSuch s := onCue_unknown hs h1 ht hn

theorem cueRemove_alone (hs : s.settings.roles.site = false) (h1 : 1 ≤ tag.toNat) (ht : tag.toNat = t.toNat)
    (he : cueOf s t = some e) (hp : playerOf s t = none) :
    cueRemoveCommand tag s = (postEnded none t 0 .removed (withoutCue t s), .only .ok) := by
  rw [cueRemoveCommand, onCue_found hs h1 ht he, tag_of_cueOf he]
  dsimp only
  rw [hp]
  rfl

theorem cueRemove_held {p : Fin 2} (hs : s.settings.roles.site = false) (h1 : 1 ≤ tag.toNat) (ht : tag.toNat = t.toNat)
    (he : cueOf s t = some e) (hp : playerOf s t = some p) :
    cueRemoveCommand tag s = (removeFromPlayer p t (withoutCue t s), .only .ok) := by
  rw [cueRemoveCommand, onCue_found hs h1 ht he, tag_of_cueOf he]
  dsimp only
  rw [hp]
  rfl

variable {position gain : Word}

theorem cueMove_outside (hs : s.settings.roles.site = false) (h : tag = 0 ∨ 65535 < tag.toNat) :
    cueMoveCommand tag position s = refuse .badParam s := onCue_outside hs h

theorem cueMove_unknown (hs : s.settings.roles.site = false) (h1 : 1 ≤ tag.toNat) (ht : tag.toNat = t.toNat)
    (hn : cueOf s t = none) : cueMoveCommand tag position s = refuse .noSuch s := onCue_unknown hs h1 ht hn

theorem cueMove_front (hs : s.settings.roles.site = false) (h1 : 1 ≤ tag.toNat) (ht : tag.toNat = t.toNat)
    (he : cueOf s t = some e) (hf : atFront s e = true) : cueMoveCommand tag position s = refuse .wrongState s := by
  rw [cueMoveCommand, onCue_found hs h1 ht he]
  exact if_pos hf

theorem cueMove_placed (hs : s.settings.roles.site = false) (h1 : 1 ≤ tag.toNat) (ht : tag.toNat = t.toNat)
    (he : cueOf s t = some e) (hf : atFront s e = false) {rest : List CueEntry}
    (hr : rest = s.pu.cues.filter fun x => x.tag != t) : cueMoveCommand tag position s
      = (trimWindow { s with pu := { s.pu with cues := insertAt rest (placeIn s rest position.toNat) e } },
        .okWith [word (placeIn s rest position.toNat)]) := by
  rw [cueMoveCommand, onCue_found hs h1 ht he, if_neg (Bool.eq_false_iff.1 hf), tag_of_cueOf he, hr]

/-- The cue list with a new gain for an entry (R84). -/
def withGain (t : Half) (gain : Nat) (s : State) : State := changeCue t (fun c => { c with gain := gain }) s

theorem cueGain_outside (hs : s.settings.roles.site = false) (h : tag = 0 ∨ 65535 < tag.toNat) :
    cueGainCommand tag gain s = refuse .badParam s := onCue_outside hs h

theorem cueGain_unknown (hs : s.settings.roles.site = false) (h1 : 1 ≤ tag.toNat) (ht : tag.toNat = t.toNat)
    (hn : cueOf s t = none) : cueGainCommand tag gain s = refuse .noSuch s := onCue_unknown hs h1 ht hn

theorem cueGain_alone (hs : s.settings.roles.site = false) (h1 : 1 ≤ tag.toNat) (ht : tag.toNat = t.toNat)
    (he : cueOf s t = some e) (hp : playerOf s t = none) : cueGainCommand tag gain s
      = (withGain t (min 8192 gain.toNat) s, .okWith [word (min 8192 gain.toNat)]) := by
  have hp' : playerOf (withGain t (min 8192 gain.toNat) s) t = none := hp
  rw [cueGainCommand, onCue_found hs h1 ht he, tag_of_cueOf he]
  unfold withGain at hp' ⊢
  dsimp only
  rw [hp']

theorem cueGain_held {p : Fin 2} (hs : s.settings.roles.site = false) (h1 : 1 ≤ tag.toNat) (ht : tag.toNat = t.toNat)
    (he : cueOf s t = some e) (hp : playerOf s t = some p) : cueGainCommand tag gain s
      = (giveProgramGain p (programGain (playerTrim (playerAt s p)) (min 8192 gain.toNat)) 1
          (setPlayer p { playerAt s p with entry := (playerAt s p).entry.map fun h => { h with gain := min 8192 gain.toNat } }
            (withGain t (min 8192 gain.toNat) s)), .okWith [word (min 8192 gain.toNat)]) := by
  have hp' : playerOf (withGain t (min 8192 gain.toNat) s) t = some p := hp
  rw [cueGainCommand, onCue_found hs h1 ht he, tag_of_cueOf he]
  unfold withGain at hp' ⊢
  dsimp only
  rw [hp']
  rfl

end

/-- Settles O34: CUE INSERT by its refusals in order and the place, CUE REMOVE by the state of the player. -/
theorem cueEntriesInsertedAndRemoved : Obligations.CueEntriesInsertedAndRemoved := by
  refine ⟨?insert, ?words, fun s l => ⟨frontPlace_le s l, frontPlace_drop s l, frontPlace_last s l⟩, ?outside, ?remove⟩
  case insert =>
    intro position tag kind source startMode startTime gain fadeIn fadeOut tier hold endAction e m s hrole i h h1 ht hsrc
      hmode htime hgain hin hout htier hhold hend hstate hdue hsince
    have hentry : cueEntryOf tag kind source startMode startTime gain fadeIn fadeOut tier hold endAction = some e := by
      refine (cueEntryOf_some (tagOf_tag h1 ht) (sourceOf_named hsrc) (hmode ▸ startModeOf_code _) (cueTierOf_named htier)
        (hhold ▸ holdBehaviourOf_code _) (hend ▸ endActionOf_code _)).trans ?_
      rw [htime, ← hgain, ← hin, ← hout, ← hstate, ← hdue, ← hsince]
    have hact := cueInsert_entry (position := position) hrole hentry
    have refused {c : ResultCode} (hc : cueInsertCommand position tag kind source startMode startTime gain fadeIn fadeOut tier
        hold endAction s = refuse c s) : exec i s = .next (answer m c [] s) := hostRow_act h hc
    refine ⟨fun hpro hnew hroom hsome => ?_, fun hused => refused (hact.trans ?_), fun hpro hnew hfull => refused (hact.trans ?_),
      fun hpro hnew hroom hempty => refused (hact.trans ?_)⟩
    · rw [if_neg (by simp [hpro]), if_neg (by simp [hnew]), if_neg (by omega), if_neg (by simp [hsome])] at hact
      have htrim := trimWindow_trimmed { s with
        pu := { s.pu with cues := insertAt s.pu.cues (placeIn s s.pu.cues position.toNat) e } }
      refine ⟨_, _, hostRow_act h hact, htrim, placeIn_front, placeIn_inside, fun hp => placeIn_end ?_, tags_trimmed htrim⟩
      exact hp.imp_left fun h0 => by rw [h0]; rfl
    · rcases hused with hpro | hused
      · exact if_pos hpro
      · split
        · rfl
        · exact if_pos (Option.isSome_iff_ne_none.2 hused)
    · rw [if_neg (by simp [hpro]), if_neg (by simp [hnew]), if_pos hfull]
    · rw [if_neg (by simp [hpro]), if_neg (by simp [hnew]), if_neg (by omega), if_pos hempty]
  case words =>
    intro position tag kind source startMode startTime gain fadeIn fadeOut tier hold endAction m s hrole i h hout
    refine hostRow_act h (cueInsert_badParam hrole (cueEntryOf_none ?_))
    rcases hout with ht | ht | hk | hm | hh | ha
    · exact .inl (tagOf_outside (.inl ht))
    · exact .inl (tagOf_outside (.inr ht))
    · exact .inr (.inl (sourceOf_above _ hk))
    · exact .inr (.inr (.inl (startModeOf_above hm)))
    · exact .inr (.inr (.inr (.inl (holdBehaviourOf_above hh))))
    · exact .inr (.inr (.inr (.inr (endActionOf_above ha))))
  case outside =>
    intro tag m s h hs ht
    exact hostRow_act h (cueRemove_outside hs ht)
  case remove =>
    intro tag t m s h hs h1 ht rest ended
    refine ⟨fun hn => hostRow_act h (cueRemove_unknown hs h1 ht hn), fun hc hp => ?_, fun p hc hp hx => ?_, fun p hc hp hx => ?_,
      fun p x hc hp hx hx' => ?_⟩
    all_goals obtain ⟨e, he⟩ := Option.ne_none_iff_exists'.1 hc
    · exact hostRow_act h (cueRemove_alone hs h1 ht he hp)
    · have hgone : removeFromPlayer p t (withoutCue t s) = loadRemoved p t (withoutCue t s) := removeFromPlayer_gone hx
      exact hostRow_act h ((cueRemove_held hs h1 ht he hp).trans (by rw [hgone]))
    · have hfade : removeFromPlayer p t (withoutCue t s)
        = setPlayer p { playerAt s p with detached := true, cause := .removed } (withoutCue t s) := removeFromPlayer_fading hx
      exact hostRow_act h ((cueRemove_held hs h1 ht he hp).trans (by rw [hfade]))
    · have hstop := removeFromPlayer_playing (t := t) (s := withoutCue t s) hx hx'
      exact hostRow_act h ((cueRemove_held hs h1 ht he hp).trans (by rw [hstop]))

/-- Settles O35: CUE MOVE by the entry's place, CUE GAIN by the player that holds it. -/
theorem cueMoveAndCueGain : Obligations.CueMoveAndCueGain := by
  refine ⟨?move, ?refused, ?gain⟩
  case move =>
    intro tag position t e m s h hs h1 ht he
    refine ⟨fun hf => hostRow_act h (cueMove_front hs h1 ht he hf), fun hf => ?_⟩
    have htrim := trimWindow_trimmed { s with pu := { s.pu with
      cues := insertAt (s.pu.cues.filter fun x => x.tag != t)
        (placeIn s (s.pu.cues.filter fun x => x.tag != t) position.toNat) e } }
    have htags := tags_trimmed htrim
    rw [tag_of_cueOf he] at htags
    refine ⟨_, _, hostRow_act h (cueMove_placed hs h1 ht he hf rfl), _, rfl, htrim, placeIn_front, placeIn_inside,
      fun hp => placeIn_end ?_, htags⟩
    exact hp.imp_left fun h0 => by rw [h0]; rfl
  case refused =>
    rintro tag x i m s (rfl | rfl) h hs
    · exact ⟨fun ht => hostRow_act h (cueMove_outside hs ht), fun t h1 ht hn => hostRow_act h (cueMove_unknown hs h1 ht hn)⟩
    · exact ⟨fun ht => hostRow_act h (cueGain_outside hs ht), fun t h1 ht hn => hostRow_act h (cueGain_unknown hs h1 ht hn)⟩
  case gain =>
    intro tag gain t e m s h hs h1 ht he cues
    refine ⟨fun hp => hostRow_act h (cueGain_alone hs h1 ht he hp), fun p x c hp hx hc => ?_⟩
    have htrim : playerTrim (playerAt s p) = c.trim := by
      rw [playerTrim, hc]
      rfl
    have hact := cueGain_held (gain := gain) hs h1 ht he hp
    rw [htrim, hx] at hact
    exact hostRow_act h hact

end Sys2Proof.Machine
end

section
/-! SUPPORT. PLAY and STOP (R90 to R92, R95), and the settling of O36. -/

namespace Sys2Proof.Machine

/-! ## The entry that PLAY makes due (R91) -/

/-- What PLAY looks for. -/
theorem firstToPlay_waits (e : CueEntry) : ((e.state == .waiting || e.state == .loaded) && !e.due) = true
    ↔ (e.state = .waiting ∨ e.state = .loaded) ∧ e.due = false := by simp

theorem firstToPlay_none (s : State) : firstToPlay s = none
    ↔ ∀ e ∈ s.pu.cues, ¬((e.state = .waiting ∨ e.state = .loaded) ∧ e.due = false) := by
  simp only [firstToPlay, List.find?_eq_none, firstToPlay_waits]

theorem firstToPlay_some (s : State) (e : CueEntry) : firstToPlay s = some e ↔ ∃ before after,
    s.pu.cues = before ++ e :: after ∧ ((e.state = .waiting ∨ e.state = .loaded) ∧ e.due = false)
      ∧ ∀ x ∈ before, ¬((x.state = .waiting ∨ x.state = .loaded) ∧ x.due = false) := by
  rw [firstToPlay, List.find?_eq_some_iff_append, firstToPlay_waits]
  constructor
  · rintro ⟨hw, before, after, hl, hb⟩
    refine ⟨before, after, hl, hw, fun x hx hwx => ?_⟩
    have hnot := hb x hx
    rw [(firstToPlay_waits x).2 hwx] at hnot
    exact nomatch hnot
  · rintro ⟨before, after, hl, hw, hb⟩
    refine ⟨hw, before, after, hl, fun x hx => ?_⟩
    rw [Bool.not_eq_true', Bool.eq_false_iff]
    exact fun hwx => hb x hx ((firstToPlay_waits x).1 hwx)

section
variable {s : State}

theorem play_empty (hp : s.settings.roles.playout = true) (hc : s.pu.cues = []) : playCommand s = refuse .noSuch s := by
  rw [playCommand, if_neg (by simp [hp]), if_pos hc]

theorem play_none (hp : s.settings.roles.playout = true) (hc : s.pu.cues ≠ []) (h : firstToPlay s = none) :
    playCommand s = refuse .wrongState s := by
  rw [playCommand, if_neg (by simp [hp]), if_neg hc, h]

theorem play_due {e : CueEntry} (hp : s.settings.roles.playout = true) (h : firstToPlay s = some e) :
    playCommand s = (makeDue e.tag s, .okWith [word e.tag.toNat]) := by
  have hc : s.pu.cues ≠ [] := fun hc => by simp [firstToPlay, hc] at h
  rw [playCommand, if_neg (by simp [hp]), if_neg hc, h]

/-! ## STOP (R95) -/

/-- The player found for a tag holds an entry of that tag in the list. -/
theorem playerOf_holds {t : Half} {p : Fin 2} (h : playerOf s t = some p) : (playerAt s p).state ≠ .idle
    ∧ (playerAt s p).detached = false ∧ ∃ x, (playerAt s p).entry = some x ∧ x.tag = t := by
  have hp : holdsTag (playerAt s p) t = true := List.find?_some (p := fun p => holdsTag (playerAt s p) t) h
  simp only [holdsTag, Bool.and_eq_true, bne_iff_ne, ne_eq, Bool.not_eq_true', beq_iff_eq] at hp
  obtain ⟨⟨hidle, hdet⟩, hent⟩ := hp
  exact ⟨hidle, hdet, Option.map_eq_some_iff.1 hent⟩

variable {tag : Word} {t : Half}

theorem stop_outside (hp : s.settings.roles.playout = true) (hs : s.settings.roles.site = false)
    (h : tag = 0 ∨ 65535 < tag.toNat) : stopCommand tag s = refuse .badParam s := by
  rw [stopCommand, if_neg (by simp [hp]), onCue_outside hs h]

theorem stop_unknown (hp : s.settings.roles.playout = true) (hs : s.settings.roles.site = false) (h1 : 1 ≤ tag.toNat)
    (ht : tag.toNat = t.toNat) (h : cueOf s t = none) : stopCommand tag s = refuse .noSuch s := by
  rw [stopCommand, if_neg (by simp [hp]), onCue_unknown hs h1 ht h]

theorem stop_notRole (hp : s.settings.roles.playout = false) : stopCommand tag s = refuse .notRole s :=
  if_pos (by simp [hp])

variable {e : CueEntry}

theorem stop_unstarted (hp : s.settings.roles.playout = true) (hs : s.settings.roles.site = false) (h1 : 1 ≤ tag.toNat)
    (ht : tag.toNat = t.toNat) (he : cueOf s t = some e) (hw : e.state = .waiting ∨ e.state = .loaded) :
    stopCommand tag s = refuse .wrongState s := by
  rw [stopCommand, if_neg (by simp [hp]), onCue_found hs h1 ht he, if_pos hw]

theorem stop_player {p : Fin 2} (hp : s.settings.roles.playout = true) (hs : s.settings.roles.site = false)
    (h1 : 1 ≤ tag.toNat) (ht : tag.toNat = t.toNat) (he : cueOf s t = some e) (hw : e.state = .playing ∨ e.state = .held)
    (hh : playerOf s t = some p) : stopCommand tag s = (stopPlayer p s, .only .ok) := by
  have hstarted : ¬(e.state = .waiting ∨ e.state = .loaded) := by
    rcases hw with hw | hw <;> simp [hw]
  rw [stopCommand, if_neg (by simp [hp]), onCue_found hs h1 ht he, if_neg hstarted, tag_of_cueOf he, hh]

theorem stopPlayer_playing {p : Fin 2} {h : HeldEntry} (hs : (playerAt s p).state = .playing)
    (he : (playerAt s p).entry = some h) : stopPlayer p s = { s with
      pu := { s.pu with players := s.pu.players.put p { playerAt s p with state := .ending, cause := .stop } }
      me := { s.me with
        playerEnvelope := s.me.playerEnvelope.put p ((Tab.at s.me.playerEnvelope p).giveEnvelope 0 h.fadeOut) } } := by
  unfold stopPlayer
  dsimp only
  rw [hs]
  have hfade : ((playerAt s p).entry.map HeldEntry.fadeOut).getD 0 = h.fadeOut := by rw [he]; rfl
  exact (stopPlaying_eq p .stop s).trans (by rw [hfade])

theorem stopPlayer_fading {p : Fin 2} (hs : (playerAt s p).state = .held) (hf : (playerAt s p).phase = .fading) :
    stopPlayer p s = setPlayer p { playerAt s p with cause := .stop } s := by
  unfold stopPlayer
  dsimp only
  rw [hs]
  exact if_pos hf

theorem stopPlayer_waiting {p : Fin 2} (hs : (playerAt s p).state = .held) (hf : (playerAt s p).phase = .waiting) :
    stopPlayer p s = endEntry p .stop s := by
  unfold stopPlayer
  dsimp only
  rw [hs]
  exact if_neg (by rw [hf]; exact nofun)

end

/-- Settles O36: PLAY by the first entry that waits, STOP by the state of the entry's player. -/
theorem playAndStop : Obligations.PlayAndStop := by
  refine ⟨?play, ?outside, ?stop, fun tag m s h hp => hostRow_act h (stop_notRole hp)⟩
  case play =>
    intro m s h hp waits
    exact ⟨firstToPlay_none s, firstToPlay_some s, fun hc => hostRow_act h (play_empty hp hc),
      fun hc hn => hostRow_act h (play_none hp hc hn),
      fun e he => ⟨_, hostRow_act h (play_due hp he), makeDue_comesDue e.tag s⟩⟩
  case outside =>
    intro tag m s h hp hs ht
    exact hostRow_act h (stop_outside hp hs ht)
  case stop =>
    intro tag t m s h hp hs h1 ht
    refine ⟨fun hn => hostRow_act h (stop_unknown hp hs h1 ht hn), fun e he hw => hostRow_act h (stop_unstarted hp hs h1 ht he hw),
      fun e p x he hw hh hx hx' => ?_, fun e p he hw hh hx hf => ?_, fun e p he hw hh hx hf => ?_⟩
    · exact hostRow_act h ((stop_player hp hs h1 ht he (.inl hw) hh).trans (by rw [stopPlayer_playing hx hx']))
    · exact hostRow_act h ((stop_player hp hs h1 ht he (.inr hw) hh).trans (by rw [stopPlayer_fading hx hf]))
    · obtain ⟨-, hd, y, hy, rfl⟩ := playerOf_holds hh
      exact hostRow_act h ((stop_player hp hs h1 ht he (.inr hw) hh).trans
        (by rw [stopPlayer_waiting hx hf, endEntry_ended hy hd he]))

end Sys2Proof.Machine
end

section
/-! SUPPORT. Loading, times and segue points (R86, R87, R90, R93, R105), and the settling of O37. -/

namespace Sys2Proof.Machine

/-! ## PLAYER_LOAD (R86, R87) -/

theorem resolveSource_frame (src : CueSource) (s : State) :
    ∃ g l, resolveSource src s = ({ s with cs := { s.cs with groups := g } }, l) := by
  cases src
  case clip c => exact ⟨_, _, rfl⟩
  case group g => exact ⟨_, _, rfl⟩

theorem copyClip_fresh (s : State) (c : Fin 256) : copyClip s (StreamClip.fresh c)
    = ⟨c, true, (clipAt s c).trim, (clipAt s c).segue, (clipAt s c).format, (clipAt s c).length⟩ := rfl

/-- The first IDLE player (R86). -/
theorem firstIdle {p : Fin 2} {s : State} (h : (playerAt s p).state = .idle) (hp : p = 0 ∨ (playerAt s 0).state ≠ .idle) :
    bothPlayers.find? (fun p => (playerAt s p).state == .idle) = some p := by
  match p with
  | 0 => simp [bothPlayers, h]
  | 1 =>
    have h0 := hp.resolve_left (by decide)
    simp [bothPlayers, h, h0]

theorem playerLoad_takes {p : Fin 2} {e : CueEntry} {s : State} (hr : s.settings.roles.playout = true)
    (hp : bothPlayers.find? (fun p => (playerAt s p).state == .idle) = some p)
    (he : (loadWindow s).find? (fun e => e.state == .waiting) = some e) : playerLoad s = loadEntry p e s := by
  unfold playerLoad
  rw [if_pos hr, hp, he]

theorem playerLoad_none {s : State} (h : s.settings.roles.playout = false ∨ (∀ p, (playerAt s p).state ≠ .idle)
    ∨ (∀ e ∈ s.pu.cues.take 2, e.state ≠ .waiting)) : playerLoad s = s := by
  unfold playerLoad
  split
  case isFalse => rfl
  case isTrue hr =>
    rcases h with h | h | h
    · rw [h] at hr
      exact nomatch hr
    · have hn : bothPlayers.find? (fun p => (playerAt s p).state == .idle) = none :=
        List.find?_eq_none.2 fun p _ => by simp [h p]
      rw [hn]
    · have hn : (loadWindow s).find? (fun e => e.state == .waiting) = none :=
        List.find?_eq_none.2 fun e he => by simp [h e he]
      rw [hn]
      split
      case h_1 heq => exact nomatch heq
      case h_2 => rfl

/-- A jump to the program gain P (R44). -/
theorem Ramp.giveGain_program (r : Ramp) (trim gain : Nat) :
    r.giveGain (programGain trim gain) 0 = Ramp.rest (min 8192 ((trim * gain + 2048) / 4096)) := by
  rw [Ramp.giveGain, Ramp.give, if_pos rfl, programGain, ← Nat.min_assoc, Nat.min_self]

theorem Ramp.giveEnvelope_load (r : Ramp) (n : Nat) :
    r.giveEnvelope (if 0 < n then 0 else 4096) 0 = Ramp.rest (if 0 < n then 0 else 4096) := by
  rw [Ramp.giveEnvelope, Ramp.give, if_pos rfl]
  split <;> rfl

/-- The player's record once it has taken an entry (R87). -/
def loadedPlayer (x : Player) (e : CueEntry) (stream : List StreamClip) : Player :=
  { x.cleared with
    state := .loading, entry := some ⟨e.tag, e.tier, e.gain, e.fadeIn, e.fadeOut, e.hold⟩, stream := stream }

theorem loadEntry_eq (p : Fin 2) (e : CueEntry) (s : State) {g : Tab Group 16} {l : List (Fin 256)}
    (hr : resolveSource e.source s = ({ s with cs := { s.cs with groups := g } }, l)) : loadEntry p e s = { s with
      cs := { s.cs with groups := g, asked := 0 }
      pu := { s.pu with
        cues := s.pu.cues.map fun x => if x.tag = e.tag then { x with state := .loaded } else x
        players := s.pu.players.put p (loadedPlayer (playerAt s p) e (freshStream s l)) }
      me := { s.me with
        playerGain := s.me.playerGain.put p (Ramp.rest (min 8192
          (((((freshStream s l).head?.map StreamClip.trim).getD 4096) * e.gain + 2048) / 4096)))
        playerEnvelope := s.me.playerEnvelope.put p (Ramp.rest (if 0 < e.fadeIn then 0 else 4096)) } } := by
  have hstream : freshStream { s with cs := { s.cs with groups := g } } l = freshStream s l := by cases l <;> rfl
  unfold loadEntry
  rw [hr]
  dsimp only
  rw [hstream, givePlayerEnvelope, Ramp.giveEnvelope_load, giveProgramGain, Ramp.giveGain_program]
  rfl

/-! ## READ PLAYER (R105) -/

section
variable {player : Word} {s : State}

theorem readPlayer_notRole (h : s.settings.roles.playout = false) : readPlayerCommand player s = refuse .notRole s :=
  if_pos (by simp [h])

theorem readPlayer_above (h : s.settings.roles.playout = true) (hp : 2 ≤ player.toNat) :
    readPlayerCommand player s = refuse .badParam s := by
  rw [readPlayerCommand, if_neg (by simp [h]), index?_eq_none.2 hp]

theorem readPlayer_reads {p : Fin 2} (h : s.settings.roles.playout = true) (hp : player.toNat = p.val) :
    readPlayerCommand player s
      = (setPlayer p { playerAt s p with underruns := 0 } s, .okWith (playerWords p s)) := by
  rw [readPlayerCommand, if_neg (by simp [h]), hp, index?_val]

end

/-! ## Times and segue points (R90, R93) -/

theorem timeCome_atTime {e : CueEntry} (h : e.startMode = .atTime) (now : Word) :
    timeCome now e = decide ((now - e.startTime).toNat < 2147483648) := by
  rw [timeCome, h]
  rfl

theorem dueAtTime_of {tag : Half} {e : CueEntry} {s : State} (h : cueOf s tag = some e) :
    dueAtTime tag s = if timeCome s.clock.blockCount e then makeDue tag s else s := by
  rw [dueAtTime, h]

/-- The state in which the segue point of a player's entry has been told (R93). -/
def segueTold (p : Fin 2) (s : State) : State := setPlayer p { playerAt s p with segueGiven := true } s

theorem reachSegue_there {p : Fin 2} {n : Nat} {h : HeldEntry} {s : State} (hs : (playerAt s p).state = .playing)
    (hc : (playerAt s p).cause = .complete) (hd : (playerAt s p).detached = false)
    (hg : (playerAt s p).segueGiven = false) (hn : streamSegue (playerAt s p).stream = some n)
    (hp : n ≤ (playerAt s p).position) (he : (playerAt s p).entry = some h) :
    (follower h.tag s = none → reachSegue p s = segueTold p s)
    ∧ ∀ t, follower h.tag s = some t → reachSegue p s = makeDue t (segueTold p s) := by
  have htag : heldTag (playerAt s p) = h.tag := by simp [heldTag, he]
  have hfollow : follower (heldTag (playerAt s p)) (segueTold p s) = follower h.tag s := congrArg (follower · s) htag
  unfold segueTold at hfollow ⊢
  unfold reachSegue
  dsimp only
  rw [hn, if_pos ⟨.inl hs, hc, hd, hg, decide_eq_true hp⟩, hfollow]
  exact ⟨fun hf => by rw [hf], fun t hf => by rw [hf]⟩

/-- Settles O37: loading by the player and the entry, READ PLAYER by the player word, due entries by their time or segue point. -/
theorem entriesAreLoadedAndComeDue : Obligations.EntriesAreLoadedAndComeDue := by
  refine ⟨?load, fun s h => congrArg Host.Outcome.next (playerLoad_none h), ?read, ?time, ?segue⟩
  case load =>
    intro p e s hr hi hp he r stream trim
    have hsource : resolveSource e.source s = r := by
      unfold resolveSource r
      cases e.source <;> rfl
    obtain ⟨g, l, hframe⟩ := resolveSource_frame e.source s
    have hload := loadEntry_eq p e s hframe
    have hrl : r = ({ s with cs := { s.cs with groups := g } }, l) := hsource.symm.trans hframe
    have hstream : stream = freshStream s l := by
      unfold stream
      rw [hrl]
      cases l <;> rfl
    unfold trim
    rw [hstream, hrl]
    exact congrArg Host.Outcome.next ((playerLoad_takes hr (firstIdle hi hp) he).trans hload)
  case read =>
    intro player m s h
    refine ⟨fun hr => hostRow_act h (readPlayer_notRole hr), fun hr hp => hostRow_act h (readPlayer_above hr hp),
      fun p hr hp => ?_⟩
    intro x held
    refine (hostRow_act h (readPlayer_reads hr hp)).trans ?_
    have hwords : playerWords p s = ([word x.state.ctorIdx, if x.state = .held then word x.phase.ctorIdx else wordNone] ++ held
          ++ word x.stream.length :: x.stream.flatMap (fun c => word c.clip :: if c.copied then
              [word c.trim, word c.segue, word c.format.ctorIdx, word c.length] else List.replicate 4 wordNone)
          ++ [word x.position, word x.fetchPosition, word x.buffer.length, word x.holdPosition, wordFlag x.segueGiven,
              wordFlag x.low, word (x.buffer.length / 48), word (Tab.at s.me.playerGain p).current,
              word (Tab.at s.me.playerEnvelope p).current, word x.underruns]) := by
      have hheld : heldWords x.entry = held := by
        unfold heldWords held
        cases x.entry <;> rfl
      rw [← hheld]
      rfl
    rw [← hwords]
    rfl
  case time =>
    intro tag e s he hm
    refine ⟨fun ht => ⟨_, rfl, ?_⟩, fun ht => congrArg Host.Outcome.next ((dueAtTime_of he).trans (if_neg ?_))⟩
    · rw [dueAtTime_of he, timeCome_atTime hm, if_pos (decide_eq_true ht)]
      exact makeDue_comesDue tag s
    · rw [timeCome_atTime hm, decide_eq_true_iff]
      exact Nat.not_lt.2 ht
  case segue =>
    intro p c h s x told hs hc hd hg hstream hcopied hsegue he
    have hn : streamSegue (playerAt s p).stream = some c.segue := by
      rw [show (playerAt s p).stream = [c] from hstream, streamSegue, if_pos hcopied]
    obtain ⟨halone, hnext⟩ := reachSegue_there hs hc hd hg hn hsegue he
    refine ⟨fun hf => congrArg Host.Outcome.next (halone hf), fun t hf => ⟨_, rfl, ?_⟩⟩
    rw [hnext t hf]
    exact makeDue_comesDue t told

end Sys2Proof.Machine
end

section
/-! SUPPORT. Endings, hold fades and releases (R94, R96, R97, R99, R100), and the settling of O38. -/

namespace Sys2Proof.Machine

/-! ## Endings and hold fades (R94, R99) -/

theorem beginEnding_near {p : Fin 2} {c : StreamClip} {h : HeldEntry} {s : State} (hs : (playerAt s p).state = .playing)
    (hn : (playerAt s p).ended = false) (he : (playerAt s p).entry = some h) (hf : 0 < h.fadeOut)
    (hc : (playerAt s p).stream = [c]) (hcopied : c.copied = true) (hall : c.length ≤ (playerAt s p).fetchPosition)
    (hleft : c.length - (playerAt s p).position ≤ 48 * h.fadeOut) : beginEnding p s
      = givePlayerEnvelope p 0 h.fadeOut (setPlayer p { playerAt s p with state := .ending } s) := by
  have hlength : streamLength (playerAt s p).stream = some c.length := by
    rw [hc, streamLength, if_pos hcopied]
    rfl
  have hbeyond : (playerAt s p).fullyFetched = true := by
    rw [Player.fullyFetched, hc, streamBeyond, hcopied]
    exact congrArg (!·) (if_neg (Nat.not_lt.2 hall))
  have hfade : ((playerAt s p).entry.map HeldEntry.fadeOut).getD 0 = h.fadeOut := by rw [he]; rfl
  unfold beginEnding
  dsimp only
  rw [hfade, hlength]
  exact if_pos ⟨hs, hn, hf, hbeyond, decide_eq_true hleft⟩

/-- A player that waits (R99): its buffer is empty, and what it has asked for is no longer wanted. -/
theorem enterWaiting_eq (p : Fin 2) {h : HeldEntry} {s : State} (he : (playerAt s p).entry = some h) : enterWaiting p s = { s with
    cs := fetchesUnwanted (playerReader p) s.cs
    pu := { s.pu with players := s.pu.players.put p { playerAt s p with
      state := .held, phase := .waiting, buffer := [], airKept := false, ended := false
      fetchPosition := match h.hold with
        | .resume => (playerAt s p).holdPosition
        | .restart => 0
        | .skip => (playerAt s p).fetchPosition } } } := by
  unfold enterWaiting
  dsimp only
  rw [disownFetch_unwanted, he]
  cases hh : h.hold <;> (rw [Option.map_some, hh]; rfl)

theorem fetchesUnwanted_waiting (r : Reader) (c : ClipStore) : ∀ f ∈ (fetchesUnwanted r c).waiting, f.reader = r → f.live = false := by
  intro f hf hr
  obtain ⟨g, -, rfl⟩ := List.mem_map.1 hf
  have hg : (g.reader != r) = false := bne_eq_false_iff_eq.2 hr
  show (g.live && g.reader != r) = false
  rw [hg, Bool.and_false]

theorem completeHoldFade_waits {p : Fin 2} {s : State} (hs : (playerAt s p).state = .held)
    (hp : (playerAt s p).phase = .fading) (hn : (playerAt s p).ended = true) (hc : (playerAt s p).cause = .complete)
    (hd : (playerAt s p).detached = false) : completeHoldFade p s = enterWaiting p s := by
  unfold completeHoldFade
  dsimp only
  rw [if_pos ⟨hs, hp, hn⟩, if_pos ⟨hc, hd⟩]

theorem completeHoldFade_ends {p : Fin 2} {s : State} (hs : (playerAt s p).state = .held)
    (hp : (playerAt s p).phase = .fading) (hn : (playerAt s p).ended = true)
    (hc : (playerAt s p).cause ≠ .complete ∨ (playerAt s p).detached = true) :
    completeHoldFade p s = endEntry p (playerAt s p).cause s := by
  unfold completeHoldFade
  dsimp only
  rw [if_pos ⟨hs, hp, hn⟩, if_neg]
  rintro ⟨hcomplete, hdet⟩
  rcases hc with hc | hc
  · exact hc hcomplete
  · rw [hc] at hdet
    exact nomatch hdet

theorem finishEnded_ends {p : Fin 2} {s : State} (hs : (playerAt s p).state = .playing ∨ (playerAt s p).state = .ending)
    (hn : (playerAt s p).ended = true) : finishEnded p s = endEntry p (playerAt s p).cause s := if_pos ⟨hs, hn⟩

/-- An entry that CUE REMOVE has taken out of the list ends with its player alone (R82, R96). -/
theorem endEntry_detached {p : Fin 2} {h : HeldEntry} {s : State} (c : EntryEnd) (he : (playerAt s p).entry = some h)
    (hd : (playerAt s p).detached = true) : endEntry p c s = loadRemoved p h.tag s := by
  have htag : heldTag (playerAt s p) = h.tag := by simp [heldTag, he]
  unfold endEntry
  dsimp only
  rw [if_pos hd, if_pos hd, htag]
  exact removed_gone p h.tag s

/-! ## What an end and a start leave of the other player -/

theorem endEntry_players (p : Fin 2) (c : EntryEnd) (s : State) :
    (endEntry p c s).pu.players = s.pu.players.put p (playerAt s p).cleared := by
  unfold endEntry applyEndAction
  dsimp only
  rw [idlePlayer_leaves]
  split
  · rfl
  · split
    · rfl
    · split <;> rfl

theorem endEntry_holdPresent (p : Fin 2) (c : EntryEnd) (s : State) : holdPresent (endEntry p c s) = holdPresent s := by
  unfold endEntry applyEndAction
  dsimp only
  rw [idlePlayer_leaves]
  split
  · rfl
  · split
    · rfl
    · split <;> rfl

theorem startEntry_players {p : Fin 2} {e : CueEntry} {s : State} (hh : holdPresent s = false) :
    (startEntry p e s).pu.players = s.pu.players.put p (playerAt s p).started := by
  have hfront : (moveToFront e.tag s).pu.players = s.pu.players := by
    unfold moveToFront
    split
    · rfl
    · split <;> rfl
  unfold startEntry
  dsimp only
  rw [hh, startPlayer_started, if_neg Bool.false_ne_true]
  unfold postIf
  split <;> exact congrArg (fun l : Tab Player 2 => l.put p (Tab.at l p).started) hfront

/-- With no hold cause a start makes no player HELD. -/
theorem makeDue_notHeld {q : Fin 2} {t : Half} {s : State} (hh : holdPresent s = false)
    (hq : (playerAt s q).state ≠ .held) : (playerAt (makeDue t s) q).state ≠ .held := by
  unfold makeDue
  dsimp only
  split
  case h_2 => exact hq
  case h_1 p _ =>
    unfold startIfReady
    dsimp only
    split
    case isFalse => exact hq
    case isTrue =>
      split
      case h_2 => exact hq
      case h_1 e _ =>
        split
        case isFalse => exact hq
        case isTrue =>
          intro hheld
          unfold playerAt at hheld
          rw [startEntry_players (by exact hh), Tab.at_put] at hheld
          split at hheld
          · exact nomatch hheld
          · exact hq hheld

/-! ## Releases (R97, R100) -/

section
variable {p q : Fin 2} {s : State}

theorem releasePlayer_of_not (h : (playerAt s p).state ≠ .held ∨ (playerAt s p).phase = .fading) : releasePlayer p s = s := by
  unfold releasePlayer
  dsimp only
  split
  case h_1 hs hp _ =>
    rcases h with h | h
    · exact absurd hs h
    · rw [h] at hp
      exact nomatch hp
  case h_2 => rfl

theorem markFading_of_not (h : (playerAt s p).state ≠ .held ∨ (playerAt s p).phase = .waiting) : markFading p s = s := by
  refine if_neg fun ⟨hs, hp⟩ => ?_
  rcases h with h | h
  · exact h hs
  · rw [h] at hp
    exact nomatch hp

theorem markFading_fading (hs : (playerAt s p).state = .held) (hp : (playerAt s p).phase = .fading) :
    markFading p s = setPlayer p { playerAt s p with releaseDue := true } s := if_pos ⟨hs, hp⟩

theorem playerAt_ne {t : State} {x : Player} (h : t.pu.players = s.pu.players.put p x) (hq : q ≠ p) :
    playerAt t q = playerAt s q := by
  unfold playerAt
  rw [h, Tab.at_put_ne _ _ hq]

/-- A release leaves the other player as it is, unless it makes a follower due there. -/
theorem releasePlayer_notHeld {h : HeldEntry} (hs : (playerAt s p).state = .held) (hp : (playerAt s p).phase = .waiting)
    (he : (playerAt s p).entry = some h) (hd : (playerAt s p).detached = false)
    (hskip : h.hold = .skip → holdPresent s = false) (hq : q ≠ p) (hn : (playerAt s q).state ≠ .held) :
    (playerAt (releasePlayer p s) q).state ≠ .held := by
  have hrel := releasePlayer_released hs hp he hd
  by_cases hk : h.hold = .skip
  case neg =>
    rcases hb : (playerAt s p).ready with _ | _
    · rw [hrel.reloads hk hb, playerAt_ne rfl hq]
      exact hn
    · rw [hrel.plays hk hb, playerAt_ne rfl hq]
      exact hn
  case pos =>
    have hend : (playerAt (endEntry p .skip s) q).state ≠ .held := by
      rw [playerAt_ne (endEntry_players p .skip s) hq]
      exact hn
    unfold releasePlayer
    dsimp only
    rw [hs, hp, he]
    dsimp only
    rw [hk]
    dsimp only
    split
    · exact makeDue_notHeld ((endEntry_holdPresent p .skip s).trans (hskip hk)) hend
    · exact hend

theorem anyHeld_of (h : (playerAt s p).state = .held) : anyHeld s = true := by
  have hmem : p ∈ bothPlayers := by
    match p with
    | 0 => exact List.mem_cons_self
    | 1 => exact List.mem_cons_of_mem _ List.mem_cons_self
  exact List.any_eq_true.2 ⟨p, hmem, beq_iff_eq.2 h⟩

theorem anyHeld_none (h : ∀ p, (playerAt s p).state ≠ .held) : anyHeld s = false := by
  refine Bool.eq_false_iff.2 fun hany => ?_
  obtain ⟨p, -, hp⟩ := List.any_eq_true.1 hany
  exact h p (beq_iff_eq.1 hp)

/-- The state in which a release has been told (R97, R100). -/
def releaseTold (s : State) : State := postIf (anyHeld s) .playersReleased [] { s with pu := { s.pu with releaseReached := false } }

theorem releasePlayers_reached (h : s.pu.releaseReached = true) : releasePlayers s
    = releasePlayer 1 (releasePlayer 0 (markFading 1 (markFading 0 (releaseTold s)))) := if_pos h

theorem releasePlayers_not (h : s.pu.releaseReached = false) : releasePlayers s = s := if_neg (Bool.eq_false_iff.1 h)

/-- The release of one player where the other is not HELD. -/
theorem release_one {t : State} (hq : ∀ q, q ≠ p → (playerAt t q).state ≠ .held) :
    ((playerAt t p).state = .held → (playerAt t p).phase = .fading →
      releasePlayer 1 (releasePlayer 0 (markFading 1 (markFading 0 t))) = setPlayer p { playerAt t p with releaseDue := true } t)
    ∧ ((playerAt t p).phase = .waiting → (∀ q, q ≠ p → (playerAt (releasePlayer p t) q).state ≠ .held) →
      releasePlayer 1 (releasePlayer 0 (markFading 1 (markFading 0 t))) = releasePlayer p t) := by
  have hleft (x : Player) (q : Fin 2) (hne : q ≠ p) : (playerAt (setPlayer p x t) q).state ≠ .held := by
    rw [playerAt_setPlayer_ne x t hne]
    exact hq q hne
  have hstays (hs : (playerAt t p).state = .held) (hf : (playerAt t p).phase = .fading) :
      releasePlayer p (setPlayer p { playerAt t p with releaseDue := true } t) = setPlayer p { playerAt t p with releaseDue := true } t :=
    releasePlayer_of_not (.inr (by rw [playerAt_setPlayer]; exact hf))
  match p with
  | 0 =>
    refine ⟨fun hs hf => ?_, fun hw hn => ?_⟩
    · rw [markFading_fading hs hf, markFading_of_not (.inl (hleft _ 1 (by decide))), hstays hs hf,
        releasePlayer_of_not (.inl (hleft _ 1 (by decide)))]
    · rw [markFading_of_not (p := 0) (.inr hw), markFading_of_not (.inl (hq 1 (by decide))),
        releasePlayer_of_not (.inl (hn 1 (by decide)))]
  | 1 =>
    refine ⟨fun hs hf => ?_, fun hw hn => ?_⟩
    · rw [markFading_of_not (p := 0) (.inl (hq 0 (by decide))), markFading_fading hs hf,
        releasePlayer_of_not (p := 0) (.inl (hleft _ 0 (by decide))), hstays hs hf]
    · rw [markFading_of_not (p := 0) (.inl (hq 0 (by decide))), markFading_of_not (.inr hw),
        releasePlayer_of_not (p := 0) (.inl (hq 0 (by decide)))]

theorem releaseLate_of_not (h : (playerAt s p).releaseDue = false ∨ (playerAt s p).state ≠ .held ∨ (playerAt s p).phase = .fading) :
    releaseLate p s = s := by
  refine if_neg fun ⟨hd, hs, hp⟩ => ?_
  rcases h with h | h | h
  · rw [h] at hd
    exact nomatch hd
  · exact h hs
  · rw [h] at hp
    exact nomatch hp

theorem releaseLate_due (hd : (playerAt s p).releaseDue = true) (hs : (playerAt s p).state = .held)
    (hp : (playerAt s p).phase = .waiting) : releaseLate p s = if s.pu.releaseCount = 16 then
      releasePlayer p (setPlayer p { playerAt s p with releaseDue := false } s)
      else setPlayer p { playerAt s p with releaseDue := false } s := if_pos ⟨hd, hs, hp⟩

end

theorem forEach_two {α : Type} (f : α → State → State) (a b : α) (s : State) : forEach [a, b] f s = f b (f a s) := rfl

theorem forEach_three {α : Type} (f : α → State → State) (a b c : α) (s : State) :
    forEach [a, b, c] f s = f c (f b (f a s)) := rfl

/-- Settles O38: endings and hold fades by the player's state, releases one player at a time, the block start by its parts. -/
theorem endingHoldAndRelease : Obligations.EndingHoldAndRelease := by
  refine ⟨⟨?ending, ?fade⟩, ?ended, ?released, ?late, ?start⟩
  case ending =>
    intro p c h s x hs hn he hf hc hcopied hall hleft
    exact congrArg Host.Outcome.next (beginEnding_near hs hn he hf hc hcopied hall hleft)
  case fade =>
    intro p h s x hs hp hn hc hd he
    refine ⟨_, rfl, ?_⟩
    rw [completeHoldFade_waits hs hp hn hc hd, enterWaiting_eq p he]
    exact ⟨rfl, fetchesUnwanted_waiting _ _⟩
  case ended =>
    intro p s x
    refine ⟨fun h => if_neg ?_, fun h e he hd hc hn => ⟨fun hs => ?_, fun hs hp hcause => ?_⟩, fun h he hd hn => ?_⟩
    · rintro ⟨hs, hn⟩
      rcases h with ⟨h1, h2⟩ | h
      · exact hs.elim h1 h2
      · exact Bool.eq_false_iff.1 h hn
    · exact (finishEnded_ends hs hn).trans (endEntry_ended he hd hc)
    · exact congrArg Host.Outcome.next ((completeHoldFade_ends hs hp hn (.inl hcause)).trans (endEntry_ended he hd hc))
    · intro left
      exact ⟨fun hs => (finishEnded_ends hs hn).trans (endEntry_detached _ he hd),
        fun hs hp => congrArg Host.Outcome.next ((completeHoldFade_ends hs hp hn (.inr hd)).trans (endEntry_detached _ he hd))⟩
  case released =>
    intro s
    refine ⟨fun h => congrArg Host.Outcome.next (releasePlayers_not h), fun h hn => ?_, fun p h hq hs => ?_⟩
    · have htold : releaseTold s = { s with pu := { s.pu with releaseReached := false } } := by
        rw [releaseTold, anyHeld_none hn]
        rfl
      have hnone (p : Fin 2) : (playerAt (releaseTold s) p).state ≠ .held := by
        rw [htold]
        exact hn p
      refine congrArg Host.Outcome.next ((releasePlayers_reached h).trans (Eq.trans ?_ htold))
      rw [markFading_of_not (.inl (hnone 0)), markFading_of_not (.inl (hnone 1)), releasePlayer_of_not (.inl (hnone 0)),
        releasePlayer_of_not (.inl (hnone 1))]
    · intro told
      have htold : releaseTold s = told := by
        rw [releaseTold, anyHeld_of hs]
        rfl
      obtain ⟨hfade, hwait⟩ := release_one (p := p) (t := told) hq
      have hreached := releasePlayers_reached h
      rw [htold] at hreached
      refine ⟨fun hp => congrArg Host.Outcome.next (hreached.trans (hfade hs hp)), fun x hp he hd hskip => ⟨_, rfl, ?_⟩⟩
      rw [hreached, hwait hp fun q hne => releasePlayer_notHeld (s := told) hs hp he hd hskip hne (hq q hne)]
      exact releasePlayer_released (s := told) hs hp he hd
  case late =>
    intro p s x unmarked
    refine ⟨releaseLate_of_not, fun h hdue hs hp he hd => ⟨fun hc => (releaseLate_due hdue hs hp).trans (if_neg hc), fun hc => ?_⟩⟩
    rw [releaseLate_due hdue hs hp, if_pos hc]
    have hx : playerAt unmarked p = { x with releaseDue := false } := playerAt_setPlayer p _ s
    refine releasePlayer_released ?_ ?_ ?_ ?_
    all_goals rw [hx]
    · exact hs
    · exact hp
    · exact he
    · exact hd
  case start =>
    intro s
    refine ⟨rfl, rfl, fun h => if_neg (Bool.eq_false_iff.1 h), fun h => ?_, fun t => rfl, fun p => ⟨rfl, rfl⟩⟩
    intro released timed segued
    unfold playoutStart
    rw [if_pos h]
    unfold segued timed released
    rw [bothPlayers, segueOrder]
    dsimp only
    rw [forEach_three, forEach_two, forEach_two]

end Sys2Proof.Machine
end

section
/-! SUPPORT. The automation seat (R101 to R104), and the settling of O39. -/

namespace Sys2Proof.Machine

/-! ## What the peers report (R101) -/

theorem mem_presentBodies {s : State} {n : Nat} {b : AnnounceBody} : (n, b) ∈ presentBodies s
    ↔ ∃ k : Fin 8, k.val = n ∧ (Tab.at s.peers k).state = .present ∧ (Tab.at s.peers k).body = some b := by
  unfold presentBodies
  rw [List.mem_filterMap]
  constructor
  · rintro ⟨k, -, hk⟩
    dsimp only at hk
    split at hk
    · obtain ⟨c, hc, he⟩ := Option.map_eq_some_iff.1 hk
      obtain ⟨rfl, rfl⟩ := Prod.mk.inj he
      exact ⟨k, rfl, ‹_›, hc⟩
    · exact nomatch hk
  · rintro ⟨k, rfl, hs, hb⟩
    refine ⟨k, List.mem_finRange k, ?_⟩
    dsimp only
    rw [if_pos hs, hb]
    rfl

/-- A PRESENT peer reports a seat state (R101). -/
def PeerSeat (s : State) (k : Fin 8) (st : SeatState) : Prop :=
  (Tab.at s.peers k).state = .present ∧ ∃ b, (Tab.at s.peers k).body = some b ∧ b.seat = st

theorem peerHolding_iff (s : State) : peerHolding s = true ↔ ∃ k, PeerSeat s k .holding := by
  rw [peerHolding, List.any_eq_true]
  constructor
  · rintro ⟨⟨n, b⟩, hm, hb⟩
    obtain ⟨k, rfl, hs, hbody⟩ := mem_presentBodies.1 hm
    exact ⟨k, hs, b, hbody, beq_iff_eq.1 hb⟩
  · rintro ⟨k, hs, b, hbody, hb⟩
    exact ⟨(k.val, b), mem_presentBodies.2 ⟨k, rfl, hs, hbody⟩, beq_iff_eq.2 hb⟩

theorem lowerPeer_iff (st : SeatState) (s : State) :
    lowerPeer st s = true ↔ ∃ k, k < s.settings.nodeId ∧ PeerSeat s k st := by
  rw [lowerPeer, List.any_eq_true]
  constructor
  · rintro ⟨⟨n, b⟩, hm, hb⟩
    obtain ⟨k, rfl, hs, hbody⟩ := mem_presentBodies.1 hm
    obtain ⟨hseat, hlt⟩ := Bool.and_eq_true_iff.1 hb
    exact ⟨k, of_decide_eq_true hlt, hs, b, hbody, beq_iff_eq.1 hseat⟩
  · rintro ⟨k, hlt, hs, b, hbody, hb⟩
    exact ⟨(k.val, b), mem_presentBodies.2 ⟨k, rfl, hs, hbody⟩,
      Bool.and_eq_true_iff.2 ⟨beq_iff_eq.2 hb, decide_eq_true hlt⟩⟩

/-! ## A change of the seat's state (R101) -/

section
variable {s : State}

/-- The seat in another state, with SEAT_STATE told, where neither end is HOLDING. -/
theorem setSeat_apart {new : SeatState} (c : SeatCause) (hs : s.pu.seat ≠ new) (hold : s.pu.seat ≠ .holding)
    (hnew : new ≠ .holding) : setSeat new c s = { s with
      cp := s.cp.post ⟨.seatState, s.clock.blockCount, [word s.pu.seat.ctorIdx, word new.ctorIdx, word c.ctorIdx]⟩
      pu := { s.pu with seat := new } } := by
  rw [setSeat_other hs, if_neg hold, seatChanged, beq_eq_false_iff_ne.2 hold, bne_iff_ne.2 hnew, Bool.or_false, Bool.and_true]

theorem setSeat_won (c : SeatCause) (hs : s.pu.seat ≠ .holding) : setSeat .holding c s = { s with
    cp := s.cp.post ⟨.seatState, s.clock.blockCount, [word s.pu.seat.ctorIdx, word 2, word c.ctorIdx]⟩
    pu := { s.pu with seat := .holding, holdLatch := false } } := by
  rw [setSeat_other hs, if_neg hs, seatChanged, bne_self_eq_false, Bool.and_false]
  rfl

/-- The state in which the seat has left HOLDING, before the hold that this brings about. -/
def seatLost (new : SeatState) (c : SeatCause) (s : State) : State := { s with
  cp := s.cp.post ⟨.seatState, s.clock.blockCount, [word 2, word new.ctorIdx, word c.ctorIdx]⟩
  pu := { s.pu with seat := new, holdLatch := true } }

theorem setSeat_lost {new : SeatState} (c : SeatCause) (hs : s.pu.seat = .holding) (hnew : new ≠ .holding) :
    setSeat new c s = takeHold .latch true (seatLost new c s) := by
  rw [setSeat_other (hs.trans_ne hnew.symm), if_pos hs, seatChanged, hs, bne_iff_ne.2 hnew, beq_self_eq_true, Bool.or_true]
  rfl

/-! ## The seat at a block start (R102 to R104) -/

theorem joined_iff : joined s = true ↔ s.lu.state = .joined := by rw [joined, beq_iff_eq]

theorem seatTick_standby (h : s.pu.seat = .standby) : seatTick s = standbyTick s := by rw [seatTick, h]

theorem seatTick_holding (h : s.pu.seat = .holding) : seatTick s = holdTick s := by rw [seatTick, h]

theorem seatTick_bidding (h : s.pu.seat = .bidding) :
    seatTick s = if (bidTick s).pu.seat = .holding then holdTick (bidTick s) else bidTick s := by rw [seatTick, h]

theorem seatTick_bidding_of {t : State} (h : s.pu.seat = .bidding) (hb : bidTick s = t) (ht : t.pu.seat ≠ .holding) :
    seatTick s = t := by rw [seatTick_bidding h, hb, if_neg ht]

theorem seatTick_yielded (h : s.pu.seat = .yielded) :
    seatTick s = endYield { s with pu := { s.pu with yieldTimer := bump 4096 s.pu.yieldTimer } } := by rw [seatTick, h]

theorem bidTick_holder (h : peerHolding s = true) : bidTick s = setSeat .standby .peerHolding s := if_pos h

theorem bidTick_empty (h : peerHolding s = false) (hc : s.pu.cues = []) : bidTick s = setSeat .standby .listEmpty s := by
  rw [bidTick, if_neg (Bool.eq_false_iff.1 h), if_pos hc]

theorem bidTick_behind (h : peerHolding s = false) (hc : s.pu.cues ≠ []) (hl : lowerPeer .bidding s = true) :
    bidTick s = { s with pu := { s.pu with bidCount := 0 } } := by
  rw [bidTick, if_neg (Bool.eq_false_iff.1 h), if_neg hc, if_pos hl]

theorem bidTick_counts (h : peerHolding s = false) (hc : s.pu.cues ≠ []) (hl : lowerPeer .bidding s = false) :
    bidTick s = holdSeat { s with pu := { s.pu with bidCount := bump 64 s.pu.bidCount } } := by
  rw [bidTick, if_neg (Bool.eq_false_iff.1 h), if_neg hc, if_neg (Bool.eq_false_iff.1 hl)]

theorem holdSeat_wins (h : s.pu.seat = .bidding) (hb : 64 ≤ s.pu.bidCount) : holdSeat s = setSeat .holding .bidWon s :=
  if_pos ⟨h, hb⟩

theorem holdSeat_waits (hb : s.pu.bidCount < 64) : holdSeat s = s := if_neg fun h => Nat.not_le.2 hb h.2

/-- A holder's air run at a block start (R103). -/
def airCounted (s : State) : State :=
  { s with pu := { s.pu with airRun := if anyPlaying s then bump 128 s.pu.airRun else 0 } }

theorem holdTick_behind (h : lowerPeer .holding s = true) : holdTick s = setSeat .standby .peerHolding (airCounted s) :=
  if_pos h

theorem yieldSeat_yields (hs : s.pu.seat = .holding) (hr : 128 ≤ s.pu.airRun) (hl : linkSilent s = true) :
    yieldSeat s = setSeat .yielded .silence { s with pu := { s.pu with yieldTimer := 0 } } := if_pos ⟨hs, hr, hl⟩

/-- A holder does not go back to bidding at a block start. -/
theorem holdTick_seat (hs : s.pu.seat = .holding) : (holdTick s).pu.seat ≠ .bidding := by
  have hair : (airCounted s).pu.seat = .holding := hs
  show (if lowerPeer .holding (airCounted s) then setSeat .standby .peerHolding (airCounted s)
    else yieldSeat (airCounted s)).pu.seat ≠ .bidding
  generalize airCounted s = u at hair ⊢
  split
  · rw [setSeat_seat]
    exact nofun
  · unfold yieldSeat
    split
    · rw [setSeat_seat]
      exact nofun
    · rw [hair]
      exact nofun

theorem anyPlaying_iff : anyPlaying s = true ↔ ∃ p, (playerAt s p).state = .playing := by
  rw [anyPlaying, List.any_eq_true]
  constructor
  · rintro ⟨p, -, hp⟩
    exact ⟨p, beq_iff_eq.1 hp⟩
  · rintro ⟨p, hp⟩
    refine ⟨p, ?_, beq_iff_eq.2 hp⟩
    match p with
    | 0 => exact List.mem_cons_self
    | 1 => exact List.mem_cons_of_mem _ List.mem_cons_self

/-! ## The hold that the loss of the seat brings (R98) -/

theorem holdPlayer_of_not {airKept : Bool} {p : Fin 2} (h : (playerAt s p).state ≠ .playing)
    (hn : (playerAt s p).state ≠ .ending) : holdPlayer airKept p s = s := by
  unfold holdPlayer
  dsimp only
  split
  case h_1 hs => exact absurd hs h
  case h_2 hs => exact absurd hs hn
  case h_3 => rfl

theorem changeOwnCue_players (p : Fin 2) (f : CueEntry → CueEntry) (s : State) :
    (changeOwnCue p f s).pu.players = s.pu.players ∧ (changeOwnCue p f s).me = s.me := by
  unfold changeOwnCue
  split
  · split <;> exact ⟨rfl, rfl⟩
  · exact ⟨rfl, rfl⟩

/-- A PLAYING player that a hold takes fades (R98). -/
theorem holdPlayer_playing {airKept : Bool} {p : Fin 2} (h : (playerAt s p).state = .playing) :
    playerAt (holdPlayer airKept p s) p = { playerAt s p with
      state := .held, phase := .fading, holdPosition := (playerAt s p).position, airKept := airKept, releaseDue := false }
    ∧ Tab.at (holdPlayer airKept p s).me.playerEnvelope p = (Tab.at s.me.playerEnvelope p).giveEnvelope 0 8 := by
  obtain ⟨hp, hm⟩ := changeOwnCue_players p (fun e => { e with state := .held }) s
  unfold holdPlayer
  dsimp only
  rw [h]
  refine ⟨(Tab.at_put _ p p _).trans (if_pos rfl), (Tab.at_put _ p p _).trans ((if_pos rfl).trans ?_)⟩
  exact congrArg (fun m : MixEngine => (Tab.at m.playerEnvelope p).giveEnvelope 0 8) hm

/-- A hold of one player leaves the other. -/
theorem holdPlayer_other (airKept : Bool) {p q : Fin 2} (hq : q ≠ p) :
    playerAt (holdPlayer airKept p s) q = playerAt s q
    ∧ Tab.at (holdPlayer airKept p s).me.playerEnvelope q = Tab.at s.me.playerEnvelope q := by
  obtain ⟨hp, hm⟩ := changeOwnCue_players p (fun e => { e with state := .held }) s
  unfold holdPlayer
  dsimp only
  split
  · refine ⟨(Tab.at_put_ne _ _ hq).trans (congrArg (fun l : Tab Player 2 => Tab.at l q) hp), (Tab.at_put_ne _ _ hq).trans ?_⟩
    exact congrArg (fun m : MixEngine => Tab.at m.playerEnvelope q) hm
  · split
    · exact ⟨Tab.at_put_ne _ _ hq, Tab.at_put_ne _ _ hq⟩
    · exact ⟨rfl, rfl⟩
  · exact ⟨rfl, rfl⟩

theorem takeHold_studio (c : HoldCause) (airKept : Bool) (h : s.settings.roles.playout = true) : takeHold c airKept s
    = post .playersHeld (word c.ctorIdx :: tagsToHold s) (holdPlayer airKept 1 (holdPlayer airKept 0 s)) := if_pos h

/-- A hold with no player PLAYING or ENDING tells its cause alone. -/
theorem takeHold_none (c : HoldCause) (airKept : Bool) (h : s.settings.roles.playout = true)
    (hn : ∀ p, (playerAt s p).state ≠ .playing ∧ (playerAt s p).state ≠ .ending) : takeHold c airKept s
      = { s with cp := s.cp.post ⟨.playersHeld, s.clock.blockCount, [word c.ctorIdx]⟩ } := by
  have htags : tagsToHold s = [] := by
    have hnone : bothPlayers.filter (fun p => (playerAt s p).state == .playing) = [] :=
      List.filter_eq_nil_iff.2 fun p _ => by simpa using (hn p).1
    rw [tagsToHold, hnone]
    rfl
  rw [takeHold_studio c airKept h, htags, holdPlayer_of_not (hn 0).1 (hn 0).2, holdPlayer_of_not (hn 1).1 (hn 1).2]
  rfl

/-- A hold takes a PLAYING player, whichever it is. -/
theorem takeHold_playing (c : HoldCause) {airKept : Bool} {p : Fin 2} (h : s.settings.roles.playout = true)
    (hp : (playerAt s p).state = .playing) : playerAt (takeHold c airKept s) p = { playerAt s p with
      state := .held, phase := .fading, holdPosition := (playerAt s p).position, airKept := airKept, releaseDue := false }
    ∧ Tab.at (takeHold c airKept s).me.playerEnvelope p = (Tab.at s.me.playerEnvelope p).giveEnvelope 0 8 := by
  rw [takeHold_studio c airKept h]
  match p with
  | 0 =>
    obtain ⟨hx, he⟩ := holdPlayer_playing (airKept := airKept) hp
    obtain ⟨hx', he'⟩ := holdPlayer_other (s := holdPlayer airKept 0 s) airKept (p := 1) (q := 0) (by decide)
    exact ⟨hx'.trans hx, he'.trans he⟩
  | 1 =>
    obtain ⟨hx', he'⟩ := holdPlayer_other (s := s) airKept (p := 0) (q := 1) (by decide)
    have hp' : (playerAt (holdPlayer airKept 0 s) 1).state = .playing := (congrArg Player.state hx').trans hp
    obtain ⟨hx, he⟩ := holdPlayer_playing (airKept := airKept) hp'
    rw [hx', he'] at *
    exact ⟨hx, he⟩

/-! ## SEAT RESET (R104) -/

theorem seatReset_yielded (hp : s.settings.roles.playout = true) (hs : s.pu.seat = .yielded) :
    seatResetCommand s = ({ s with
      cp := s.cp.post ⟨.seatState, s.clock.blockCount, [word 3, word 0, word 6]⟩
      pu := { s.pu with seat := .standby, holdLatch := false } }, .okWith [word 0]) := by
  rw [seatResetCommand, if_neg (by simp [hp])]
  dsimp only
  have hstandby : s.pu.seat ≠ .standby := by rw [hs]; exact nofun
  have hno : s.pu.seat ≠ .holding := by rw [hs]; exact nofun
  rw [if_pos hs, setSeat_apart .seatReset hstandby hno nofun, hs]
  rfl

theorem seatReset_other (hp : s.settings.roles.playout = true) (hs : s.pu.seat ≠ .yielded) :
    seatResetCommand s = ({ s with pu := { s.pu with holdLatch := false } }, .okWith [word s.pu.seat.ctorIdx]) := by
  rw [seatResetCommand, if_neg (by simp [hp])]
  dsimp only
  rw [if_neg hs]

end

/-- Settles O39, by the seat's state; its loss through the hold that it brings about. -/
theorem seatChangesHands : Obligations.SeatChangesHands := by
  unfold Obligations.SeatChangesHands
  intro told moved peerIs
  refine ⟨?standby, ?bidding, ?holding, ?won, ?yielded, ?yieldedPlaying, ?rested, ?yieldTick, ?seatReset⟩
  case standby =>
    intro s hs mayBid
    have hno : s.pu.seat ≠ .holding := by rw [hs]; exact nofun
    refine ⟨fun hm hn => ?_, fun h => ?_⟩
    · obtain ⟨hen, hj, hc⟩ := hm
      have hbid : s.pu.seat ≠ .bidding := by rw [hs]; exact nofun
      have hpeer : peerHolding s = false := Bool.eq_false_iff.2 fun h => by
        obtain ⟨k, hk⟩ := (peerHolding_iff s).1 h
        exact hn k hk
      rw [seatTick_standby hs, standbyTick, if_pos ⟨hen, joined_iff.2 hj, hc, hpeer⟩,
        setSeat_apart (s := { s with pu := { s.pu with bidCount := 0 } }) (new := .bidding) .noHolder hbid hno nofun]
      dsimp only
      rw [hs]
      rfl
    · rw [seatTick_standby hs]
      refine if_neg fun ⟨hen, hj, hc, hpeer⟩ => ?_
      rcases h with h | h
      · exact h ⟨hen, joined_iff.1 hj, hc⟩
      · exact Bool.eq_false_iff.1 hpeer ((peerHolding_iff s).2 h)
  case bidding =>
    intro s hs
    have hstandby : s.pu.seat ≠ .standby := by rw [hs]; exact nofun
    have hno : s.pu.seat ≠ .holding := by rw [hs]; exact nofun
    have hleaves (c : SeatCause) (hb : bidTick s = setSeat .standby c s) : seatTick s = moved s .standby 1 0 c.ctorIdx := by
      rw [setSeat_apart c hstandby hno nofun, hs] at hb
      exact seatTick_bidding_of hs hb nofun
    refine ⟨fun h => hleaves .peerHolding (bidTick_holder ((peerHolding_iff s).2 h)), fun hn => ?_⟩
    have hpeer : peerHolding s = false := Bool.eq_false_iff.2 fun h => by
      obtain ⟨k, hk⟩ := (peerHolding_iff s).1 h
      exact hn k hk
    refine ⟨fun hc => hleaves .listEmpty (bidTick_empty hpeer hc), fun k hc hk hb => ?_, fun hc hb => ?_⟩
    · exact seatTick_bidding_of hs (bidTick_behind hpeer hc ((lowerPeer_iff .bidding s).2 ⟨k, hk, hb⟩)) hno
    · have hlower : lowerPeer .bidding s = false := Bool.eq_false_iff.2 fun h => by
        obtain ⟨k, hk, hkb⟩ := (lowerPeer_iff .bidding s).1 h
        exact hb k hk hkb
      have hcounts := bidTick_counts hpeer hc hlower
      refine ⟨fun hlt => ?_, fun hge => ?_⟩
      · have hbump : bump 64 s.pu.bidCount = s.pu.bidCount + 1 := Nat.min_eq_right (by omega)
        rw [hbump, holdSeat_waits (by dsimp only; omega)] at hcounts
        exact seatTick_bidding_of hs hcounts hno
      · have hbump : 64 ≤ bump 64 s.pu.bidCount := Nat.le_min.2 ⟨Nat.le_refl _, by omega⟩
        rw [holdSeat_wins (s := { s with pu := { s.pu with bidCount := bump 64 s.pu.bidCount } }) hs hbump,
          setSeat_won (s := { s with pu := { s.pu with bidCount := bump 64 s.pu.bidCount } }) .bidWon hno] at hcounts
        dsimp only at hcounts
        rw [hs] at hcounts
        rw [seatTick_bidding hs, hcounts, if_pos rfl]
        refine ⟨holdTick_seat rfl, ?_⟩
        have hposted := (holdTick_steady (Steady.refl (bidTick s))).posted
        rw [hcounts] at hposted
        exact hposted
  case holding =>
    intro k s hs hk hp t playing
    have ht : t = takeHold .latch true (seatLost .standby .peerHolding (airCounted s)) := by
      unfold t
      rw [seatTick_holding hs, holdTick_behind ((lowerPeer_iff .holding s).2 ⟨k, hk, hp⟩)]
      exact setSeat_lost (s := airCounted s) .peerHolding hs nofun
    have hframe := holdFrame_take .latch true (seatLost .standby .peerHolding (airCounted s))
    have hposted := (takeHold_steady .latch true (Steady.refl (seatLost .standby .peerHolding (airCounted s)))).posted
    have hair : t.pu.airRun = (airCounted s).pu.airRun := by
      rw [ht, hframe.frame]
      rfl
    refine ⟨?_, ?_, ?_, fun hplay => ?_, fun hplay => ?_, ?_⟩
    · rw [ht]
      exact hframe.seat
    · rw [ht]
      exact hframe.latch
    · rw [ht]
      exact hposted
    · exact hair.trans (if_pos (anyPlaying_iff.2 hplay))
    · exact hair.trans (if_neg fun h => hplay (anyPlaying_iff.1 h))
    · rw [ht, hframe.frame]
      rfl
  case won =>
    intro s hs hb
    refine congrArg Host.Outcome.next ((holdSeat_wins hs hb).trans ((setSeat_won .bidWon (by rw [hs]; exact nofun)).trans ?_))
    rw [hs]
    rfl
  case yielded =>
    intro s hs hr hl hn hp
    refine congrArg Host.Outcome.next ((yieldSeat_yields hs hr hl).trans ?_)
    rw [setSeat_lost (s := { s with pu := { s.pu with yieldTimer := 0 } }) (new := .yielded) .silence hs nofun]
    exact takeHold_none (s := seatLost .yielded .silence { s with pu := { s.pu with yieldTimer := 0 } }) .latch true hp hn
  case yieldedPlaying =>
    intro p s hs hr hl hrole hp
    have hyield := (yieldSeat_yields hs hr hl).trans
      (setSeat_lost (s := { s with pu := { s.pu with yieldTimer := 0 } }) .silence hs (new := .yielded) nofun)
    have hframe := holdFrame_take .latch true (seatLost .yielded .silence { s with pu := { s.pu with yieldTimer := 0 } })
    obtain ⟨hplayer, henv⟩ := takeHold_playing (s := seatLost .yielded .silence { s with pu := { s.pu with yieldTimer := 0 } })
      .latch (airKept := true) hrole hp
    refine ⟨_, rfl, ?_⟩
    rw [hyield, hplayer, henv]
    refine ⟨?_, hframe.seat, hframe.latch, ?_, rfl, rfl, rfl, rfl, rfl⟩
    · rw [hframe.frame]
      rfl
    · rw [hframe.frame]
      rfl
  case rested =>
    intro s hs ht
    refine congrArg Host.Outcome.next ((if_pos ⟨hs, ht⟩).trans ?_)
    have hstandby : s.pu.seat ≠ .standby := by rw [hs]; exact nofun
    have hno : s.pu.seat ≠ .holding := by rw [hs]; exact nofun
    rw [setSeat_apart .yieldOver hstandby hno nofun, hs]
    rfl
  case yieldTick =>
    intro s hs n
    have hbump (hn : n ≤ 4096) : bump 4096 s.pu.yieldTimer = n := Nat.min_eq_right hn
    refine ⟨fun hn => ?_, fun hn => ?_⟩
    · have hleft : endYield { s with pu := { s.pu with yieldTimer := n } } = { s with pu := { s.pu with yieldTimer := n } } :=
        if_neg fun h => Nat.not_le.2 hn h.2
      refine ⟨?_, congrArg Host.Outcome.next hleft⟩
      rw [seatTick_yielded hs, hbump (Nat.le_of_lt hn)]
      exact hleft
    · rw [seatTick_yielded hs, hbump (Nat.le_of_eq hn)]
      refine (if_pos ⟨hs, Nat.le_of_eq hn.symm⟩).trans ?_
      have hstandby : s.pu.seat ≠ .standby := by rw [hs]; exact nofun
      have hno : s.pu.seat ≠ .holding := by rw [hs]; exact nofun
      rw [setSeat_apart (s := { s with pu := { s.pu with yieldTimer := n } }) (new := .standby) .yieldOver hstandby hno nofun]
      dsimp only
      rw [hs]
      rfl
  case seatReset =>
    intro m s h hp
    exact ⟨fun hs => hostRow_act h (seatReset_yielded hp hs), fun hs => hostRow_act h (seatReset_other hp hs)⟩

end Sys2Proof.Machine
end

section
/-! SUPPORT. The commands on a node's own caller lines (R109, R113, R186), and the settling of O40. -/

namespace Sys2Proof.Machine

/-! ## The line of a command (R109, R113) -/

section
variable {w : Word} {l : Fin 3} {s : State} {act : Fin 3 → State × Reply}

theorem ownLine_notRole (h : s.settings.roles.caller = false) : ownLine w s act = refuse .notRole s :=
  if_pos (by simp [h])

theorem ownLine_outside (h : s.settings.roles.caller = true) (hw : w.toNat = 0 ∨ 3 < w.toNat) :
    ownLine w s act = refuse .badParam s := by
  rw [ownLine, if_neg (by simp [h])]
  by_cases h0 : w.toNat = 0
  · exact if_pos h0
  · rw [if_neg h0, index?_eq_none.2 (by omega)]

theorem ownLine_line (h : s.settings.roles.caller = true) (hw : w.toNat = l.val + 1) : ownLine w s act = act l := by
  rw [ownLine, if_neg (by simp [h]), if_neg (by omega), index?_eq_some.2 (by omega : l.val = w.toNat - 1)]

end

/-! ## A request for a pool voice (R186) -/

theorem requestVoice_granted {v : Fin 4} {s : State} (h : Holder) (hw : s.tg.waitList = [])
    (hv : freePoolVoice s = some v) : requestVoice h s = grantVoice v h s := by
  rw [requestVoice, hw, hv]

theorem requestVoice_waits {s : State} (h : Holder) (hw : s.tg.waitList ≠ [] ∨ freePoolVoice s = none) :
    requestVoice h s = { s with tg := { s.tg with waitList := s.tg.waitList ++ [h] } } := by
  unfold requestVoice
  split
  case h_1 hnil hsome =>
    rcases hw with hw | hw
    · exact absurd hnil hw
    · rw [hw] at hsome
      exact nomatch hsome
  case h_2 => rfl

theorem lineAt_setLine_ne {l j : Fin 3} (x : CallLine) (s : State) (h : j ≠ l) : lineAt (setLine l x s) j = lineAt s j :=
  Tab.at_put_ne _ _ h

/-! ## ANSWER LINE (R109) -/

/-- The state in which an answered line has begun its check, before it asks for a voice (R109, R110). -/
def checkBegun (l : Fin 3) (u : State) : State :=
  setCallerSource l { Tab.at u.me.caller l with previous := 0 }
    (setLine l { lineAt u l with
      loopAbsent := 0, checkCount := 0, checkPeak := 0, poorHybrid := false, voice := .waiting } u)

theorem answerLine_ringing {w : Word} {l : Fin 3} {s : State} (h : s.settings.roles.caller = true) (hw : w.toNat = l.val + 1)
    (hs : (lineAt s l).state = .ringing) : answerLineCommand w s
      = (requestVoice (.line l) (checkBegun l (moveLine l .checking .lineState .host [] s)), .only .ok) := by
  rw [answerLineCommand, ownLine_line h hw, if_neg (not_not_intro hs)]
  rfl

theorem answerLine_other {w : Word} {l : Fin 3} {s : State} (h : s.settings.roles.caller = true) (hw : w.toNat = l.val + 1)
    (hs : (lineAt s l).state ≠ .ringing) : answerLineCommand w s = refuse .wrongState s := by
  rw [answerLineCommand, ownLine_line h hw]
  exact if_pos hs

/-- What the request for the voice of a check does (R110, R186). -/
structure CheckAsks (l : Fin 3) (u t : State) : Prop where
  frame : t = { u with
    ku := { u.ku with lines := t.ku.lines }
    me := { u.me with caller := u.me.caller.put l { Tab.at u.me.caller l with previous := 0 } }
    tg := { u.tg with voices := t.tg.voices, waitList := t.tg.waitList } }
  line : lineAt t l = { lineAt u l with
    loopAbsent := 0, checkCount := 0, checkPeak := 0, poorHybrid := false, voice := (lineAt t l).voice }
  others : ∀ j, j ≠ l → lineAt t j = lineAt u j
  granted : ∀ v, u.tg.waitList = [] → freePoolVoice u = some v → (lineAt t l).voice = .held v
    ∧ Tab.at t.tg.voices v = grantedVoice (.line l) false u.settings.checkFrequency 20 u.settings.checkLevel
    ∧ t.tg.waitList = []
  waits : u.tg.waitList ≠ [] ∨ freePoolVoice u = none → (lineAt t l).voice = .waiting
    ∧ t.tg.voices = u.tg.voices ∧ t.tg.waitList = u.tg.waitList ++ [.line l]

theorem checkAsks (l : Fin 3) (u : State) : CheckAsks l u (requestVoice (.line l) (checkBegun l u)) := by
  by_cases h : u.tg.waitList ≠ [] ∨ freePoolVoice u = none
  case pos =>
    rw [requestVoice_waits (s := checkBegun l u) (.line l) h]
    have hline := lineAt_setLine l { lineAt u l with
      loopAbsent := 0, checkCount := 0, checkPeak := 0, poorHybrid := false, voice := .waiting } u
    refine ⟨rfl, ?_, fun j hj => lineAt_setLine_ne _ u hj, fun v hw hv => ?_, fun _ => ⟨congrArg CallLine.voice hline, rfl, rfl⟩⟩
    · exact hline.trans (congrArg (fun v => { lineAt u l with
        loopAbsent := 0, checkCount := 0, checkPeak := 0, poorHybrid := false, voice := v })
          (congrArg CallLine.voice hline).symm)
    · rcases h with h | h
      · exact absurd hw h
      · rw [h] at hv
        exact nomatch hv
  case neg =>
    obtain ⟨hw, hv⟩ := not_or.1 h
    have hw := not_not.1 hw
    obtain ⟨v, hv⟩ := Option.ne_none_iff_exists'.1 hv
    rw [requestVoice_granted (s := checkBegun l u) (.line l) hw hv]
    have hline : lineAt (grantVoice v (.line l) (checkBegun l u)) l = { lineAt u l with
        loopAbsent := 0, checkCount := 0, checkPeak := 0, poorHybrid := false, voice := .held v } := by
      refine (Tab.at_put _ l l _).trans ((if_pos rfl).trans ?_)
      exact congrArg (fun x : CallLine => { x with voice := .held v }) (lineAt_setLine l _ u)
    have hvoice : (lineAt (grantVoice v (.line l) (checkBegun l u)) l).voice = .held v := congrArg CallLine.voice hline
    refine ⟨rfl, ?_, fun j hj => (Tab.at_put_ne _ _ hj).trans (lineAt_setLine_ne _ u hj), fun v' _ hv' => ?_, fun hn => absurd hn h⟩
    · rw [hvoice]
      exact hline
    · obtain rfl : v = v' := Option.some.inj (hv.symm.trans hv')
      exact ⟨hvoice, (Tab.at_put _ v v _).trans (if_pos rfl), hw⟩

/-! ## SCREEN LINE, HOLD LINE and READY LINE (R113) -/

section
variable {w : Word} {l : Fin 3} {target : CallState} {s : State}

theorem screeningMove_line (h : s.settings.roles.caller = true) (hw : w.toNat = l.val + 1) : screeningMove target w s
    = if (lineAt s l).state = target then (s, .okWith [word target.ctorIdx])
      else if (lineAt s l).state = .screening ∨ (lineAt s l).state = .holding ∨ (lineAt s l).state = .ready then
        (moveLine l target .lineState .host [] s, .okWith [word target.ctorIdx])
      else refuse .wrongState s := by
  rw [screeningMove, ownLine_line h hw]

theorem screeningMove_stays (h : s.settings.roles.caller = true) (hw : w.toNat = l.val + 1) (hs : (lineAt s l).state = target) :
    screeningMove target w s = (s, .okWith [word target.ctorIdx]) := (screeningMove_line h hw).trans (if_pos hs)

theorem mem_screening {x : CallState} :
    x ∈ [CallState.screening, .holding, .ready] ↔ x = .screening ∨ x = .holding ∨ x = .ready := by simp

theorem screeningMove_moves (h : s.settings.roles.caller = true) (hw : w.toNat = l.val + 1)
    (hs : (lineAt s l).state ≠ target) (hm : (lineAt s l).state ∈ [CallState.screening, .holding, .ready]) :
    screeningMove target w s = (moveLine l target .lineState .host [] s, .okWith [word target.ctorIdx]) := by
  rw [screeningMove_line h hw, if_neg hs, if_pos (mem_screening.1 hm)]

theorem screeningMove_refused (h : s.settings.roles.caller = true) (hw : w.toNat = l.val + 1)
    (ht : target ∈ [CallState.screening, .holding, .ready])
    (hm : (lineAt s l).state ∉ [CallState.screening, .holding, .ready]) : screeningMove target w s = refuse .wrongState s := by
  rw [screeningMove_line h hw, if_neg (fun hs : (lineAt s l).state = target => hm (hs ▸ ht)),
    if_neg (fun hs => hm (mem_screening.2 hs))]

end

/-- The screening commands of R113 with the state that each names. -/
theorem exec_screening {w : Word} {i : Instr} {target : CallState} {m : CommandMessage} {s t : State} {r : Reply}
    (hi : (i, target) ∈ [(Instr.screenLine w, CallState.screening), (.holdLine w, .holding), (.readyLine w, .ready)])
    (h : Running s i m) (hact : screeningMove target w s = (t, r)) : exec i s = .next (answer m r.code r.data t) := by
  simp only [List.mem_cons, Prod.mk.injEq, List.not_mem_nil, or_false] at hi
  rcases hi with ⟨rfl, rfl⟩ | ⟨rfl, rfl⟩ | ⟨rfl, rfl⟩
  · exact hostRow_act h hact
  · exact hostRow_act h hact
  · exact hostRow_act h hact

theorem screening_target {w : Word} {i : Instr} {target : CallState}
    (hi : (i, target) ∈ [(Instr.screenLine w, CallState.screening), (.holdLine w, .holding), (.readyLine w, .ready)]) :
    target ∈ [CallState.screening, .holding, .ready] := by
  simp only [List.mem_cons, Prod.mk.injEq, List.not_mem_nil, or_false] at hi
  rcases hi with ⟨-, rfl⟩ | ⟨-, rfl⟩ | ⟨-, rfl⟩ <;> simp

/-- Settles O40, each command by the line's state. -/
theorem lineCommandsMoveLine : Obligations.LineCommandsMoveLine := by
  refine ⟨?answer, ?screening, ?refused⟩
  case answer =>
    intro w l m s h hc hw
    refine ⟨fun hs => ?_, fun hs => hostRow_act h (answerLine_other hc hw hs)⟩
    have hmoved := lineMoved l .checking .lineState .host [] s
    have hasks := checkAsks l (moveLine l .checking .lineState .host [] s)
    have hquiet : (lineAt s l).state ≠ .checking := by rw [hs]; exact nofun
    obtain ⟨htg, hothers⟩ := hmoved.tones hquiet
    have hset : (moveLine l .checking .lineState .host [] s).settings = s.settings := by rw [hmoved.frame]
    have hfree : freePoolVoice (moveLine l .checking .lineState .host [] s) = freePoolVoice s :=
      congrArg (fun g : Tones => poolVoices.find? fun v => (Tab.at g.voices v).holder == none) htg
    obtain ⟨hframe, hline, hleft, hgranted, hwaits⟩ := hasks
    rw [htg, hfree, hset] at hgranted
    rw [htg, hfree] at hwaits
    exact ⟨_, _, hostRow_act h (answerLine_ringing hc hw hs), hmoved, hline, hframe,
      fun j hj => (hleft j hj).trans (hothers j hj), hgranted, hwaits⟩
  case screening =>
    intro w l i target m s hi h hc hw
    exact ⟨fun hs => exec_screening hi h (screeningMove_stays hc hw hs),
      fun hs hm => ⟨_, exec_screening hi h (screeningMove_moves hc hw hs hm), lineMoved l target .lineState .host [] s⟩,
      fun hm => exec_screening hi h (screeningMove_refused hc hw (screening_target hi) hm)⟩
  case refused =>
    intro w i m s hi h
    simp only [List.mem_cons, List.not_mem_nil, or_false] at hi
    rcases hi with rfl | rfl | rfl | rfl
    · exact ⟨fun hc => hostRow_act (act := answerLineCommand w) h (ownLine_notRole hc),
        fun hc hw => hostRow_act (act := answerLineCommand w) h (ownLine_outside hc hw)⟩
    · exact ⟨fun hc => hostRow_act (act := screeningMove .screening w) h (ownLine_notRole hc),
        fun hc hw => hostRow_act (act := screeningMove .screening w) h (ownLine_outside hc hw)⟩
    · exact ⟨fun hc => hostRow_act (act := screeningMove .holding w) h (ownLine_notRole hc),
        fun hc hw => hostRow_act (act := screeningMove .holding w) h (ownLine_outside hc hw)⟩
    · exact ⟨fun hc => hostRow_act (act := screeningMove .ready w) h (ownLine_notRole hc),
        fun hc hw => hostRow_act (act := screeningMove .ready w) h (ownLine_outside hc hw)⟩

end Sys2Proof.Machine
end

section
/-! SUPPORT. The caller commands on own lines and their refusals (R115, R116, R121, R127), and the settling of O41. -/

namespace Sys2Proof.Machine

/-! ## Acts on an own line (R115, R116) -/

section
variable {l : Fin 3} {c : LineCause} {s : State}

theorem actTake_accepted (hs : (lineAt s l).state = .ready) (hn : s.ku.onAir < s.settings.maxOnAir) :
    actTake l c s = (moveLine l .onAir .lineState c [] s, .accepted) := by
  rw [actTake, if_neg (not_not_intro hs), if_neg (Nat.not_le.2 hn)]

theorem actTake_limit (hs : (lineAt s l).state = .ready) (hn : s.settings.maxOnAir ≤ s.ku.onAir) :
    actTake l c s = (s, .refusedLimit) := by rw [actTake, if_neg (not_not_intro hs), if_pos hn]

theorem actTake_state (hs : (lineAt s l).state ≠ .ready) : actTake l c s = (s, .refusedState) := if_pos hs

theorem actDrop_accepted (hs : (lineAt s l).state = .onAir) :
    actDrop l c s = (moveLine l .holding .lineState c [] s, .accepted) := if_neg (not_not_intro hs)

theorem actDrop_state (hs : (lineAt s l).state ≠ .onAir) : actDrop l c s = (s, .refusedState) := if_pos hs

theorem seized_iff {x : CallState} :
    seized x = true ↔ x ∈ [CallState.checking, .screening, .holding, .ready, .onAir] := by
  cases x <;> simp [seized]

theorem actHangUp_accepted (hs : (lineAt s l).state ∈ [CallState.checking, .screening, .holding, .ready, .onAir]) :
    actHangUp l c s = (moveLine l .clearing .lineState c [] s, .accepted) := if_pos (seized_iff.2 hs)

theorem actHangUp_state (hs : (lineAt s l).state ∉ [CallState.checking, .screening, .holding, .ready, .onAir]) :
    actHangUp l c s = (s, .refusedState) := if_neg fun h => hs (seized_iff.1 h)

end

/-! ## The target of a caller command (R121) -/

section
variable {v : Verb} {l : Fin 3} {s : State}

theorem actOrAsk_moved {new : CallState} (h : actOn v l .host s = (moveLine l new .lineState .host [] s, .accepted)) :
    actOrAsk v s.settings.nodeId l s = (moveLine l new .lineState .host [] s, .okWith [word new.ctorIdx]) := by
  rw [actOrAsk, if_pos rfl, h]
  dsimp only
  rw [if_pos rfl, moveLine_state]

theorem actOrAsk_refused {a : Answer} (h : actOn v l .host s = (s, a)) (ha : a ≠ .accepted) :
    actOrAsk v s.settings.nodeId l s = refuse (answerCode a) s := by
  rw [actOrAsk, if_pos rfl, h]
  exact if_neg ha

variable {node line : Word}

theorem callerCommand_target {k : Fin 8} (hc : s.settings.roles.caller = true) (hl : line.toNat = l.val + 1)
    (hk : node.toNat = k.val) : callerCommand v node line s = actOrAsk v k l s := by
  rw [callerCommand, ownLine_line hc hl, hk, index?_val]

theorem takeNext_target {e : AirEntry} (hc : s.settings.roles.caller = true) (he : s.ku.airQueue.head? = some e) :
    takeNextCommand s = actOrAsk .take e.node e.line s := by
  obtain ⟨rest, hq⟩ := List.head?_eq_some_iff.1 he
  rw [takeNextCommand, if_neg (by simp [hc]), hq]

theorem callerCommand_outside (hc : s.settings.roles.caller = true) (h : 7 < node.toNat ∨ line.toNat = 0 ∨ 3 < line.toNat) :
    callerCommand v node line s = refuse .badParam s := by
  by_cases hl : line.toNat = 0 ∨ 3 < line.toNat
  · exact ownLine_outside hc hl
  · obtain ⟨h0, h3⟩ := not_or.1 hl
    have hnode : 8 ≤ node.toNat := h.resolve_right hl
    have hline : line.toNat = (⟨line.toNat - 1, by omega⟩ : Fin 3).val + 1 := by
      dsimp only
      omega
    rw [callerCommand, ownLine_line hc hline, index?_eq_none.2 hnode]

theorem takeNext_notRole (hc : s.settings.roles.caller = false) : takeNextCommand s = refuse .notRole s :=
  if_pos (by simp [hc])

theorem takeNext_empty (hc : s.settings.roles.caller = true) (hq : s.ku.airQueue = []) :
    takeNextCommand s = refuse .noSuch s := by rw [takeNextCommand, if_neg (by simp [hc]), hq]

end

/-! ## REMOTE OUTPUT (R127, R163) -/

section
variable {output level : Word} {s : State}

theorem outputOf_outside {n : Nat} (h : n = 0 ∨ 4 < n) : outputOf n = none := by
  unfold outputOf
  split
  · rfl
  · exact index?_eq_none.2 (by omega)

theorem outputOf_inside {n : Nat} (h1 : 1 ≤ n) (h4 : n ≤ 4) : outputOf n = some ⟨n - 1, by omega⟩ := by
  rw [outputOf, if_neg (by omega)]
  exact slot_index (by omega)

theorem remoteOutput_notRole (h : atSite s = true) : remoteOutputCommand output level s = refuse .notRole s := if_pos h

theorem remoteOutput_outside (hs : s.settings.roles.site = false) (h : output.toNat = 0 ∨ 4 < output.toNat) :
    remoteOutputCommand output level s = refuse .badParam s := by
  rw [remoteOutputCommand, if_neg (Bool.eq_false_iff.1 (atSite_studio hs))]
  split
  · rw [outputOf_outside h]
  · rw [askRemoteOutput, outputOf_outside h]

theorem remoteOutput_asks (hs : s.settings.roles.site = false) (hl : s.settings.roles.link = false) :
    remoteOutputCommand output level s = askRemoteOutput output level s := by
  rw [remoteOutputCommand, if_neg (Bool.eq_false_iff.1 (atSite_studio hs)), if_neg (by simp [hl])]

theorem askRemoteOutput_none (h1 : 1 ≤ output.toNat) (h4 : output.toNat ≤ 4) (hk : linkPeer s = none) :
    askRemoteOutput output level s = refuse .noSuch s := by
  rw [askRemoteOutput, outputOf_inside h1 h4]
  dsimp only
  rw [hk]

theorem askRemoteOutput_some {k : Fin 8} (h1 : 1 ≤ output.toNat) (h4 : output.toNat ≤ 4) (hk : linkPeer s = some k) :
    askRemoteOutput output level s = makeRequest .setRemoteOutput k output.toNat level.toNat s := by
  rw [askRemoteOutput, outputOf_inside h1 h4]
  dsimp only
  rw [hk]

theorem linkPeer_none (h : ∀ k, (Tab.at s.peers k).state = .present → (Tab.at s.peers k).roles.link = false) :
    linkPeer s = none := by
  refine List.find?_eq_none.2 fun k _ hk => ?_
  obtain ⟨hp, hl⟩ := Bool.and_eq_true_iff.1 hk
  exact Bool.eq_false_iff.1 (h k (beq_iff_eq.1 hp)) hl

end

/-- Settles O41, each act by the line's state, the refusals in their order. -/
theorem callerCommandsOnOwnAndOnRefusal : Obligations.CallerCommandsOnOwnAndOnRefusal := by
  refine ⟨?own, ?refused⟩
  case own =>
    intro node line l m s hc hnode hline
    have own {v : Verb} {r : State × Reply} (h : actOrAsk v s.settings.nodeId l s = r) : callerCommand v node line s = r :=
      (callerCommand_target hc hline hnode).trans h
    refine ⟨fun i hi h => ?_, fun h => ⟨fun hs => ⟨_, hostRow_act h (own (actOrAsk_moved (v := .drop) (actDrop_accepted hs))),
        lineMoved l .holding .lineState .host [] s⟩,
      fun hs => hostRow_act h (own (actOrAsk_refused (v := .drop) (actDrop_state hs) nofun))⟩,
      fun h => ⟨fun hs => ⟨_, hostRow_act h (own (actOrAsk_moved (v := .hangUp) (actHangUp_accepted hs))),
        lineMoved l .clearing .lineState .host [] s⟩,
      fun hs => hostRow_act h (own (actOrAsk_refused (v := .hangUp) (actHangUp_state hs) nofun))⟩⟩
    · have hexec {t : State} {r : Reply} (hact : actOrAsk .take s.settings.nodeId l s = (t, r)) :
          exec i s = .next (answer m r.code r.data t) := by
        rcases hi with rfl | ⟨rfl, e, he, hn, rfl⟩
        · exact hostRow_act h (own hact)
        · rw [← hn] at hact
          exact hostRow_act h ((takeNext_target hc he).trans hact)
      refine ⟨fun hs hn => ⟨_, hexec (actOrAsk_moved (actTake_accepted hs hn)), lineMoved l .onAir .lineState .host [] s⟩,
        fun hs hn => hexec (actOrAsk_refused (actTake_limit hs hn) nofun),
        fun hs => hexec (actOrAsk_refused (actTake_state hs) nofun)⟩
  case refused =>
    intro node line output level m s
    refine ⟨fun i hi h => ?_, fun h => ⟨fun hc => hostRow_act h (takeNext_notRole hc),
        fun hc hq => hostRow_act h (takeNext_empty hc hq)⟩,
      fun h => ⟨fun hs => hostRow_act h (remoteOutput_notRole ((atSite_iff h.running).trans hs)),
        fun hs ho => hostRow_act h (remoteOutput_outside hs ho), fun hs hl h1 h4 hk => hostRow_act h
        ((remoteOutput_asks hs hl).trans (askRemoteOutput_none h1 h4 (linkPeer_none hk)))⟩⟩
    · simp only [List.mem_cons, List.not_mem_nil, or_false] at hi
      rcases hi with rfl | rfl | rfl
      · exact ⟨fun hc => hostRow_act (act := callerCommand .take node line) h (ownLine_notRole hc),
          fun hc ho => hostRow_act h (callerCommand_outside hc ho)⟩
      · exact ⟨fun hc => hostRow_act (act := callerCommand .drop node line) h (ownLine_notRole hc),
          fun hc ho => hostRow_act h (callerCommand_outside hc ho)⟩
      · exact ⟨fun hc => hostRow_act (act := callerCommand .hangUp node line) h (ownLine_notRole hc),
          fun hc ho => hostRow_act h (callerCommand_outside hc ho)⟩

end Sys2Proof.Machine
end

section
/-! SUPPORT. Requests made to a peer (R121, R122, R127), and the settling of O42. -/

namespace Sys2Proof.Machine

/-! ## The next request tag (R122) -/

theorem tagAfter_toNat {t : Half} (h : t ≠ 0) : (tagAfter t).toNat = t.toNat % 65535 + 1 := by
  have hlt := t.isLt
  have hpos : t.toNat ≠ 0 := fun h0 => h (BitVec.eq_of_toNat_eq h0)
  unfold tagAfter
  split
  case isTrue heq =>
    rw [heq]
    rfl
  case isFalse hne =>
    have htop : t.toNat ≠ 65535 := fun htop => hne (BitVec.eq_of_toNat_eq htop)
    have hone : (1 : Half).toNat = 1 := rfl
    rw [BitVec.toNat_add, hone]
    omega

theorem tagAfter_ne_zero (t : Half) : tagAfter t ≠ 0 := by
  by_cases h : t = 0
  · rw [h]
    decide
  · intro h0
    have hn := tagAfter_toNat h
    rw [h0] at hn
    exact Nat.succ_ne_zero _ hn.symm

theorem tagAfter_ne (t : Half) : tagAfter t ≠ t := by
  by_cases h : t = 0
  · rw [h]
    decide
  · intro heq
    have hn := tagAfter_toNat h
    have hlt := t.isLt
    rw [heq] at hn
    omega

/-- The tags that follow one run through all 65,535 before one comes again. -/
theorem tagAfter_iterate {t : Half} (h : t ≠ 0) (k : Nat) : (tagAfter^[k] t).toNat = (t.toNat - 1 + k) % 65535 + 1 := by
  have hlt := t.isLt
  have hpos : t.toNat ≠ 0 := fun h0 => h (BitVec.eq_of_toNat_eq h0)
  induction k with
  | zero =>
    show t.toNat = _
    omega
  | succ k ih =>
    have hne : tagAfter^[k] t ≠ 0 := fun h0 => by
      rw [h0] at ih
      exact Nat.succ_ne_zero _ ih.symm
    rw [Function.iterate_succ_apply', tagAfter_toNat hne, ih]
    omega

theorem nextTag_ne_zero (n : Nat) (held : List Half) (t : Half) : nextTag n held t ≠ 0 := by
  induction n generalizing t with
  | zero => exact tagAfter_ne_zero t
  | succ n ih =>
    rw [nextTag]
    split
    · exact ih _
    · exact tagAfter_ne_zero t

/-- Where the tag found is held, so is every one that was tried before it. -/
theorem nextTag_held {n : Nat} {held : List Half} {t : Half} (h : nextTag n held t ∈ held) :
    ∀ k ≤ n, tagAfter^[k] (tagAfter t) ∈ held := by
  induction n generalizing t with
  | zero =>
    intro k hk
    rw [Nat.le_zero.1 hk]
    exact h
  | succ n ih =>
    rw [nextTag] at h
    by_cases hc : held.contains (tagAfter t) = true
    · rw [if_pos hc] at h
      intro k hk
      match k with
      | 0 => exact List.contains_iff_mem.1 hc
      | k + 1 => exact ih h k (by omega)
    · rw [if_neg hc] at h
      exact absurd (List.contains_iff_mem.2 h) hc

/-- Ten tags in a row are ten different ones, so a list of fewer leaves one. -/
theorem nextTag_free {held : List Half} (t : Half) (h : held.length < 10) : nextTag 9 held t ∉ held := by
  intro hm
  have hall := nextTag_held hm
  have hnodup : ((List.range 10).map fun k => tagAfter^[k] (tagAfter t)).Nodup := by
    refine List.Nodup.map_on (fun j hj k hk heq => ?_) List.nodup_range
    have hj := List.mem_range.1 hj
    have hk := List.mem_range.1 hk
    have hn := congrArg BitVec.toNat heq
    rw [tagAfter_iterate (tagAfter_ne_zero t), tagAfter_iterate (tagAfter_ne_zero t)] at hn
    omega
  have hsub : (List.range 10).map (fun k => tagAfter^[k] (tagAfter t)) ⊆ held := fun x hx => by
    obtain ⟨k, hk, rfl⟩ := List.mem_map.1 hx
    exact hall k (Nat.lt_succ_iff.1 (List.mem_range.1 hk))
  have hlen := (List.subperm_of_subset hnodup hsub).length_le
  rw [List.length_map, List.length_range] at hlen
  omega

theorem nextTag_first {n : Nat} {held : List Half} {t : Half} (h : tagAfter t ∉ held) : nextTag (n + 1) held t = tagAfter t := by
  rw [nextTag]
  exact if_neg fun hc => h (List.contains_iff_mem.1 hc)

/-! ## A request made (R122) -/

section
variable {v : Verb} {k : Fin 8} {item arg : Nat} {s : State}

theorem makeRequest_apart (h : s.lu.state ≠ .joined) : makeRequest v k item arg s = refuse .wrongState s := by
  have hj : joined s = false := Bool.eq_false_iff.2 fun hj => h (joined_iff.1 hj)
  exact if_pos (by rw [hj]; rfl)

theorem makeRequest_full (h : s.lu.state = .joined) (hf : 8 ≤ s.ku.requests.length) :
    makeRequest v k item arg s = refuse .full s := by
  rw [makeRequest, if_neg (by rw [joined_iff.2 h]; exact nofun), if_pos hf]

/-- The tag counter's next value. -/
def nextRequestTag (s : State) : Half := nextTag 9 (s.ku.tagCounter :: s.ku.requests.map Request.tag) s.ku.tagCounter

theorem makeRequest_made (h : s.lu.state = .joined) (hf : s.ku.requests.length < 8) (hr : s.tx.control.length < 8) :
    makeRequest v k item arg s = ({ s with
      ku := { s.ku with
        requests := s.ku.requests ++ [⟨s.ku.tagCounter, v, k, item, arg, .queued, 0⟩], tagCounter := nextRequestTag s }
      tx := { s.tx with
        control := insertControl ⟨s.tx.frameSeq, .request ⟨v, s.ku.tagCounter, k, item, arg⟩, 0⟩ s.tx.control
        frameSeq := s.tx.frameSeq + 1 } }, ⟨.pending, [word s.ku.tagCounter.toNat]⟩) := by
  rw [makeRequest, if_neg (by rw [joined_iff.2 h]; exact nofun), if_neg (Nat.not_le.2 hf)]
  dsimp only
  rw [handControl_room (by exact hr)]
  rfl

theorem nextRequestTag_ne_zero (s : State) : nextRequestTag s ≠ 0 := nextTag_ne_zero _ _ _

theorem nextRequestTag_free (h : s.ku.requests.length < 8) :
    nextRequestTag s ≠ s.ku.tagCounter ∧ ∀ r ∈ s.ku.requests, r.tag ≠ nextRequestTag s := by
  have hfree : nextRequestTag s ∉ s.ku.tagCounter :: s.ku.requests.map Request.tag :=
    nextTag_free s.ku.tagCounter (by rw [List.length_cons, List.length_map]; omega)
  refine ⟨fun heq => hfree (heq ▸ List.mem_cons_self), fun r hr heq => hfree ?_⟩
  exact List.mem_cons_of_mem _ (List.mem_map.2 ⟨r, hr, heq⟩)

theorem nextRequestTag_first (h : ∀ r ∈ s.ku.requests, r.tag ≠ tagAfter s.ku.tagCounter) :
    nextRequestTag s = tagAfter s.ku.tagCounter := by
  refine nextTag_first fun hm => ?_
  rcases List.mem_cons.1 hm with heq | hm
  · exact tagAfter_ne _ heq
  · obtain ⟨r, hr, heq⟩ := List.mem_map.1 hm
    exact h r hr heq

/-! ## The peer of a request (R121, R127) -/

theorem actOrAsk_peer {l : Fin 3} (hk : k ≠ s.settings.nodeId) (hp : (Tab.at s.peers k).state = .present) :
    actOrAsk v k l s = makeRequest v k (l.val + 1) 0 s := by
  rw [actOrAsk, if_neg hk]
  exact if_pos (beq_iff_eq.2 hp)

theorem actOrAsk_absent {l : Fin 3} (hk : k ≠ s.settings.nodeId) (hp : (Tab.at s.peers k).state ≠ .present) :
    actOrAsk v k l s = refuse .noSuch s := by
  rw [actOrAsk, if_neg hk]
  exact if_neg fun h => hp (beq_iff_eq.1 h)

theorem find?_finRange {n : Nat} {p : Fin n → Bool} {k : Fin n} (hk : p k = true) (hlow : ∀ j, j < k → p j = false) :
    (List.finRange n).find? p = some k := by
  refine List.find?_eq_some_iff_getElem.2 ⟨hk, k.val, by simp, by simp, fun j hj => ?_⟩
  rw [List.getElem_finRange]
  exact congrArg (!·) (hlow _ hj)

theorem linkPeer_lowest (hp : (Tab.at s.peers k).state = .present) (hl : (Tab.at s.peers k).roles.link = true)
    (hlow : ∀ j, j < k → (Tab.at s.peers j).state = .present → (Tab.at s.peers j).roles.link = false) :
    linkPeer s = some k := by
  refine find?_finRange (Bool.and_eq_true_iff.2 ⟨beq_iff_eq.2 hp, hl⟩) fun j hj => ?_
  refine Bool.eq_false_iff.2 fun h => ?_
  obtain ⟨hjp, hjl⟩ := Bool.and_eq_true_iff.1 h
  exact Bool.eq_false_iff.1 (hlow j hj (beq_iff_eq.1 hjp)) hjl

end

/-- A command that names a line of another node, or its first line by TAKE NEXT. -/
structure NamesPeerLine (node line : Word) (i : Instr) (v : Verb) (k : Fin 8) (item : Nat) (s : State) : Prop where
  caller : s.settings.roles.caller = true
  other : k ≠ s.settings.nodeId
  low : 1 ≤ item
  high : item ≤ 3
  named : (node.toNat = k.val ∧ line.toNat = item
      ∧ (i, v) ∈ [(Instr.takeCaller node line, Verb.take), (.dropCaller node line, .drop), (.hangUpCaller node line, .hangUp)])
    ∨ (i = .takeNext ∧ v = .take ∧ ∃ e, s.ku.airQueue.head? = some e ∧ e.node = k ∧ e.line.val + 1 = item)

theorem exec_peerLine {node line : Word} {i : Instr} {v : Verb} {k : Fin 8} {item : Nat} {m : CommandMessage} {s t : State}
    {r : Reply} (h : Running s i m) (hn : NamesPeerLine node line i v k item s)
    (hact : ∀ l : Fin 3, l.val + 1 = item → actOrAsk v k l s = (t, r)) : exec i s = .next (answer m r.code r.data t) := by
  obtain ⟨hc, -, h1, h3, ⟨hk, hl, hi⟩ | ⟨rfl, rfl, e, he, rfl, hl⟩⟩ := hn
  · have hitem : line.toNat = (⟨item - 1, by omega⟩ : Fin 3).val + 1 := by
      dsimp only
      omega
    have htarget := (callerCommand_target (v := v) hc hitem hk).trans (hact _ (by dsimp only; omega))
    simp only [List.mem_cons, Prod.mk.injEq, List.not_mem_nil, or_false] at hi
    rcases hi with ⟨rfl, rfl⟩ | ⟨rfl, rfl⟩ | ⟨rfl, rfl⟩
    · exact hostRow_act h htarget
    · exact hostRow_act h htarget
    · exact hostRow_act h htarget
  · exact hostRow_act h ((takeNext_target hc he).trans (hact e.line hl))

/-- Settles O42: a PRESENT peer is asked by `makeRequest`, whichever command names it. -/
theorem peerCommandBecomesRequest : Obligations.PeerCommandBecomesRequest := by
  intro node line output level i v k item arg m s h hs hcommand tag
  have hasks : (Tab.at s.peers k).state = .present → ∀ t r, makeRequest v k item arg s = (t, r) →
      exec i s = .next (answer m r.code r.data t) := by
    intro hp t r hmake
    rcases hcommand with ⟨hc, hk, rfl, h1, h3, hnamed⟩ | ⟨hl, rfl, rfl, rfl, h1, h4, rfl, hlink, hlow⟩
    · refine exec_peerLine h ⟨hc, hk, h1, h3, hnamed⟩ fun l hl => ?_
      rw [actOrAsk_peer hk hp, hl]
      exact hmake
    · exact hostRow_act h ((remoteOutput_asks hs hl).trans
        ((askRemoteOutput_some h1 h4 (linkPeer_lowest hp hlink hlow)).trans hmake))
  refine ⟨fun hp => ⟨fun hj => hasks hp _ _ (makeRequest_apart hj), fun hj hf => hasks hp _ _ (makeRequest_full hj hf),
    fun hj hf hr => ?_⟩, fun hp hi => ?_⟩
  · obtain ⟨hother, hfree⟩ := nextRequestTag_free hf
    exact ⟨nextRequestTag s, hasks hp _ _ (makeRequest_made hj hf hr), nextRequestTag_ne_zero s, hother, hfree,
      nextRequestTag_first⟩
  · rcases hcommand with ⟨hc, hk, -, h1, h3, hnamed⟩ | ⟨-, hremote, -⟩
    · exact exec_peerLine h ⟨hc, hk, h1, h3, hnamed⟩ fun l _ => actOrAsk_absent hk hp
    · exact absurd hremote hi

end Sys2Proof.Machine
end

section
/-! SUPPORT. A line's own events (R107, R108, R111, R112, R116, R178), and the settling of O43. -/

namespace Sys2Proof.Machine

/-! ## Rows of a CALLER node -/

section
variable {f : State → State} {s : State}

theorem onLine_running (hr : s.cp.device = .running) (hs : s.settings.roles.site = false) : onLine s = true := by
  simp [onLine, hr, hs]

/-- A row of a CALLER node that has nothing to act on changes nothing, at whatever node. -/
theorem callerRow_same (h : f s = s) : callerRow f s = .next s := by
  refine congrArg Host.Outcome.next ?_
  split
  · exact h
  · rfl

end

/-! ## Ring, timers, loop and check (R108, R111, R112, R116) -/

section
variable {l : Fin 3} {s : State}

theorem callRings_rings (hs : (lineAt s l).state = .idle) (hr : (lineAt s l).ring.level = true) :
    callRings l s = moveLine l .ringing .callRinging .ring [] s := if_pos ⟨hs, hr⟩

theorem callRings_silent (hr : (lineAt s l).state ≠ .idle ∨ (lineAt s l).ring.level = false) : callRings l s = s := by
  refine if_neg fun ⟨hs, h⟩ => ?_
  rcases hr with hr | hr
  · exact hr hs
  · rw [h] at hr
    exact nomatch hr

/-- A line returned to IDLE rings at once where its ring level is ACTIVE (R108). -/
theorem returnToIdle_moves (l : Fin 3) (k : NoticeKind) (c : LineCause) (s : State) : ∃ u,
    LineMoved l .idle k (c.words ++ []) s u ∧ ((lineAt s l).ring.level = false → returnToIdle l k c s = u)
      ∧ ((lineAt s l).ring.level = true → LineMoved l .ringing .callRinging [word 2] u (returnToIdle l k c s)) := by
  have hmoved := lineMoved l .idle k c [] s
  have hring : (lineAt (moveLine l .idle k c [] s) l).ring = (lineAt s l).ring := by
    rw [hmoved.line]
  refine ⟨moveLine l .idle k c [] s, hmoved, fun hr => callRings_silent (.inr ?_), fun hr => ?_⟩
  · rw [hring]
    exact hr
  · unfold returnToIdle
    rw [callRings_rings (moveLine_state ..) (by rw [hring]; exact hr)]
    exact lineMoved l .ringing .callRinging .ring [] _

theorem abandonCall_ends (hs : (lineAt s l).state = .ringing) (ht : 8000 ≤ (lineAt s l).timer) :
    abandonCall l s = returnToIdle l .callAbandoned .timer s := if_pos ⟨hs, ht⟩

theorem endDead_ends (hs : (lineAt s l).state = .dead) (ht : 16 ≤ (lineAt s l).timer) :
    endDead l s = returnToIdle l .lineState .timer s := if_pos ⟨hs, ht⟩

theorem endClearing_ends (hs : (lineAt s l).state = .clearing) (ht : 500 ≤ (lineAt s l).timer) :
    endClearing l s = returnToIdle l .lineState .timer s := if_pos ⟨hs, ht⟩

theorem loseCaller_clears (hs : (lineAt s l).state ∈ [CallState.checking, .screening, .holding, .ready, .onAir])
    (ha : 200 ≤ (lineAt s l).loopAbsent) : loseCaller l s = moveLine l .clearing .callerGone .loop [] s :=
  if_pos ⟨seized_iff.2 hs, ha⟩

theorem timed_waits {f : State → State} {st : CallState} {n : Nat} {t : State}
    (hf : f s = if (lineAt s l).state = st ∧ n ≤ (lineAt s l).timer then t else s)
    (h : (lineAt s l).state ≠ st ∨ (lineAt s l).timer < n) : callerRow f s = .next s := by
  refine callerRow_same (hf.trans (if_neg fun ⟨hs, hn⟩ => ?_))
  rcases h with h | h
  · exact h hs
  · exact Nat.not_le.2 h hn

theorem holdsVoice_iff {x : CallLine} : x.holdsVoice = true ↔ ∃ v, x.voice = .held v := by
  unfold CallLine.holdsVoice
  split
  case h_1 v h => exact ⟨fun _ => ⟨v, h⟩, fun _ => rfl⟩
  case h_2 h => exact ⟨nofun, fun ⟨v, hv⟩ => absurd hv (h v)⟩

theorem completeCheck_waits (h : (lineAt s l).state ≠ .checking ∨ (∀ v, (lineAt s l).voice ≠ .held v)
    ∨ (lineAt s l).checkCount < s.settings.checkLength) : completeCheck l s = s := by
  refine if_neg fun ⟨hs, hv, hc⟩ => ?_
  rcases h with h | h | h
  · exact h hs
  · obtain ⟨v, hv⟩ := holdsVoice_iff.1 hv
    exact h v hv
  · exact Nat.not_le.2 h hc

section
variable {v : Fin 4} (hs : (lineAt s l).state = .checking) (hv : (lineAt s l).voice = .held v)
  (hc : s.settings.checkLength ≤ (lineAt s l).checkCount)
include hs hv hc

theorem completeCheck_dead (hp : (lineAt s l).checkPeak < s.settings.deadFloor) :
    completeCheck l s = moveLine l .dead .lineDead .check [word (lineAt s l).checkPeak] s :=
  (if_pos ⟨hs, holdsVoice_iff.2 ⟨v, hv⟩, hc⟩).trans (if_pos hp)

theorem completeCheck_passes (hp : s.settings.deadFloor ≤ (lineAt s l).checkPeak) {poor : Bool}
    (hpoor : decide (s.settings.echoCeiling < (lineAt s l).checkPeak) = poor) : completeCheck l s
      = moveLine l .screening .lineChecked .check [word (lineAt s l).checkPeak, wordFlag poor]
          (setLine l { lineAt s l with poorHybrid := poor } s) := by
  rw [← hpoor]
  exact (if_pos ⟨hs, holdsVoice_iff.2 ⟨v, hv⟩, hc⟩).trans (if_neg (Nat.not_lt.2 hp))

end

/-! ## Accepted contacts (R107, R178) -/

theorem acceptLoop (h : 3 ≤ (lineAt s l).loop.run) :
    acceptLineInput l .loop s = setLine l { lineAt s l with loop := (lineAt s l).loop.settle } s := if_pos h

theorem acceptRing (h : 3 ≤ (lineAt s l).ring.run) :
    acceptLineInput l .ring s = callRings l (setLine l { lineAt s l with ring := (lineAt s l).ring.settle } s) := if_pos h

end

/-! ## The contact filter (R178) -/

theorem Filter.count_level (f : Filter) (b : Bool) : (f.count b).level = f.level := by
  unfold Filter.count
  split
  · rfl
  · split <;> rfl

theorem Filter.count_heldOff {f : Filter} {b : Bool} (h : 0 < f.holdOff) :
    f.count b = { f with holdOff := f.holdOff - 1, run := 0 } := if_pos h

theorem Filter.count_differs {f : Filter} {b : Bool} (h : f.holdOff = 0) (hb : b ≠ f.level) :
    f.count b = { f with run := f.run + 1 } := by
  rw [Filter.count, if_neg (Nat.not_lt.2 (Nat.le_of_eq h)), if_pos (bne_iff_ne.2 hb)]

theorem Filter.count_equals {f : Filter} {b : Bool} (h : f.holdOff = 0) (hb : b = f.level) :
    f.count b = { f with run := 0 } := by
  rw [Filter.count, if_neg (Nat.not_lt.2 (Nat.le_of_eq h)), if_neg fun hne => bne_iff_ne.1 hne hb]

theorem Filter.settle_accepts {f : Filter} (h : 3 ≤ f.run) : f.settle = ⟨!f.level, 0, 64⟩ := if_pos h

theorem Filter.sample_accepts {f : Filter} {b : Bool} (h : 3 ≤ (f.count b).run) : f.sample b = ⟨!f.level, 0, 64⟩ := by
  rw [Filter.sample, Filter.settle_accepts h, Filter.count_level]

theorem contactFilter : ContactFilter where
  holdsOff _ _ h := Filter.count_heldOff h
  differs _ _ h hb := Filter.count_differs h hb
  equals _ _ h hb := Filter.count_equals h hb
  accepts _ _ h := Filter.sample_accepts h
  waits _ _ h := Filter.sample_rejected (Nat.not_le.2 h)

/-- Settles O43: each row acts where its count has come to its limit, and otherwise has nothing to act on; the block start
is `lineTick_ticked` for each line. -/
theorem lineTimersAndInputsMoveLine : Obligations.LineTimersAndInputsMoveLine := by
  refine ⟨fun l s hr hs hc => ?ends, fun l s hr hs hc => ?moves, fun l s => ?stays, fun _ _ _ => rfl, ?tick, contactFilter⟩
  case ends =>
    intro x
    have row (f : State → State) : callerRow f s = .next (f s) := callerRow_next f (onLine_running hr hs) hc
    have timed {f : State → State} {i : Instr} {k : NoticeKind} (hi : exec i s = callerRow f s)
        (hf : f s = returnToIdle l k .timer s) : ∃ u t, exec i s = .next t ∧ LineMoved l .idle k [word 3] s u
          ∧ (x.ring.level = false → t = u) ∧ (x.ring.level = true → LineMoved l .ringing .callRinging [word 2] u t) := by
      obtain ⟨u, hu, hsilent, hrings⟩ := returnToIdle_moves l k .timer s
      exact ⟨u, _, hi.trans ((row f).trans (congrArg Host.Outcome.next hf)), hu, hsilent, hrings⟩
    refine ⟨fun hi hring => ?_, fun i st n k hm hst hn => ?_, fun hst ha => ?_⟩
    · exact ⟨_, (row _).trans (congrArg Host.Outcome.next (callRings_rings hi hring)), lineMoved l _ _ .ring [] s⟩
    · simp only [List.mem_cons, Prod.mk.injEq, List.not_mem_nil, or_false] at hm
      obtain ⟨rfl, rfl, rfl, rfl⟩ | ⟨rfl, rfl, rfl, rfl⟩ | ⟨rfl, rfl, rfl, rfl⟩ := hm
      · exact timed rfl (abandonCall_ends hst hn)
      · exact timed rfl (endDead_ends hst hn)
      · exact timed rfl (endClearing_ends hst hn)
    · exact ⟨_, (row _).trans (congrArg Host.Outcome.next (loseCaller_clears hst ha)), lineMoved l _ _ .loop [] s⟩
  case moves =>
    intro x peak
    have row (f : State → State) : callerRow f s = .next (f s) := callerRow_next f (onLine_running hr hs) hc
    refine ⟨fun v hst hv hlen => ⟨fun hp => ?_, fun hp he => ?_, fun hp he => ?_⟩, fun hrun => ?_, fun hrun => ?_⟩
    · exact ⟨_, (row _).trans (congrArg Host.Outcome.next (completeCheck_dead hst hv hlen hp)),
        lineMoved l _ _ .check [word peak] s⟩
    · exact ⟨_, (row _).trans (congrArg Host.Outcome.next (completeCheck_passes hst hv hlen hp
        (decide_eq_false (Nat.not_lt.2 he)))), lineMoved l _ _ .check [word peak, word 0] _⟩
    · exact ⟨_, (row _).trans (congrArg Host.Outcome.next (completeCheck_passes hst hv hlen hp (decide_eq_true he))),
        lineMoved l _ _ .check [word peak, word 1] _⟩
    · refine (row _).trans (congrArg Host.Outcome.next ((acceptLoop hrun).trans ?_))
      rw [Filter.settle_accepts hrun]
    · intro s'
      have haccept : acceptLineInput l .ring s = callRings l s' := by
        rw [acceptRing hrun, Filter.settle_accepts hrun]
      have hline : lineAt s' l = { x with ring := ⟨!x.ring.level, 0, 64⟩ } := lineAt_setLine ..
      refine ⟨fun h => ?_, fun hi hlevel => ?_⟩
      · refine (row _).trans (congrArg Host.Outcome.next (haccept.trans (callRings_silent ?_)))
        rw [hline]
        exact h.imp id fun h => by rw [h]; rfl
      · refine ⟨_, (row _).trans (congrArg Host.Outcome.next (haccept.trans (callRings_rings ?_ ?_))),
          lineMoved l _ _ .ring [] s'⟩
        · rw [hline]
          exact hi
        · rw [hline, hlevel]
          rfl
  case stays =>
    intro x
    refine ⟨timed_waits rfl, timed_waits rfl, timed_waits rfl, fun h => callerRow_same (if_neg fun ⟨hst, ha⟩ => ?_),
      fun h => callerRow_same (completeCheck_waits h)⟩
    rcases h with h | h
    · exact h (seized_iff.1 hst)
    · exact Nat.not_le.2 h ha
  case tick =>
    exact fun input ups l before s hr hs hc hst => lineTick_ticked input ups l hst (onLine_running hr hs) hc

end Sys2Proof.Machine
end

section
/-! SUPPORT. Requests and answers on the line (R122, R123, R124, R125, R126), and the settling of O44. -/

namespace Sys2Proof.Machine

/-! ## A frame that passes, handed to the KU -/

section
variable {f : RxControl} {s : State}

theorem receiveControl_hands {kind : Nat} {handOn : State → State} (hl : s.lu.state ≠ .offline)
    (hr : s.lu.receiving = true) (hp : RxControl.passes f = true) (hk : f.kind.toNat = kind) :
    receiveControl kind f handOn s = handOn (endReceiving s) := by
  rw [receiveControl, hp, receiveFrame_passes hl hr]
  exact if_pos hk

theorem fromOwnId_other {n : Fin 8} (hn : n ≠ s.settings.nodeId) : fromOwnId n s = false := beq_eq_false_iff_ne.2 hn

theorem receiveRequest_hands {b : RequestBody} (hl : s.lu.state ≠ .offline) (hr : s.lu.receiving = true)
    (hp : RxControl.passes f = true) (hk : f.kind = 3) (hn : f.node ≠ s.settings.nodeId)
    (hb : parseRequest f.body = some b) : receiveRequest f s = handRequest f.node b (endReceiving s) := by
  have hkind : f.kind.toNat = 3 := by
    rw [hk]
    rfl
  have hother : fromOwnId f.node (endReceiving s) = false := fromOwnId_other hn
  unfold receiveRequest receiveRequestWith
  rw [receiveControl_hands hl hr hp hkind, hother, hb]

theorem requestReceived_lines {b : RequestBody} (hl : s.lu.state ≠ .offline) (hr : s.lu.receiving = true)
    (hp : RxControl.passes f = true) (hk : f.kind = 3) (hn : f.node ≠ s.settings.nodeId)
    (hb : parseRequest f.body = some b) (hv : b.verb ≠ .setRemoteOutput) :
    exec (.requestReceived f) s = .next (takeRequest f.node b (endReceiving s)) :=
  congrArg Host.Outcome.next ((receiveRequest_hands hl hr hp hk hn hb).trans (if_neg hv))

theorem answerReceived_taken {b : AnswerBody} (hl : s.lu.state ≠ .offline) (hr : s.lu.receiving = true)
    (hp : RxControl.passes f = true) (hk : f.kind = 4) (hn : f.node ≠ s.settings.nodeId)
    (hb : parseAnswer f.body = some b) : exec (.answerReceived f) s = .next (takeAnswer f.node b (endReceiving s)) := by
  have hkind : f.kind.toNat = 4 := by
    rw [hk]
    rfl
  have hother : fromOwnId f.node (endReceiving s) = false := fromOwnId_other hn
  refine congrArg Host.Outcome.next ?_
  unfold receiveAnswer
  rw [receiveControl_hands hl hr hp hkind, hother, hb]

end

/-! ## The owner's judgement (R124, R125) -/

section
variable {n : Fin 8} {b : RequestBody} {s : State}

theorem takeRequest_disregards (h : b.target ≠ s.settings.nodeId.val ∨ s.lu.state ≠ .joined) : takeRequest n b s = s :=
  if_pos (h.imp id fun h => Bool.eq_false_iff.2 fun hj => h (joined_iff.1 hj))

theorem takeRequest_answers (ht : b.target = s.settings.nodeId.val) (hj : s.lu.state = .joined) {t : State} {o : Answer}
    {after : Nat} (hjudge : judgeRequest n b s = (t, o, after)) (room : t.tx.control.length < 8) :
    takeRequest n b s = queueControl (.answer ⟨n, b.tag, o, b.item, after⟩) t := by
  have hjoined : joined s = true := joined_iff.2 hj
  rw [takeRequest, if_neg (by simp [ht, hjoined]), hjudge]
  exact handControl_room room

theorem requestLine_none (h : b.item = 0 ∨ 3 < b.item) : requestLine b.item = none := by
  unfold requestLine
  rcases h with h | h
  · exact if_pos h
  · rw [if_neg (by omega)]
    exact dif_neg (by omega)

theorem requestLine_some {l : Fin 3} (h : b.item = l.val + 1) : requestLine b.item = some l := by
  unfold requestLine
  rw [if_neg (by omega)]
  have hl : b.item - 1 = l.val := by omega
  rw [hl]
  exact dif_pos l.isLt

theorem judgeRequest_outside (h : b.item = 0 ∨ 3 < b.item) :
    judgeRequest n b s = (s, .refusedRole, (Config.answerAfter b.item).toNat) := by
  unfold judgeRequest
  rw [requestLine_none h]

variable {l : Fin 3} (hl : b.item = l.val + 1)
include hl

theorem judgeRequest_notRole (hc : s.settings.roles.caller = false) :
    judgeRequest n b s = (s, .refusedRole, (lineAt s l).state.ctorIdx) := by
  unfold judgeRequest
  rw [requestLine_some hl, hc]
  rfl

theorem judgeRequest_acts (hc : s.settings.roles.caller = true) {t : State} {o : Answer}
    (hact : actOn b.verb l (.request n) s = (t, o)) : judgeRequest n b s = (t, o, (lineAt t l).state.ctorIdx) := by
  unfold judgeRequest
  rw [requestLine_some hl, hc]
  dsimp only
  rw [hact]
  rfl

end

/-! ## Ends of requests (R122, R123, R126) -/

section
variable {r : Request} {tag : Half} {s : State}

theorem endRequest_found (h : s.ku.requests.find? (fun q => q.tag == tag) = some r) (o : RequestOutcome)
    (after : Option Nat) : endRequest tag o after s = { s with
      cp := s.cp.post ⟨.requestDone, s.clock.blockCount,
        [word r.tag.toNat, word r.verb.ctorIdx, word r.target, word r.item, word o.code, wordOpt after]⟩
      ku := { s.ku with requests := s.ku.requests.filter fun q => q.tag != r.tag } } := by
  obtain rfl : r.tag = tag := by simpa using List.find?_some h
  unfold endRequest
  rw [h]
  rfl

theorem noAnswer_ends (h : s.ku.requests.find? (fun q => q.tag == tag) = some r) (hp : r.phase = .sent)
    (hw : 32 ≤ r.wait) : noAnswer tag s = endRequest tag .noAnswer none s := by
  rw [noAnswer, h]
  exact if_pos ⟨hp, hw⟩

theorem noAnswer_waits (h : s.ku.requests.find? (fun q => q.tag == tag) = some r) (hw : r.phase = .sent → r.wait < 32) :
    noAnswer tag s = s := by
  rw [noAnswer, h]
  exact if_neg fun ⟨hp, hn⟩ => Nat.not_le.2 (hw hp) hn

theorem noAnswer_early (h : ∀ r ∈ s.ku.requests, r.phase = .sent → r.wait < 32) : noAnswer tag s = s := by
  unfold noAnswer
  split
  case h_1 r hr => exact if_neg fun ⟨hp, hn⟩ => Nat.not_le.2 (h r (List.mem_of_find?_eq_some hr) hp) hn
  case h_2 => rfl

theorem noAnswers_early (tags : List Half) (h : ∀ r ∈ s.ku.requests, r.phase = .sent → r.wait < 32) :
    forEach tags noAnswer s = s := by
  induction tags with
  | nil => rfl
  | cons t tags ih => rw [forEach_cons, noAnswer_early h, ih]

theorem takeAnswer_ends {n : Fin 8} {b : AnswerBody} (hq : b.requester = s.settings.nodeId.val)
    (h : s.ku.requests.find? (fun q => q.tag == b.tag) = some r) (ht : r.target = n) (hp : r.phase = .sent) :
    takeAnswer n b s = endRequest b.tag (.answered b.outcome) (some b.after) s := by
  rw [takeAnswer, if_neg (not_not_intro hq), h]
  exact if_pos ⟨ht, hp⟩

theorem takeAnswer_other {n : Fin 8} {b : AnswerBody} (h : s.ku.requests.find? (fun q => q.tag == b.tag) = some r)
    (hr : r.target ≠ n ∨ r.phase = .queued) : takeAnswer n b s = s := by
  unfold takeAnswer
  split
  · rfl
  · rw [h]
    refine if_neg fun ⟨ht, hp⟩ => ?_
    rcases hr with hr | hr
    · exact hr ht
    · rw [hp] at hr
      exact nomatch hr

theorem takeAnswer_unmatched {n : Fin 8} {b : AnswerBody} (h : b.requester ≠ s.settings.nodeId.val
    ∨ ∀ r ∈ s.ku.requests, r.tag ≠ b.tag) : takeAnswer n b s = s := by
  unfold takeAnswer
  split
  · rfl
  · next hq =>
    have hnone : s.ku.requests.find? (fun q => q.tag == b.tag) = none :=
      List.find?_eq_none.2 fun r hr ht => h.resolve_left hq r hr (beq_iff_eq.1 ht)
    rw [hnone]

end

/-- A request as a block start counts its wait (R123). -/
def Request.waited (r : Request) : Request := if r.phase = .sent then { r with wait := bump 32 r.wait } else r

theorem Request.waited_tag (r : Request) : r.waited.tag = r.tag := by
  unfold Request.waited
  split <;> rfl

theorem Request.waited_sent {r : Request} (h : r.phase = .sent) : r.waited = { r with wait := bump 32 r.wait } := if_pos h

theorem Request.waited_early {r : Request} (h : r.phase = .sent → r.wait < 31) (hw : r.waited.phase = .sent) :
    r.waited.wait < 32 := by
  by_cases hp : r.phase = .sent
  · have hlt := h hp
    rw [waited_sent hp]
    simp only [bump]
    omega
  · exact absurd (by rwa [Request.waited, if_neg hp] at hw) hp

/-- Settles O44: the owner's judgement by the verb, the ANSWER by the request it matches, the block start by the requests
whose count has come to 32. -/
theorem requestsAreActedOnAndEnded : Obligations.RequestsAreActedOnAndEnded := by
  refine ⟨fun f b s hl hr hp hk hn hb hv => ?request, ⟨fun f b s hl hr hp hk hn hb => ?answer, fun r s hfind hsent => ?late⟩,
    fun _ _ => rfl, fun s => ?start⟩
  case request =>
    intro s' answered
    have row : exec (.requestReceived f) s = .next (takeRequest f.node b s') :=
      requestReceived_lines hl hr hp hk hn hb hv
    refine ⟨fun h => row.trans (congrArg Host.Outcome.next (takeRequest_disregards h)), fun ht hj room => ?_⟩
    have answers {t : State} {o : Answer} {after : Nat} (hjudge : judgeRequest f.node b s' = (t, o, after))
        (hroom : t.tx.control.length < 8) : exec (.requestReceived f) s = .next (answered o after t) :=
      row.trans (congrArg Host.Outcome.next (takeRequest_answers (s := s') ht hj hjudge hroom))
    refine ⟨fun h => ⟨_, answers (judgeRequest_outside h) room⟩, fun l hitem => ?_⟩
    intro st refusedAs done
    have refused {o : Answer} (hc : s.settings.roles.caller = true) (hact : actOn b.verb l (.request f.node) s' = (s', o)) :
        refusedAs o :=
      answers (t := s') (judgeRequest_acts (s := s') (t := s') hitem hc hact) room
    have acted {new : CallState} (hc : s.settings.roles.caller = true)
        (hact : actOn b.verb l (.request f.node) s' = (moveLine l new .lineState (.request f.node) [] s', .accepted)) :
        done new := by
      have hmoved := lineMoved l new .lineState (.request f.node) [] s'
      have hjudge := judgeRequest_acts (s := s') hitem hc hact
      rw [moveLine_state] at hjudge
      refine ⟨_, hmoved, answers hjudge ?_⟩
      rw [hmoved.frame]
      exact room
    refine ⟨fun hc => ?_, fun hc => ?_⟩
    · exact answers (judgeRequest_notRole hitem hc) room
    split
    case h_1 hverb =>
      refine ⟨fun h => refused hc ?_, fun h hn => refused hc ?_, fun h hn => acted hc ?_⟩ <;> rw [hverb]
      · exact actTake_state h
      · exact actTake_limit h hn
      · exact actTake_accepted h hn
    case h_2 hverb =>
      refine ⟨fun h => refused hc ?_, fun h => acted hc ?_⟩ <;> rw [hverb]
      · exact actDrop_state h
      · exact actDrop_accepted h
    case h_3 hverb =>
      refine ⟨fun h => refused hc ?_, fun h => acted hc ?_⟩ <;> rw [hverb]
      · exact actHangUp_state h
      · exact actHangUp_accepted h
    case h_4 => trivial
  case answer =>
    intro s'
    have row := answerReceived_taken hl hr hp hk hn hb
    refine ⟨fun r hq hfind => ⟨fun ht hsent => ?_, fun h => ?_⟩, fun h => ?_⟩
    · refine row.trans (congrArg Host.Outcome.next ((takeAnswer_ends (s := s') hq hfind ht hsent).trans ?_))
      exact endRequest_found (s := s') hfind (.answered b.outcome) (some b.after)
    · exact row.trans (congrArg Host.Outcome.next (takeAnswer_other (s := s') hfind h))
    · exact row.trans (congrArg Host.Outcome.next (takeAnswer_unmatched (s := s') h))
  case late =>
    refine ⟨fun hw => congrArg Host.Outcome.next ((noAnswer_ends hfind hsent hw).trans ?_), fun hw => ?_⟩
    · exact endRequest_found hfind .noAnswer none
    · exact congrArg Host.Outcome.next (noAnswer_waits hfind fun _ => hw)
  case start =>
    intro counted
    have htags : counted.ku.requests.map Request.tag = s.ku.requests.map Request.tag := by
      show (s.ku.requests.map Request.waited).map Request.tag = _
      rw [List.map_map]
      exact List.map_congr_left fun r _ => r.waited_tag
    have htick : requestTick s = forEach (s.ku.requests.map Request.tag) noAnswer counted :=
      congrArg (forEach · noAnswer counted) htags
    refine ⟨htick, fun h => htick.trans (noAnswers_early _ fun r hr => ?_), fun r hreq _ _ => ?_⟩
    · obtain ⟨q, hq, rfl⟩ := List.mem_map.1 hr
      exact Request.waited_early (h q hq)
    · rw [htick, hreq]
      rfl

end Sys2Proof.Machine
end

section
/-! SUPPORT. The admission of an alert (R133, R136, R142), ALERT ISSUE (R139), and the settling of O45. -/

namespace Sys2Proof.Machine

/-! ## The next alert id (R136) -/

section
variable {s : State}

theorem alertOf_none {id : Nat} : alertOf s id = none ↔ ∀ x ∈ s.au.table, x.id ≠ id := by
  simp [alertOf, List.find?_eq_none]

theorem freeSeq_free {q : Byte} (h : alertOf s (s.settings.nodeId.val * 256 + q.toNat) = none) (n : Nat) :
    freeSeq s n q = q := by
  cases n with
  | zero => rfl
  | succ n =>
    rw [freeSeq, h]
    rfl

/-- The search for a free value fails only where every value it tries is held. -/
theorem freeSeq_search (s : State) (n : Nat) (q : Byte) :
    alertOf s (s.settings.nodeId.val * 256 + (freeSeq s n q).toNat) = none
      ∨ ∀ i < n, ∃ x ∈ s.au.table, x.id = s.settings.nodeId.val * 256 + (q + BitVec.ofNat 8 i).toNat := by
  induction n generalizing q with
  | zero => exact .inr nofun
  | succ n ih =>
    by_cases h : alertOf s (s.settings.nodeId.val * 256 + q.toNat) = none
    · exact .inl (by rw [freeSeq_free h]; exact h)
    · have hnext : freeSeq s (n + 1) q = freeSeq s n (q + 1) := if_pos (Option.isSome_iff_ne_none.2 h)
      rw [hnext]
      refine (ih (q + 1)).imp id fun hheld i hi => ?_
      cases i with
      | zero =>
        rw [alertOf_none] at h
        simpa using h
      | succ i =>
        have hq : q + BitVec.ofNat 8 (i + 1) = q + 1 + BitVec.ofNat 8 i := by
          rw [Nat.add_comm i 1, BitVec.ofNat_add, ← BitVec.add_assoc]
          rfl
        rw [hq]
        exact hheld i (by omega)

/-- With at most 4 records, one of the 5 values tried is free. -/
theorem nextAlertId_free (h : s.au.table.length ≤ 4) : alertOf s (nextAlertId s) = none := by
  refine (freeSeq_search s 5 s.au.originSeq).resolve_right fun hheld => ?_
  let tried := (List.range 5).map fun i => s.settings.nodeId.val * 256 + (s.au.originSeq + BitVec.ofNat 8 i).toNat
  have hnodup : tried.Nodup := by
    refine List.Nodup.map_on (fun i hi j hj hij => ?_) List.nodup_range
    rw [List.mem_range] at hi hj
    simp only [BitVec.toNat_add, BitVec.toNat_ofNat] at hij
    omega
  have hheld : tried ⊆ s.au.table.map Alert.id := fun id hid => by
    obtain ⟨i, hi, rfl⟩ := List.mem_map.1 hid
    obtain ⟨x, hx, hxid⟩ := hheld i (List.mem_range.1 hi)
    exact List.mem_map.2 ⟨x, hx, hxid⟩
  have hlen := (List.Nodup.subperm hnodup hheld).length_le
  simp only [tried, List.length_map, List.length_range] at hlen
  omega

theorem nextSeq_free (h : alertOf s (s.settings.nodeId.val * 256 + s.au.originSeq.toNat) = none) :
    nextSeq s = s.au.originSeq := freeSeq_free h 5

end

/-! ## Records added and frames handed -/

section
variable {r x : Alert} {s t : State}

theorem sole_appended {l : List Alert} (ht : t.au.table = l ++ [r]) (hl : ∀ y ∈ l, y.id ≠ r.id) : Sole r t := by
  unfold Sole
  rw [ht]
  refine ⟨by simp, fun y hy hid => ?_⟩
  rcases List.mem_append.1 hy with hy | hy
  · exact absurd hid (hl y hy)
  · exact List.mem_singleton.1 hy

/-- The frame of a record that has just been handed one or has just been made. -/
theorem handAlertFrame_fresh (h : Sole r s) (room : FrameRoom s) (hz : r.sinceFrame = 0) :
    handAlertFrame r.id s = if s.lu.state = .joined then queueControl (.alert (alertBody r none)) s else s := by
  have hsame : ({ r with sinceFrame := 0 } : Alert) = r := by rw [← hz]
  have hkept (r' : Alert) (hr : r' = r) : changeAlert r.id (fun _ => r') s = s := by
    rw [hr]
    refine (changeAlert_sole h rfl id).symm.trans (congrArg (fun t => { s with au := { s.au with table := t } }) ?_)
    exact (List.map_congr_left fun a _ => by rw [id, ite_self]).trans s.au.table.map_id
  rw [handAlertFrame_sole h room]
  by_cases hj : s.lu.state = .joined
  · rw [alertChanged_joined hj, hkept _ hsame, if_pos hj]
  · rw [alertChanged_apart hj, hkept _ rfl, if_neg hj]

theorem addAlert_eq (r : Alert) (s : State) : addAlert r s = { s with
    cp := s.cp.post ⟨.alertNew, s.clock.blockCount, [word r.id, r.key, word r.cls.ctorIdx, word r.origin.ctorIdx,
      wordFlag (r.id / 256 == s.settings.nodeId.val)]⟩
    au := { s.au with table := s.au.table ++ [r] } } := rfl

/-! ## Admission (R133) -/

theorem admitAlert_room (h : s.au.table.length < 4) : admitAlert r s = (addAlert r s, true) := if_pos h

theorem foldl_choice_mem {α : Type} (p : α → α → Bool) (l : List α) (a : α) :
    l.foldl (fun m b => if p m b then b else m) a ∈ a :: l := by
  induction l generalizing a with
  | nil => simp
  | cons b l ih =>
    have hmem := ih (if p a b then b else a)
    rw [List.foldl_cons]
    rcases List.mem_cons.1 hmem with h | h
    · rw [h]
      split <;> simp
    · exact List.mem_cons_of_mem _ (List.mem_cons_of_mem _ h)

theorem lowestAlert_mem {l : List Alert} (h : lowestAlert l = some x) : x ∈ l := by
  cases l with
  | nil => exact nomatch h
  | cons a l =>
    obtain rfl := Option.some.inj h
    exact foldl_choice_mem Alert.above l a

theorem admitAlert_refused (full : 4 ≤ s.au.table.length)
    (h : ∀ x ∈ s.au.table, x.state ≠ .airing → r.above x = false) : admitAlert r s = (s, false) := by
  have hnone : toDisplace r s = none := by
    refine Option.filter_eq_none_iff.2 fun x hx => ?_
    obtain ⟨hmem, hstate⟩ := List.mem_filter.1 (lowestAlert_mem hx)
    rw [h x hmem (bne_iff_ne.1 hstate)]
    exact Bool.false_ne_true
  rw [admitAlert, if_neg (Nat.not_lt.2 full), hnone]

theorem LetGo.table (h : LetGo s t) : t.au.table = s.au.table := by rw [h.frame]

theorem letGo_cutIf (p : Prop) [Decidable p] (id : Nat) (s : State) : LetGo s (if p then cutAiring id s else s) := by
  split
  · exact letGo_cut id s
  · exact ⟨rfl⟩

theorem postIf_au (c : Bool) (k : NoticeKind) (items : List Word) (s : State) : (postIf c k items s).au = s.au := by
  obtain ⟨cp, hcp⟩ := postIf_eq c k items s
  rw [hcp]

/-- `x` is record `y`, or `y` with a fresh frame owed (R142). -/
def Alert.Owed (y x : Alert) : Prop := x = y ∨ x = { y with frameOwed := true }

theorem Alert.Owed.same {y x : Alert} (h : y.Owed x) : x.id = y.id ∧ x.state = y.state := by
  rcases h with rfl | rfl <;> exact ⟨rfl, rfl⟩

theorem dropFrame_owed (f : ControlFrame) (why : DropReason) (s : State) :
    ∀ x ∈ (dropFrame f why s).au.table, ∃ y ∈ s.au.table, y.Owed x := by
  intro x hx
  unfold dropFrame at hx
  dsimp only at hx
  split at hx
  · rw [endRequest_frame] at hx
    exact ⟨x, hx, .inl rfl⟩
  · split at hx
    · exact ⟨x, hx, .inl rfl⟩
    · obtain ⟨y, hy, rfl⟩ := List.mem_map.1 hx
      refine ⟨y, hy, ?_⟩
      split
      · exact .inr rfl
      · exact .inl rfl
  · exact ⟨x, hx, .inl rfl⟩

theorem handControl_owed (b : ControlBody) (s : State) :
    ∀ x ∈ (handControl b s).au.table, ∃ y ∈ s.au.table, y.Owed x := by
  intro x hx
  unfold handControl at hx
  split at hx
  · exact ⟨x, hx, .inl rfl⟩
  · split at hx
    · exact ⟨x, hx, .inl rfl⟩
    · split at hx
      · exact dropFrame_owed _ _ (queueControl _ { s with tx := _ }) x hx
      · exact dropFrame_owed _ _ s x hx

theorem handEnded_owed (r : Alert) (reason : EndReason) (s : State) :
    ∀ x ∈ (handEnded r reason s).au.table, ∃ y ∈ s.au.table, y.Owed x := by
  unfold handEnded
  split
  · exact handControl_owed _ s
  · exact fun x hx => ⟨x, hx, .inl rfl⟩

/-- A record that the end of another leaves stood in the table before. -/
theorem endAlert_owed (id : Nat) (reason : EndReason) (s : State) :
    ∀ x ∈ (endAlert id reason s).au.table, ∃ y ∈ s.au.table, y.Owed x := by
  unfold endAlert
  split
  · exact fun x hx => ⟨x, hx, .inl rfl⟩
  · next r _ =>
    intro x hx
    rw [postIf_au] at hx
    replace hx := (letGo_clip r.clip _).table ▸ hx
    rw [(letGo_cutIf ..).table] at hx
    obtain ⟨y, hy, howed⟩ := handEnded_owed r reason _ x hx
    exact ⟨y, List.mem_of_mem_filter hy, howed⟩

theorem displaceAlert_owed (x : Alert) (n : Nat) (s : State) :
    ∀ y ∈ (displaceAlert x n s).au.table, ∃ z ∈ s.au.table, z.Owed y := by
  show ∀ y ∈ (if x.own s then endAlert x.id .displaced s else removeAlert x.id s).au.table, _
  split
  · exact endAlert_owed x.id .displaced s
  · exact fun y hy => ⟨y, List.mem_of_mem_filter hy, .inl rfl⟩

/-- A record after an admission is the new one, or stood in the table before. -/
theorem admitAlert_owed (r : Alert) (s : State) :
    ∀ y ∈ (admitAlert r s).1.au.table, y = r ∨ ∃ z ∈ s.au.table, z.Owed y := by
  have added {u : State} (hu : ∀ y ∈ u.au.table, ∃ z ∈ s.au.table, z.Owed y) :
      ∀ y ∈ (addAlert r u).au.table, y = r ∨ ∃ z ∈ s.au.table, z.Owed y := fun y hy =>
    (List.mem_append.1 hy).elim (fun hy => .inr (hu y hy)) fun hy => .inl (List.mem_singleton.1 hy)
  unfold admitAlert
  split
  · exact added fun y hy => ⟨y, hy, .inl rfl⟩
  · split
    · next x _ => exact added (displaceAlert_owed x r.id s)
    · exact fun y hy => .inr ⟨y, hy, .inl rfl⟩

/-- An admission brings no alert id but the new record's. -/
theorem alertOf_admitted {id : Nat} (h : alertOf s id = none) (hr : r.id ≠ id) : alertOf (admitAlert r s).1 id = none := by
  rw [alertOf_none] at h ⊢
  intro y hy
  rcases admitAlert_owed r s y hy with rfl | ⟨z, hz, howed⟩
  · exact hr
  · rw [howed.same.1]
    exact h z hz

/-! ## What a displacement leaves (R133) -/

section
variable (h : GivesPlace x r s t)
include h

theorem GivesPlace.keeps : t.settings = s.settings ∧ t.clock = s.clock ∧ t.lu = s.lu
    ∧ t.au.originSeq = s.au.originSeq := by
  obtain ⟨u, hown, hheard, rfl⟩ := h
  by_cases ho : x.id / 256 = s.settings.nodeId.val
  · rw [(hown ho).frame]
    exact ⟨rfl, rfl, rfl, rfl⟩
  · rw [hheard ho]
    exact ⟨rfl, rfl, rfl, rfl⟩

theorem GivesPlace.room (hroom : FramesRoom s) : FrameRoom t := by
  intro hj
  rw [h.keeps.2.2.1] at hj
  obtain ⟨u, hown, hheard, rfl⟩ := h
  have hlen := hroom hj
  by_cases ho : x.id / 256 = s.settings.nodeId.val
  · obtain ⟨-, -, htx⟩ := (hown ho).handed fun hj => Nat.lt_succ_of_lt (hroom hj)
    show u.tx.control.length < 8
    rw [htx, if_pos hj]
    show (insertControl _ s.tx.control).length < 8
    rw [length_insertControl]
    omega
  · show u.tx.control.length < 8
    rw [hheard ho]
    exact Nat.lt_succ_of_lt hlen

theorem GivesPlace.table (hroom : FramesRoom s) :
    t.au.table = (s.au.table.filter fun y => y.id != x.id) ++ [r] := by
  obtain ⟨u, hown, hheard, rfl⟩ := h
  refine congrArg (· ++ [r]) ?_
  by_cases ho : x.id / 256 = s.settings.nodeId.val
  · exact ((hown ho).handed fun hj => Nat.lt_succ_of_lt (hroom hj)).1
  · rw [hheard ho]

theorem GivesPlace.sole (hroom : FramesRoom s) (hnew : alertOf s r.id = none) : Sole r t :=
  sole_appended (h.table hroom) fun y hy => alertOf_none.1 hnew y (List.mem_of_mem_filter hy)

end

end

/-! ## ALERT ISSUE (R139) -/

theorem classOf_code (a : AlertClass) : classOf a.ctorIdx = some a := by cases a <;> rfl

theorem classOf_within {n : Nat} (h : n ≤ 3) : ∃ a, classOf n = some a :=
  match n, h with
  | 0, _ | 1, _ | 2, _ | 3, _ => ⟨_, rfl⟩

theorem classOf_above {n : Nat} (h : 3 < n) : classOf n = none := by
  unfold classOf
  split
  case h_5 => rfl
  all_goals omega

theorem keyNew_iff {key : Word} {s : State} :
    (keyHeld key s || keyRecent key s) = false ↔ (∀ r ∈ s.au.table, r.key ≠ key) ∧ key ∉ s.au.recent := by
  simp [keyHeld, keyRecent]

theorem issueClip_none : issueClip wordNone = some none := if_pos rfl

section
variable {w : Word}

theorem issueClip_some {c : Fin 256} (h : w.toNat = c.val) : issueClip w = some (some c) := by
  have hne : w ≠ wordNone := by
    rintro rfl
    have := c.isLt
    simp [wordNone] at h
    omega
  rw [issueClip, if_neg hne, index?_eq_some.2 h.symm]
  rfl

theorem issueClip_above (hn : w ≠ wordNone) (h : 255 < w.toNat) : issueClip w = none := by
  rw [issueClip, if_neg hn, index?_eq_none.2 h]
  rfl

end

section
variable {cls clip key : Word} {a : AlertClass} {s : State}

theorem issueRefusal_site (h : atSite s = true) : issueRefusal cls clip key s = some .notRole := if_pos h

theorem issueRefusal_param (hs : atSite s = false) (h : classOf cls.toNat = none ∨ issueClip clip = none) :
    issueRefusal cls clip key s = some .badParam := by
  unfold issueRefusal
  rw [hs, if_neg Bool.false_ne_true]
  split
  · next hcls hclip =>
    rw [hcls, hclip] at h
    exact h.elim nofun nofun
  · rfl

variable (hs : atSite s = false) (ha : classOf cls.toNat = some a)
include hs ha

section
variable {c : Fin 256} (hc : issueClip clip = some (some c))
include hc

theorem issueRefusal_protected (hp : 252 ≤ c.val) : issueRefusal cls clip key s = some .inUse := by
  unfold issueRefusal
  rw [hs, ha, hc]
  exact if_pos (isProtected_iff.2 hp)

variable (hp : c.val < 252)
include hp

theorem issueRefusal_empty (he : (clipAt s c).state = .empty) : issueRefusal cls clip key s = some .wrongState := by
  unfold issueRefusal
  rw [hs, ha, hc]
  exact (if_neg fun h => Nat.not_le.2 hp (isProtected_iff.1 h)).trans (if_pos (beq_iff_eq.2 he))

theorem issueRefusal_known (he : (clipAt s c).state ≠ .empty)
    (hk : ¬ ((∀ r ∈ s.au.table, r.key ≠ key) ∧ key ∉ s.au.recent)) : issueRefusal cls clip key s = some .inUse := by
  unfold issueRefusal
  rw [hs, ha, hc]
  refine (if_neg fun h => Nat.not_le.2 hp (isProtected_iff.1 h)).trans ((if_neg fun h => he (beq_iff_eq.1 h)).trans
    (if_pos ?_))
  exact Bool.not_eq_false _ ▸ fun h => hk (keyNew_iff.1 h)

end

theorem issueRefusal_passes {c : Option (Fin 256)} (hc : issueClip clip = some c)
    (hu : ∀ x, c = some x → x.val < 252 ∧ (clipAt s x).state ≠ .empty)
    (hk : (∀ r ∈ s.au.table, r.key ≠ key) ∧ key ∉ s.au.recent) : issueRefusal cls clip key s = none := by
  unfold issueRefusal
  rw [hs, ha, hc]
  have hnew := keyNew_iff.2 hk
  cases c with
  | none => exact if_neg (Bool.eq_false_iff.1 hnew)
  | some x =>
    obtain ⟨hp, he⟩ := hu x rfl
    exact (if_neg fun h => Nat.not_le.2 hp (isProtected_iff.1 h)).trans ((if_neg fun h => he (beq_iff_eq.1 h)).trans
      (if_neg (Bool.eq_false_iff.1 hnew)))

end

/-- The state in which ALERT ISSUE makes its checks: with key 0 the id has been taken. -/
def issuing (key : Word) (s : State) : State := if key = 0 then takeAlertId (nextSeq s) s else s

/-- The key of the alert that ALERT ISSUE issues. -/
def issuedKey (key : Word) (s : State) : Word := if key = 0 then 0xF0000000#32 + word (nextAlertId s) else key

/-- The record of ALERT ISSUE. -/
def issuedAlert (a : AlertClass) (repeats key : Word) (clip : Option (Fin 256)) (s : State) : Alert :=
  ownAlert s (nextAlertId s) (issuedKey key s) .command a s.settings.defaultDuration (clampNat 1 8 repeats.toNat) clip

/-- The origin sequence once the id of a record has been taken after its admission (R136). -/
def admittedSeq (r : Alert) (s : State) : Byte := freeSeq (admitAlert r s).1 5 (nextSeq s + 1)

theorem admittedSeq_next {r : Alert} {s : State} (hr : r.id = nextAlertId s)
    (h : alertOf s (s.settings.nodeId.val * 256 + (nextSeq s + 1).toNat) = none) : admittedSeq r s = nextSeq s + 1 := by
  have hset : (admitAlert r s).1.settings = s.settings := (admitAlert_steady r (.refl s)).settings
  refine freeSeq_free ?_ 5
  rw [hset]
  refine alertOf_admitted h ?_
  rw [hr, nextAlertId]
  have : (nextSeq s + 1).toNat ≠ (nextSeq s).toNat := fun heq => by
    have hq := BitVec.eq_of_toNat_eq heq
    bv_omega
  omega

/-- The origin sequence after ALERT ISSUE has issued `r`. -/
def issuedSeq (r : Alert) (key : Word) (s : State) : Byte :=
  if key = 0 then freeSeq s 5 (nextSeq s + 1) else admittedSeq r s

section
variable {cls repeats clip key : Word} {a : AlertClass} {c : Option (Fin 256)} {r : Alert} {s u : State}

theorem issuing_same (key : Word) (s : State) :
    issuing key s = { s with au := { s.au with originSeq := (issuing key s).au.originSeq } } := by
  unfold issuing
  split <;> rfl

theorem issuing_seq (key : Word) (r : Alert) (s : State) :
    issuing key s = if key = 0 then { s with au := { s.au with originSeq := issuedSeq r key s } } else s := by
  unfold issuing issuedSeq
  split <;> rfl

theorem issuedSeq_next (hr : r.id = nextAlertId s)
    (h : alertOf s (s.settings.nodeId.val * 256 + (nextSeq s + 1).toNat) = none) : issuedSeq r key s = nextSeq s + 1 := by
  unfold issuedSeq
  split
  · exact freeSeq_free h 5
  · exact admittedSeq_next hr h

/-- The state in which the id of an issued alert has been taken. -/
def idTaken (key : Word) (s u : State) : State := if key = 0 then u else takeAlertId (nextSeq s) u

theorem idTaken_seq (hu : admitAlert r (issuing key s) = (u, true))
    (hseq : u.au.originSeq = (issuing key s).au.originSeq) :
    idTaken key s u = { u with au := { u.au with originSeq := issuedSeq r key s } } := by
  unfold idTaken issuedSeq
  unfold issuing at hu hseq
  by_cases hk : key = 0
  · rw [if_pos hk] at hseq
    rw [if_pos hk, if_pos hk]
    have hq : freeSeq s 5 (nextSeq s + 1) = u.au.originSeq := hseq.symm
    rw [hq]
  · rw [if_neg hk] at hu
    rw [if_neg hk, if_neg hk, admittedSeq, hu]
    rfl

theorem alertIssue_refused {code : ResultCode} (h : issueRefusal cls clip (issuedKey key s) (issuing key s) = some code) :
    alertIssueCommand cls repeats clip key s = (issuing key s, .only code) := by
  unfold issuedKey issuing at h
  unfold alertIssueCommand issuing
  simp only [decide_eq_true_eq]
  rw [h]

/-- Where the checks pass, the admission decides. -/
theorem alertIssue_passes {b : Bool} (h : issueRefusal cls clip (issuedKey key s) (issuing key s) = none)
    (ha : classOf cls.toNat = some a) (hc : issueClip clip = some c)
    (hu : admitAlert (issuedAlert a repeats key c s) (issuing key s) = (u, b)) :
    alertIssueCommand cls repeats clip key s = if b then
        (handAlertFrame (nextAlertId s) (assignClip c (idTaken key s u)),
          .okWith [word (nextAlertId s), issuedKey key s])
      else (issuing key s, .only .full) := by
  have hr : ownAlert (issuing key s) (nextAlertId s) (issuedKey key s) .command a (issuing key s).settings.defaultDuration
      (clampNat 1 8 repeats.toNat) c = issuedAlert a repeats key c s := by
    rw [issuing_same]
    rfl
  rw [← hr] at hu
  unfold issuedKey issuing at h hu
  unfold alertIssueCommand issuedKey issuing idTaken
  simp only [decide_eq_true_eq]
  rw [h]
  dsimp only
  rw [ha, hc]
  simp only [Option.getD_some, Option.join_some]
  rw [hu]

end

/-- Settles O45: the refusals up to the admission, then the admission with room, in a full table, and by displacement. -/
theorem alertIssueAdmitsRecord : Obligations.AlertIssueAdmitsRecord := by
  intro cls repeats clip key m s h i moved
  have hsite {b : Bool} (hb : s.settings.roles.site = b) : atSite (issuing key s) = b := by
    rw [issuing_same]
    exact (atSite_iff h.running).trans hb
  have refuses {r : Alert} {c : ResultCode} (hc : issueRefusal cls clip (issuedKey key s) (issuing key s) = some c) :
      exec i s = .next (answer m c [] (moved (issuedSeq r key s))) := by
    have hmoved : moved (issuedSeq r key s) = issuing key s := (issuing_seq key r s).symm
    rw [hmoved]
    exact hostRow_act h (alertIssue_refused hc)
  refine ⟨fun hs => ⟨_, refuses (r := issuedAlert .test repeats key none s) (issueRefusal_site (hsite hs))⟩, fun hs => ?_⟩
  let r₀ := issuedAlert ((classOf cls.toNat).getD .test) repeats key (issueClip clip).join s
  refine ⟨nextSeq s, issuedSeq r₀ key s, ?_⟩
  intro id k refused usable fresh
  have hfree : s.au.table.length ≤ 4 → alertOf s id = none := nextAlertId_free
  have hclip (x : Fin 256) : clipAt (issuing key s) x = clipAt s x := by
    rw [issuing_same]
    rfl
  have hau : (issuing key s).au.table = s.au.table ∧ (issuing key s).au.recent = s.au.recent := by
    rw [issuing_same]
    exact ⟨rfl, rfl⟩
  have hfresh (hf : fresh) : (∀ x ∈ (issuing key s).au.table, x.key ≠ issuedKey key s)
      ∧ issuedKey key s ∉ (issuing key s).au.recent := by
    rw [hau.1, hau.2]
    exact hf
  refine ⟨hfree, nextSeq_free, issuedSeq_next rfl, fun hp => refuses (issueRefusal_param (hsite hs) ?_), fun hlt c hc => ?_,
    fun a ch hcls hch hf => ?_⟩
  · exact hp.imp classOf_above fun ⟨hne, hlarge⟩ => issueClip_above hne hlarge
  · obtain ⟨a, ha⟩ := classOf_within hlt
    refine ⟨fun hp => refuses (issueRefusal_protected (hsite hs) ha (issueClip_some hc) hp), fun hp he =>
      refuses (issueRefusal_empty (hsite hs) ha (issueClip_some hc) hp ?_), fun ⟨hp, he⟩ hnew =>
      refuses (issueRefusal_known (hsite hs) ha (issueClip_some hc) hp ?_ ?_)⟩
    · rw [hclip]
      exact he
    · rw [hclip]
      exact he
    · rw [hau.1, hau.2]
      exact hnew
  · have ha : classOf cls.toNat = some a := by
      rw [hcls]
      exact classOf_code a
    have hissue : issueClip clip = some ch := by
      obtain ⟨rfl, rfl⟩ | ⟨c, hc, rfl, -⟩ := hch
      · exact issueClip_none
      · exact issueClip_some hc
    have hpasses : issueRefusal cls clip (issuedKey key s) (issuing key s) = none := by
      refine issueRefusal_passes (hsite hs) ha hissue (fun x hx => ?_) (hfresh hf)
      obtain ⟨-, rfl⟩ | ⟨c, -, rfl, hu⟩ := hch
      · exact nomatch hx
      · obtain rfl := Option.some.inj hx
        rw [hclip]
        exact hu
    have hr₀ : r₀ = issuedAlert a repeats key ch s := by
      simp only [r₀]
      rw [ha, hissue]
      rfl
    clear_value r₀
    subst hr₀
    refine ⟨fun hlen hlow => ?_, issuedAlert a repeats key ch s, rfl, rfl, rfl, rfl, rfl, rfl, rfl, rfl, rfl, rfl, rfl, rfl,
      rfl, rfl, rfl, rfl, ?_⟩
    · have hfull := admitAlert_refused (r := issuedAlert a repeats key ch s) (s := issuing key s) (hau.1 ▸ hlen) fun x hx hst =>
        Bool.eq_false_iff.2 fun habove => ?_
      · refine (hostRow_act h (alertIssue_passes hpasses ha hissue hfull)).trans ?_
        show _ = Host.Outcome.next (answer m .full [] (if key = 0 then _ else s))
        rw [← issuing_seq]
        rfl
      · have hlower := hlow x (hau.1 ▸ hx) hst
        rcases (Alert.above_iff ..).1 habove with hlt | ⟨heq, hrank⟩
        · have hlt : a.ctorIdx < x.cls.ctorIdx := hlt
          rcases hlower with hl | ⟨rfl, -⟩ <;> omega
        · have heq : a = x.cls := heq
          have hrank : x.age < 0 ∨ (0 = x.age ∧ id < x.id) := hrank
          rcases hlower with hl | ⟨-, hl⟩
          · rw [heq] at hl
            omega
          · omega
    · generalize hr : issuedAlert a repeats key ch s = r
      have hid : r.id = id := by rw [← hr]; rfl
      have hzero : r.sinceFrame = 0 := by rw [← hr]; rfl
      intro taken
      have accepted {u : State} (hu : admitAlert r (issuing key s) = (u, true))
          (hseq : u.au.originSeq = (issuing key s).au.originSeq) (hlu : u.lu = s.lu) (hsole : Sole r u)
          (hroom : FrameRoom u) : exec i s = .next (taken u) := by
        rw [← hr] at hu
        refine (hostRow_act h (alertIssue_passes hpasses ha hissue hu)).trans ?_
        rw [hr] at hu
        rw [idTaken_seq hu hseq]
        refine congrArg (fun v => Host.Outcome.next (answer m .ok [word id, k] v)) ?_
        show handAlertFrame id _ = _
        rw [← hid, handAlertFrame_fresh (by cases ch <;> exact hsole) (by cases ch <;> exact hroom) hzero, ← hlu]
        cases ch <;> rfl
      refine ⟨fun hlen room => ?_, fun x hlen hlow hrank room => ?_⟩
      · have hadd : addAlert r (issuing key s) = { addAlert r s with
            au := { (addAlert r s).au with originSeq := (issuing key s).au.originSeq } } := by
          rw [issuing_same]
          rfl
        have hu := admitAlert_room (r := r) (s := issuing key s) (by rw [hau.1]; exact hlen)
        rw [hadd] at hu
        refine (accepted hu rfl rfl (sole_appended rfl ?_) room).trans ?_
        · rw [hid]
          exact alertOf_none.1 (hfree hlen.le)
        · rw [addAlert_eq, ← hr]
          have hown : (issuedAlert a repeats key ch s).id / 256 == s.settings.nodeId.val := by
            have := (nextSeq s).isLt
            exact beq_iff_eq.2 (by show (s.settings.nodeId.val * 256 + (nextSeq s).toNat) / 256 = _; omega)
          rw [hown]
          rfl
      · have hsame : Lowest x (issuing key s) := by
          rw [issuing_same]
          exact hlow
        have hrooms : FramesRoom (issuing key s) := by
          rw [issuing_same]
          exact room
        have habove : r.above x = true := by
          rw [← hr]
          exact (Alert.above_iff ..).2 (hrank.imp (fun hlt => hlt) fun ⟨hc, ha, hi⟩ => ⟨hc.symm, .inr ⟨ha.symm, hi⟩⟩)
        obtain ⟨u, hu, hgives⟩ := admit_displaces (by rw [hau.1]; exact hlen.ge) hsame habove
        have hmoved : moved (issuedSeq r key s) = issuing key s := (issuing_seq key r s).symm
        have hnew : alertOf (issuing key s) r.id = none := by
          rw [hid]
          exact alertOf_none.2 (hau.1 ▸ alertOf_none.1 (hfree hlen.le))
        refine ⟨u, by rw [hmoved]; exact hgives, accepted hu hgives.keeps.2.2.2 ?_ (hgives.sole hrooms hnew)
          (hgives.room hrooms)⟩
        rw [hgives.keeps.2.2.1, issuing_same]

end Sys2Proof.Machine
end

section
/-! SUPPORT. The receiver framer (R135, R209), the ends of own records (R137, R140, R152) and their counts at a block start,
and the settling of O46. -/

namespace Sys2Proof.Machine

/-! ## A whole message at the framer (R135, R209) -/

/-- A message with its sum byte right, as `receiverFrame` spells it. -/
def receiverMessage (type : Byte) (body : List Byte) : ReceiverMessage where
  type := type
  length := BitVec.ofNat 8 body.length
  body := body
  sum := 0 - body.foldl (· + ·) (type + BitVec.ofNat 8 body.length)

theorem receiverFrame_eq (type : Byte) (body : List Byte) : receiverFrame type body
    = 0x7E#8 :: type :: (receiverMessage type body).length :: (body ++ [(receiverMessage type body).sum]) := rfl

section
variable {byte : Byte → State → State} {standing : Framer → State} {take : ReceiverMessage → State → State}
  (hnone : ∀ f f' b, f ≠ .hunt → framerStep f b = (f', none) → byte b (standing f) = standing f')
  (hsome : ∀ f f' b m, f ≠ .hunt → framerStep f b = (f', some m) → byte b (standing f) = take m (standing f'))
include hnone hsome

/-- The bytes of a body and its sum byte, at a framer that takes a message from its start byte on. -/
theorem framer_takesBody {t n sum : Byte} {bs rest : List Byte} (h : bs.length + rest.length = n.toNat) :
    forEach (rest ++ [sum]) byte (standing (framerBody t n bs)) = take ⟨t, n, bs ++ rest, sum⟩ (standing .hunt) := by
  induction rest generalizing bs with
  | nil =>
    have hcheck : framerBody t n bs = .check t n bs := if_pos (by rw [List.length_nil] at h; omega)
    rw [hcheck, List.append_nil]
    exact hsome _ _ _ _ nofun rfl
  | cons b rest ih =>
    have hbody : framerBody t n bs = .body t n bs := if_neg (by rw [List.length_cons] at h; omega)
    rw [hbody, List.cons_append, forEach_cons, hnone (.body t n bs) _ b nofun rfl,
      ih (by rw [List.length_append, List.length_singleton]; rw [List.length_cons] at h; omega), List.append_assoc]
    rfl

/-- A whole message at such a framer. -/
theorem framer_takesMessage {s : State} {t n sum : Byte} {body : List Byte} (hlen : body.length = n.toNat)
    (hstart : byte 0x7E#8 s = standing (.header none)) :
    forEach (0x7E#8 :: t :: n :: (body ++ [sum])) byte s = take ⟨t, n, body, sum⟩ (standing .hunt) := by
  rw [forEach_cons, forEach_cons, forEach_cons, hstart, hnone (.header none) _ t nofun rfl,
    hnone (.header (some t)) _ n nofun rfl]
  exact framer_takesBody hnone hsome (by rw [List.length_nil, Nat.zero_add]; exact hlen)

end

/-! ## The receiver input of an ALERT node -/

section
variable {s : State}

/-- The Alert Unit with its framer in a state, the 16 blocks counted from 0. -/
def framerAt (s : State) (f : Framer) : State := { s with au := { s.au with framer := f, framerBlocks := 0 } }

theorem receiverBytes_taken {t n sum : Byte} {body : List Byte} (hr : s.cp.device = .running)
    (hs : s.settings.roles.site = false) (ha : s.settings.roles.alert = true) (hh : s.au.framer = .hunt)
    (hlen : body.length = n.toNat) : receiverBytes (0x7E#8 :: t :: n :: (body ++ [sum])) s
      = takeMessage ⟨t, n, body, sum⟩ { s with au := { s.au with framerBlocks := 0 } } := by
  have hhunt : framerAt s .hunt = { s with au := { s.au with framerBlocks := 0 } } := by
    rw [framerAt, ← hh]
  rw [← hhunt]
  refine (if_pos ⟨onLine_running hr hs, ha⟩).trans (framer_takesMessage (standing := framerAt s) ?_ ?_ hlen ?_)
  · intro f f' b hf hstep
    have hblocks : (if f = .hunt then 0 else 0) = 0 := ite_self 0
    unfold receiverByte
    have hfr : (framerAt s f).au.framer = f := rfl
    rw [hfr, hstep]
    exact congrArg (fun k => { s with au := { s.au with framer := f', framerBlocks := k } }) hblocks
  · intro f f' b m hf hstep
    have hblocks : (if f = .hunt then 0 else 0) = 0 := ite_self 0
    unfold receiverByte
    have hfr : (framerAt s f).au.framer = f := rfl
    rw [hfr, hstep]
    exact congrArg (fun k => takeMessage m { s with au := { s.au with framer := f', framerBlocks := k } }) hblocks
  · unfold receiverByte
    rw [hh]
    rfl

theorem foldl_add_start (l : List Byte) (a b : Byte) : l.foldl (· + ·) (a + b) = l.foldl (· + ·) a + b := by
  induction l generalizing a with
  | nil => rfl
  | cons x l ih => rw [List.foldl_cons, List.foldl_cons, BitVec.add_assoc, BitVec.add_comm b x, ← BitVec.add_assoc, ih]

theorem messageSum_receiverMessage (type : Byte) (body : List Byte) : messageSum (receiverMessage type body) = 0 := by
  refine (foldl_add_start ..).trans ?_
  show body.foldl (· + ·) (type + BitVec.ofNat 8 body.length) + (0 - _) = 0
  generalize body.foldl (· + ·) (type + BitVec.ofNat 8 body.length) = x
  bv_omega

theorem receiverFrame_taken {type : Byte} {body : List Byte} (hr : s.cp.device = .running)
    (hs : s.settings.roles.site = false) (ha : s.settings.roles.alert = true) (hh : s.au.framer = .hunt)
    (hlen : body.length < 256) : receiverBytes (receiverFrame type body) s
      = takeMessage (receiverMessage type body) { s with au := { s.au with framerBlocks := 0 } } := by
  refine receiverBytes_taken hr hs ha hh ?_
  rw [BitVec.toNat_ofNat]
  exact (Nat.mod_eq_of_lt hlen).symm

end

section
variable {key : Word} (hk : key ≠ 0)
include hk

theorem readMessage_cancels : readMessage (receiverMessage 3 (be32 key)) = some (.cancels key) := by
  have hkey : wordAt (be32 key) 0 = key := wordAt_be32 key []
  have hbody : (receiverMessage 3 (be32 key)).body = be32 key := rfl
  unfold readMessage
  rw [messageSum_receiverMessage, hbody, hkey]
  exact if_neg (not_or.2 ⟨fun h => h rfl, hk⟩)

theorem readMessage_ends : readMessage (receiverMessage 2 (be32 key)) = some (.ends key) := by
  have hkey : wordAt (be32 key) 0 = key := wordAt_be32 key []
  have hbody : (receiverMessage 2 (be32 key)).body = be32 key := rfl
  unfold readMessage
  rw [messageSum_receiverMessage, hbody, hkey]
  exact if_neg (not_or.2 ⟨fun h => h rfl, hk⟩)

end

/-! ## Ends of own records (R137, R140, R152) -/

theorem find?_only {α : Type} {p : α → Bool} {l : List α} {a : α} (hmem : a ∈ l) (ha : p a = true)
    (only : ∀ x ∈ l, p x = true → x = a) : l.find? p = some a := by
  cases h : l.find? p with
  | none => exact absurd ha (List.find?_eq_none.1 h a hmem)
  | some x => rw [only x (List.mem_of_find?_eq_some h) (List.find?_some h)]

section
variable {key : Word} {r : Alert} {id : Nat} {s : State}

theorem own_false {a : Alert} (h : a.id / 256 ≠ s.settings.nodeId.val) : a.own s = false :=
  Bool.eq_false_iff.2 fun ho => h ((own_iff a s).1 ho)

theorem ownByKey_iff {a : Alert} : (a.key == key && a.own s) = true ↔ a.key = key ∧ a.id / 256 = s.settings.nodeId.val := by
  rw [Bool.and_eq_true, beq_iff_eq, own_iff]

theorem ownByKey_only (hmem : r ∈ s.au.table) (hk : r.key = key) (ho : r.id / 256 = s.settings.nodeId.val)
    (only : ∀ x ∈ s.au.table, x.key = key → x.id / 256 = s.settings.nodeId.val → x = r) : ownByKey key s = some r :=
  find?_only hmem (ownByKey_iff.2 ⟨hk, ho⟩) fun x hx h => only x hx (ownByKey_iff.1 h).1 (ownByKey_iff.1 h).2

theorem ownByKey_none (h : ∀ x ∈ s.au.table, x.key = key → x.id / 256 ≠ s.settings.nodeId.val) : ownByKey key s = none :=
  List.find?_eq_none.2 fun x hx hown => h x hx (ownByKey_iff.1 hown).1 (ownByKey_iff.1 hown).2

theorem takeCancel_ends (h : ownByKey key s = some r) : takeCancel key s = endAlert r.id .cancelled s := by
  rw [takeCancel, h]

theorem takeCancel_unknown (h : ownByKey key s = none) : takeCancel key s = s := by rw [takeCancel, h]

theorem receiverCancel_taken (hr : s.cp.device = .running) (hs : s.settings.roles.site = false)
    (ha : s.settings.roles.alert = true) (hh : s.au.framer = .hunt) (hk : key ≠ 0) :
    exec (.receiverCancel (receiverFrame 3 (be32 key))) s
      = .next (takeCancel key { s with au := { s.au with framerBlocks := 0 } }) := by
  refine congrArg Host.Outcome.next ((receiverFrame_taken hr hs ha hh (by rw [be32_length]; omega)).trans ?_)
  rw [takeMessage, readMessage_cancels hk]

theorem expireAlert_ends (h : Sole r s) (ho : r.id / 256 = s.settings.nodeId.val) (hm : 60000 ≤ r.minuteCount)
    (hd : r.duration ≤ 1) : expireAlert r.id s = endAlert r.id .expired s := by
  rw [expireAlert, alertOf_sole h]
  exact if_pos ⟨(own_iff r s).2 ho, hm, hd⟩

theorem expireAlert_stays (h : Sole r s) (hm : r.minuteCount < 60000 ∨ 1 < r.duration) : expireAlert r.id s = s := by
  rw [expireAlert, alertOf_sole h]
  exact if_neg fun ⟨_, h1, h2⟩ => by omega

theorem alertCancel_site {w : Word} (h : atSite s = true) : alertCancelCommand w s = refuse .notRole s := if_pos h

theorem alertCancel_unknown {w : Word} (hs : atSite s = false) (h : alertOf s w.toNat = none) :
    alertCancelCommand w s = refuse .noSuch s := by
  rw [alertCancelCommand, hs, if_neg Bool.false_ne_true, h]

theorem alertCancel_heard {w : Word} (hs : atSite s = false) (h : alertOf s w.toNat = some r) (ho : r.own s = false) :
    alertCancelCommand w s = refuse .notOrigin s := by
  rw [alertCancelCommand, hs, if_neg Bool.false_ne_true, h]
  exact if_neg (Bool.eq_false_iff.1 ho)

theorem alertCancel_own {w : Word} (hs : atSite s = false) (h : alertOf s w.toNat = some r) (ho : r.own s = true) :
    alertCancelCommand w s = (endAlert r.id .cancelled s, .only .ok) := by
  rw [alertCancelCommand, hs, if_neg Bool.false_ne_true, h]
  exact if_pos ho

end

/-! ## The counts of a block start (R131, R142, R145, R149, R152) -/

/-- An own record counted at a block start, before its whole minute is taken. -/
def Alert.counted (a : Alert) : Alert :=
  { a with
    age := bump 4294967295 a.age, minuteCount := a.minuteCount + 1, sinceFrame := a.sinceFrame + 1
    phaseCount := if a.state = .interval then a.phaseCount + 1 else a.phaseCount }

theorem Alert.tick_own (a : Alert) : a.tick true = a.counted.minute := rfl

theorem Alert.minute_within {a : Alert} (h : a.minuteCount < 60000 ∨ a.duration ≤ 1) : a.minute = a :=
  if_neg fun ⟨h1, h2⟩ => by omega

theorem Alert.minute_whole {a : Alert} (h : 60000 ≤ a.minuteCount) (hd : 1 < a.duration) :
    a.minute = { a with minuteCount := 0, duration := a.duration - 1 } := if_pos ⟨h, hd⟩

/-- Settles O46. -/
theorem ownAlertsEnd : Obligations.OwnAlertsEnd := by
  refine ⟨fun id m s h => ⟨fun hs => ?site, fun hs => ⟨fun hno => ?unknown, fun r hsole hid => ⟨fun ho => ?heard, fun ho =>
    ?own⟩⟩⟩, fun key s hr hs ha hh hk => ?cancel, fun r s hsole ho => ⟨fun hm hd => ?expires, fun hm => ?stays, ?counts⟩⟩
  case site => exact hostRow_act h (alertCancel_site ((atSite_iff h.running).trans hs))
  case unknown => exact hostRow_act h (alertCancel_unknown (atSite_studio hs) (alertOf_none.2 hno))
  case heard => exact hostRow_act h (alertCancel_heard (atSite_studio hs) (alertOf_at hsole hid) (own_false ho))
  case own =>
    exact ⟨_, alertEnded r .cancelled s hsole,
      hostRow_act h (alertCancel_own (atSite_studio hs) (alertOf_at hsole hid) ((own_iff r s).2 ho))⟩
  case cancel =>
    intro s' cancel
    have row : exec cancel s = .next (takeCancel key s') := receiverCancel_taken hr hs ha hh hk
    refine ⟨fun r hsole hkey ho only => ⟨_, row.trans (congrArg Host.Outcome.next (takeCancel_ends ?_)),
      alertEnded r .cancelled s' hsole⟩, fun hno => row.trans (congrArg Host.Outcome.next (takeCancel_unknown ?_))⟩
    · exact ownByKey_only (s := s') hsole.1 hkey ho only
    · exact ownByKey_none (s := s') hno
  case expires =>
    exact ⟨_, congrArg Host.Outcome.next (expireAlert_ends hsole ho hm hd), alertEnded r .expired s hsole⟩
  case stays => exact congrArg Host.Outcome.next (expireAlert_stays hsole hm)
  case counts =>
    intro counted
    have hcounted : r.counted = { counted with minuteCount := r.minuteCount + 1 } := by
      have hphase : (if r.state = .interval then r.phaseCount + 1 else r.phaseCount)
          = r.phaseCount + (if r.state = .interval then 1 else 0) := by split <;> rfl
      rw [Alert.counted, hphase]
      rfl
    refine ⟨fun h => ?_, fun h hd => ?_, rfl⟩
    · rw [Alert.tick_own, Alert.minute_within h, hcounted]
    · rw [Alert.tick_own, Alert.minute_whole (a := r.counted) h hd, hcounted]

end Sys2Proof.Machine
end

section
/-! SUPPORT. Receiver messages and captures (R135 to R138, R75, R209), and the settling of O47. -/

namespace Sys2Proof.Machine

/-! ## A capture closed (R75, R138) -/

/-- A clip whose seal is taken: READY at once when wholly written (R71). -/
def Clip.sealed (e : Clip) : Clip :=
  if e.written = e.bytes then { e with state := .ready, sealPending := false } else { e with sealPending := true }

/-- A clip cut to a length, as the close of its capture sets it (R75). -/
def Clip.cutTo (d : Clip) (length : Nat) : Clip := { d with length := length, segue := length }

section
variable {c : Fin 256} {r : Alert} {s : State}

theorem closeCapture_eq (c : Fin 256) (length : Nat) (s : State) : closeCapture c length s = { s with
    cp := if ((clipAt s c).cutTo length).written = ((clipAt s c).cutTo length).bytes then
        s.cp.post ⟨.clipReady, s.clock.blockCount, [word c]⟩ else s.cp
    cs := { s.cs with directory := s.cs.directory.put c ((clipAt s c).cutTo length).sealed } } := by
  have hclose : closeCapture c length s
      = settleSeal c (setClip c { (clipAt s c).cutTo length with sealPending := true } s) := by
    unfold closeCapture takeSeal
    rw [clipAt_setClip, setClip_setClip]
    rfl
  rw [hclose]
  unfold Clip.sealed
  split
  case isTrue h => exact settleSeal_written rfl h
  case isFalse h => exact settleSeal_unwritten h

theorem closeCapture_at (c : Fin 256) (length : Nat) (s : State) :
    clipAt (closeCapture c length s) c = ((clipAt s c).cutTo length).sealed := by
  rw [closeCapture_eq]
  exact (Tab.at_put ..).trans (if_pos rfl)

theorem closeCapture_length (c : Fin 256) (length : Nat) (s : State) : (clipAt (closeCapture c length s) c).length = length := by
  rw [closeCapture_at, Clip.sealed]
  split <;> rfl

/-- A record whose capture is closed is PENDING, ALERT_CAPTURED is posted and its frame handed (R138). -/
theorem captureClosed_closed (h : Sole r s) (hc : r.clip = some c) (room : FrameRoom s) (b : Bool) :
    captureClosed r.id b s = alertChanged r { r with state := .pending, testWait := 0, truncated := r.truncated || b }
      (post .alertCaptured [word r.id, word c, word (clipAt s c).length, wordFlag (r.truncated || b), wordFlag r.noCapture]
        s) := by
  have hword : wordOpt (r.clip.map Fin.val) = word c := by rw [hc]; rfl
  have hlength (t : State) : (r.clip.map fun c => (clipAt t c).length).getD 0 = (clipAt t c).length := by rw [hc]; rfl
  rw [captureClosed, alertOf_sole h]
  dsimp only
  rw [changeAlert_sole h rfl, hword, hlength]
  exact handAlertFrame_changed (r := r) (r' := { r with state := .pending, testWait := 0, truncated := r.truncated || b })
    (s := post .alertCaptured [word r.id, word c, word (clipAt s c).length, wordFlag (r.truncated || b), wordFlag r.noCapture]
      s) h room rfl

end

/-! ## END messages (R137) -/

section
variable {key : Word} {c : Fin 256} {r : Alert} {s : State}

theorem receiverEnd_taken (hr : s.cp.device = .running) (hs : s.settings.roles.site = false)
    (ha : s.settings.roles.alert = true) (hh : s.au.framer = .hunt) (hk : key ≠ 0) :
    exec (.receiverEnd (receiverFrame 2 (be32 key))) s
      = .next (takeEnd key { s with au := { s.au with framerBlocks := 0 } }) := by
  refine congrArg Host.Outcome.next ((receiverFrame_taken hr hs ha hh (by rw [be32_length]; omega)).trans ?_)
  rw [takeMessage, readMessage_ends hk]

theorem takeEnd_other (h : ownByKey key s = some r) (hst : r.state ≠ .capturing) : takeEnd key s = s := by
  rw [takeEnd, h]
  exact if_neg hst

theorem takeEnd_closes (h : ownByKey key s = some r) (hst : r.state = .capturing) (hc : r.clip = some c) :
    takeEnd key s = captureClosed r.id false (closeCapture c ((clipAt s c).queued / 2) s) := by
  unfold takeEnd
  rw [h]
  dsimp only
  rw [if_pos hst, hc]

end

/-! ## Discarded messages (R135) -/

section
variable {s : State}

theorem receiverError_eq (s : State) : receiverError s = { s with
    cp := if s.au.errorTold then s.cp else
      s.cp.post ⟨.receiverError, s.clock.blockCount, [word (min 65535 (s.au.errors + 1))]⟩
    au := { s.au with errors := min 65535 (s.au.errors + 1), errorTold := true } } := by
  unfold receiverError
  cases s.au.errorTold <;> rfl

theorem readMessage_none {m : ReceiverMessage} (h : messageSum m ≠ 0 ∨ wordAt m.body 0 = 0
    ∨ (m.type.toNat, m.length.toNat) ∉ [(1, 8), (2, 4), (3, 4)] ∨ (m.type.toNat = 1 ∧ 3 < (byteAt m.body 4).toNat)) :
    readMessage m = none := by
  unfold readMessage
  dsimp only
  split
  case isTrue => rfl
  case isFalse hgood =>
    rw [not_or] at hgood
    replace h := (h.resolve_left hgood.1).resolve_left hgood.2
    split
    case h_1 ht hl =>
      rw [ht, hl] at h
      rw [classOf_above (h.resolve_left fun hno => hno (by decide)).2]
      rfl
    case h_2 ht hl | h_3 ht hl =>
      rw [ht, hl] at h
      exact absurd (h.resolve_left fun hno => hno (by decide)).1 (by decide)
    case h_4 => rfl

theorem takeMessage_discards {m : ReceiverMessage} (h : readMessage m = none) : takeMessage m s = receiverError s := by
  rw [takeMessage, h]

theorem receiverTimeout_discards (hh : s.au.framer ≠ .hunt) (hn : 16 ≤ s.au.framerBlocks) : receiverTimeout s
    = receiverError { s with au := { s.au with framer := .hunt, framerBlocks := 0 } } := if_pos ⟨hh, hn⟩

theorem receiverTimeout_waits (hn : s.au.framerBlocks < 16) : receiverTimeout s = s :=
  if_neg fun h => Nat.not_le.2 hn h.2

end

/-! ## A capture's block (R75, R138) -/

theorem length_block48 (b : Block) : (block48 b).length = 48 := by
  rw [block48, List.length_take, List.length_append, silence, List.length_replicate]
  omega

theorem length_captureBytes (b : Block) : (captureBytes b).length = 2 * b.length := by
  induction b with
  | nil => rfl
  | cons p b ih =>
    have hcons : captureBytes (p :: b) = captureBytes [p] ++ captureBytes b := rfl
    rw [hcons, List.length_append, ih, List.length_cons]
    show 2 + _ = _
    omega

section
variable {c : Fin 256} {r : Alert} {input : BlockInput} {s : State}

/-- The bytes of a capture's block that lie below the clip's capacity. -/
def capturedBytes (input : BlockInput) (c : Fin 256) (s : State) : List Byte :=
  (captureBytes (tdmBlock input s.settings.alertAudioSlot)).take ((clipAt s c).capacity * 2 - (clipAt s c).queued)

theorem length_capturedBytes : (capturedBytes input c s).length ≤ 96 := by
  unfold capturedBytes
  rw [List.length_take, length_captureBytes, tdmBlock, length_block48]
  omega

section
variable (h : Sole r s) (hc : r.clip = some c)
include h hc

theorem captureTick_short (hroom : fillFree s < fillNeed (capturedBytes input c s).length) : captureTick input r.id s
    = captureClosed r.id true (closeCapture c ((clipAt s c).queued / 2) s) := by
  unfold captureTick
  rw [alertOf_sole h, Option.bind_some, hc]
  dsimp only
  have hblock : captureBlock c (captureBytes (tdmBlock input s.settings.alertAudioSlot)) s
      = (closeCapture c ((clipAt s c).queued / 2) s, some .queueShort) := if_pos hroom
  rw [hblock]
  rfl

variable (hroom : ¬ fillFree s < fillNeed (capturedBytes input c s).length)
include hroom

theorem captureTick_full (hfull : (clipAt s c).capacity * 2 ≤ (clipAt s c).queued + (capturedBytes input c s).length) :
    captureTick input r.id s
      = captureClosed r.id true (closeCapture c (clipAt s c).capacity (queueBytes c (capturedBytes input c s) s)) := by
  unfold captureTick
  rw [alertOf_sole h, Option.bind_some, hc]
  dsimp only
  have hblock : captureBlock c (captureBytes (tdmBlock input s.settings.alertAudioSlot)) s
      = (closeCapture c (clipAt s c).capacity (queueBytes c (capturedBytes input c s) s), some .fullLength) :=
    (if_neg hroom).trans (if_pos hfull)
  rw [hblock]
  rfl

theorem captureTick_goes (hfull : ¬ (clipAt s c).capacity * 2 ≤ (clipAt s c).queued + (capturedBytes input c s).length) :
    captureTick input r.id s = queueBytes c (capturedBytes input c s) s := by
  unfold captureTick
  rw [alertOf_sole h, Option.bind_some, hc]
  dsimp only
  have hblock : captureBlock c (captureBytes (tdmBlock input s.settings.alertAudioSlot)) s
      = (queueBytes c (capturedBytes input c s) s, none) := (if_neg hroom).trans (if_neg hfull)
  rw [hblock]
  rfl

end

end

/-! ## BEGIN messages (R136) -/

/-- The body of a BEGIN message (R209). -/
def beginBody (key : Word) (a : AlertClass) (duration : Half) (repeats : Byte) : List Byte :=
  be32 key ++ [BitVec.ofNat 8 a.ctorIdx] ++ be16 duration ++ [repeats]

theorem readMessage_begins {key : Word} (hk : key ≠ 0) (a : AlertClass) (duration : Half) (repeats : Byte) :
    readMessage (receiverMessage 1 (beginBody key a duration repeats))
      = some (.begins key a (clampNat 1 1440 duration.toNat) (clampNat 1 8 repeats.toNat)) := by
  have hbody : (receiverMessage 1 (beginBody key a duration repeats)).body = beginBody key a duration repeats := rfl
  have hkey : wordAt (beginBody key a duration repeats) 0 = key := by
    unfold beginBody
    rw [List.append_assoc, List.append_assoc]
    exact wordAt_be32 key _
  have hduration : halfAt (beginBody key a duration repeats) 5 = duration := by
    unfold beginBody
    rw [List.append_assoc]
    exact (halfAt_append (be32 key ++ [BitVec.ofNat 8 a.ctorIdx]) _ 0).trans (halfAt_be16 duration [repeats])
  have hclass : classOf (byteAt (beginBody key a duration repeats) 4).toNat = some a := by cases a <;> rfl
  have hrepeats : byteAt (beginBody key a duration repeats) 7 = repeats := rfl
  have htype : (receiverMessage 1 (beginBody key a duration repeats)).type.toNat = 1
      ∧ (receiverMessage 1 (beginBody key a duration repeats)).length.toNat = 8 := ⟨rfl, rfl⟩
  unfold readMessage
  rw [messageSum_receiverMessage, hbody, hkey, htype.1, htype.2, hclass, hduration, hrepeats]
  exact if_neg (not_or.2 ⟨fun h => h rfl, hk⟩)

/-- The record of a BEGIN at its admission. -/
def begunAlert (key : Word) (a : AlertClass) (duration : Half) (repeats : Byte) (s : State) : Alert :=
  ownAlert s (nextAlertId s) key .receiver a (clampNat 1 1440 duration.toNat) (clampNat 1 8 repeats.toNat) none

/-- That record once its capture has been opened or refused (R136). -/
def Alert.begun (r : Alert) : Option (Fin 256) → Alert
  | some c => { r with state := .capturing, clip := some c }
  | none => { r with noCapture := true }

section
variable {key : Word} {a : AlertClass} {duration : Half} {repeats : Byte} {r : Alert} {s : State}

theorem receiverBegin_taken (hr : s.cp.device = .running) (hs : s.settings.roles.site = false)
    (ha : s.settings.roles.alert = true) (hh : s.au.framer = .hunt) (hk : key ≠ 0) :
    exec (.receiverBegin (receiverFrame 1 (beginBody key a duration repeats))) s
      = .next (takeBegin key a (clampNat 1 1440 duration.toNat) (clampNat 1 8 repeats.toNat)
        { s with au := { s.au with framerBlocks := 0 } }) := by
  refine congrArg Host.Outcome.next ((receiverFrame_taken hr hs ha hh ?_).trans ?_)
  · show 8 < 256
    omega
  · rw [takeMessage, readMessage_begins hk]

theorem takeBegin_known {d n : Nat} (h : (∃ r ∈ s.au.table, r.key = key) ∨ key ∈ s.au.recent) :
    takeBegin key a d n s = s := by
  refine if_pos (Bool.not_eq_false _ ▸ fun hnew => ?_)
  obtain ⟨hheld, hrecent⟩ := keyNew_iff.1 hnew
  exact h.elim (fun ⟨r, hr, hk⟩ => hheld r hr hk) hrecent

theorem takeBegin_new (hnew : (∀ r ∈ s.au.table, r.key ≠ key) ∧ key ∉ s.au.recent) {u : State} {b : Bool}
    (hu : admitAlert (begunAlert key a duration repeats s) s = (u, b)) :
    takeBegin key a (clampNat 1 1440 duration.toNat) (clampNat 1 8 repeats.toNat) s
      = if b then handAlertFrame (nextAlertId s) (openRecordCapture (nextAlertId s) (takeAlertId (nextSeq s) u))
        else dropAlert key a s := by
  unfold takeBegin
  rw [keyNew_iff.2 hnew, if_neg Bool.false_ne_true]
  dsimp only
  unfold begunAlert at hu
  rw [hu]

/-- The Clip Store with a capture clip opened (R75). -/
def captureOpened (c : Fin 256) (s : State) : ClipStore :=
  { s.cs with directory := s.cs.directory.put c { clipAt s c with
    state := .filling, assigned := true, queued := 0, written := 0
    length := (clipAt s c).capacity, sealPending := false } }

/-- The Clip Store after a capture has been opened or refused (R136). -/
def openedStore (s : State) : Option (Fin 256) → ClipStore
  | some c => captureOpened c s
  | none => s.cs

theorem openRecordCapture_eq {id : Nat} {o : Option (Fin 256)} (h : captureClips.find? (captureFree s) = o) :
    openRecordCapture id s = changeAlert id (fun a => a.begun o) { s with cs := openedStore s o } := by
  unfold openRecordCapture openCapture
  rw [h]
  cases o <;> rfl

/-- What the opening of its capture leaves of a record. -/
theorem Alert.begun_keeps (r : Alert) (o : Option (Fin 256)) : (r.begun o).key = r.key ∧ (r.begun o).id = r.id
    ∧ (r.begun o).origin = r.origin ∧ (r.begun o).cls = r.cls ∧ (r.begun o).duration = r.duration
    ∧ (r.begun o).minuteCount = r.minuteCount ∧ (r.begun o).repeats = r.repeats ∧ (r.begun o).remaining = r.remaining
    ∧ (r.begun o).interval = r.interval ∧ (r.begun o).age = r.age ∧ (r.begun o).testWait = r.testWait
    ∧ (r.begun o).sinceFrame = r.sinceFrame := by
  cases o <;> exact ⟨rfl, rfl, rfl, rfl, rfl, rfl, rfl, rfl, rfl, rfl, rfl, rfl⟩

theorem changeAlert_appended {l : List Alert} (ht : s.au.table = l ++ [r]) (hl : ∀ y ∈ l, y.id ≠ r.id) (f : Alert → Alert) :
    changeAlert r.id f s = { s with au := { s.au with table := l ++ [f r] } } := by
  have hmap : (s.au.table.map fun a => if a.id = r.id then f a else a) = l ++ [f r] := by
    rw [ht, List.map_append, List.map_singleton, if_pos rfl]
    have hsame : (l.map fun a => if a.id = r.id then f a else a) = l :=
      (List.map_congr_left fun a ha => if_neg (hl a ha)).trans (List.map_id l)
    rw [hsame]
  rw [changeAlert, hmap]

/-- A record that has given its place to another, which then stands changed. -/
theorem GivesPlace.replaced {x r' : Alert} {v : State} (h : GivesPlace x r s v) (hkeep : r'.id = r.id ∧ r'.key = r.key
    ∧ r'.cls = r.cls ∧ r'.origin = r.origin) : ∃ l, v.au.table = l ++ [r]
      ∧ GivesPlace x r' s { v with au := { v.au with table := l ++ [r'] } } := by
  obtain ⟨hid, hkey, hcls, horigin⟩ := hkeep
  obtain ⟨u, hown, hheard, rfl⟩ := h
  refine ⟨u.au.table, rfl, u, hown, hheard, ?_⟩
  rw [hid, hkey, hcls, horigin]

/-- The state in which a BEGIN's record `r` has been admitted to `v`, behind the records `l`. -/
theorem takeBegin_admitted (hnew : (∀ r ∈ s.au.table, r.key ≠ key) ∧ key ∉ s.au.recent) {v : State} {l : List Alert}
    {o : Option (Fin 256)} (hr : begunAlert key a duration repeats s = r) (hu : admitAlert r s = (v, true))
    (ht : v.au.table = l ++ [r]) (hl : ∀ y ∈ l, y.id ≠ r.id) (room : FrameRoom v)
    (ho : captureClips.find? (captureFree v) = o) : ∀ t, t = { v with
        au := { v.au with table := l ++ [r.begun o], originSeq := admittedSeq r s }
        cs := openedStore v o } →
    takeBegin key a (clampNat 1 1440 duration.toNat) (clampNat 1 8 repeats.toNat) s
      = if v.lu.state = .joined then queueControl (.alert (alertBody (r.begun o) none)) t else t := by
  rintro t rfl
  have hid : nextAlertId s = r.id := by rw [← hr]; rfl
  have hzero : (r.begun o).sinceFrame = 0 := by
    rw [(Alert.begun_keeps r o).2.2.2.2.2.2.2.2.2.2.2, ← hr]
    rfl
  have hbegun : (r.begun o).id = r.id := (Alert.begun_keeps r o).2.1
  have htaken : takeAlertId (nextSeq s) v = { v with au := { v.au with originSeq := admittedSeq r s } } := by
    rw [admittedSeq, hu]
    rfl
  have hopen : openRecordCapture (nextAlertId s) (takeAlertId (nextSeq s) v) = { v with
      au := { v.au with table := l ++ [r.begun o], originSeq := admittedSeq r s }
      cs := openedStore v o } := by
    rw [htaken, hid]
    have ho' : captureClips.find? (captureFree { v with au := { v.au with originSeq := admittedSeq r s } }) = o := ho
    refine (openRecordCapture_eq ho').trans ((changeAlert_appended (l := l) ?_ hl fun a => a.begun o).trans ?_)
    · exact ht
    · cases o <;> rfl
  rw [← hr] at hu
  rw [takeBegin_new hnew hu, if_pos rfl, hopen, hid, ← hbegun]
  exact handAlertFrame_fresh (sole_appended rfl fun y hy => by rw [hbegun]; exact hl y hy) room hzero

end

theorem mem_captureClips {c : Fin 256} : c ∈ captureClips ↔ 252 ≤ c.val := by
  have := c.isLt
  simp only [captureClips, List.mem_cons, List.not_mem_nil, or_false, Fin.ext_iff]
  omega

/-- In an ascending list the lowest that passes is found. -/
theorem find?_lowest {n : Nat} {l : List (Fin n)} {p : Fin n → Bool} {c : Fin n} (hl : l.Pairwise (· < ·)) (hc : c ∈ l)
    (hp : p c = true) (low : ∀ d ∈ l, d < c → p d = false) : l.find? p = some c := by
  induction l with
  | nil => exact nomatch hc
  | cons x l ih =>
    obtain ⟨hx, hl⟩ := List.pairwise_cons.1 hl
    rcases List.mem_cons.1 hc with rfl | hmem
    · exact List.find?_cons_of_pos hp
    · rw [List.find?_cons_of_neg (Bool.eq_false_iff.1 (low x List.mem_cons_self (hx c hmem)))]
      exact ih hl hmem fun d hd => low d (List.mem_cons_of_mem _ hd)

theorem captureClips_lowest {p : Fin 256 → Bool} {c : Fin 256} (hc : 252 ≤ c.val) (hp : p c = true)
    (low : ∀ d : Fin 256, 252 ≤ d.val → d < c → p d = false) : captureClips.find? p = some c :=
  find?_lowest (by decide) (mem_captureClips.2 hc) hp fun d hd => low d (mem_captureClips.1 hd)

/-- Settles O47. -/
theorem receiverMessagesTaken : Obligations.ReceiverMessagesTaken := by
  refine ⟨fun key a duration repeats s hr hs ha hh hk => ?begins, fun key r c s hr hs ha hh hk hsole hkey ho only room => ?ends,
    fun type length sum body s hr hs ha hh hlen hbad => ?bad, fun s => ⟨fun hh => if_pos hh, fun hh => ?late⟩,
    fun input r c s hsole hc room => ?block, fun bytes i s ha hi => ?apart⟩
  case begins =>
    intro begin' s'
    have row : exec begin' s = .next (takeBegin key a (clampNat 1 1440 duration.toNat) (clampNat 1 8 repeats.toNat) s') :=
      receiverBegin_taken hr hs ha hh hk
    refine ⟨fun h => row.trans (congrArg Host.Outcome.next (takeBegin_known h)), fun hheld hrecent => ?_⟩
    have hnew : (∀ r ∈ s'.au.table, r.key ≠ key) ∧ key ∉ s'.au.recent := ⟨hheld, hrecent⟩
    refine ⟨fun hfull hlow => ?_, fun hlen => ?_⟩
    · have hrefused := admitAlert_refused (r := begunAlert key a duration repeats s') (s := s') hfull fun x hx hst =>
        Bool.eq_false_iff.2 fun habove => ?_
      · exact row.trans (congrArg Host.Outcome.next (takeBegin_new hnew hrefused))
      · have hlower := hlow x hx hst
        rcases (Alert.above_iff ..).1 habove with hlt | ⟨heq, hrank⟩
        · have hlt : a.ctorIdx < x.cls.ctorIdx := hlt
          rcases hlower with hl | ⟨rfl, -⟩ <;> omega
        · have heq : a = x.cls := heq
          have hrank : x.age < 0 ∨ (0 = x.age ∧ _) := hrank
          rcases hlower with hl | ⟨-, hl⟩
          · rw [heq] at hl
            omega
          · omega
    · let r₀ := begunAlert key a duration repeats s'
      let o := captureClips.find? (captureFree (admitAlert r₀ s').1)
      have hfree : alertOf s' r₀.id = none := nextAlertId_free (s := s') hlen
      obtain ⟨hkey, hid, horigin, hcls, hduration, hminutes, hrepeats, hremaining, hinterval, hage, hwait, -⟩ :=
        Alert.begun_keeps r₀ o
      refine ⟨nextSeq s', admittedSeq r₀ s', r₀.begun o, hfree, nextSeq_free (s := s'), admittedSeq_next (s := s') rfl, hkey,
        hid, horigin, hcls, hduration, hminutes, hrepeats, hremaining.trans hrepeats.symm, hinterval, hage, hwait, ?_⟩
      intro taken
      have admitted {v : State} {l : List Alert} (hu : admitAlert r₀ s' = (v, true)) (ht : v.au.table = l ++ [r₀])
          (hl : ∀ y ∈ l, y.id ≠ r₀.id) (room : FrameRoom v) (hlu : v.lu = s.lu) :
          taken { v with au := { v.au with table := l ++ [r₀.begun o] } } := by
        have ho : captureClips.find? (captureFree v) = o := by
          simp only [o]
          rw [hu]
        refine ⟨openedStore v o, row.trans (congrArg Host.Outcome.next ?_), fun hno => ?_, fun c hc hfreec low => ?_⟩
        · rw [takeBegin_admitted hnew rfl hu ht hl room ho _ rfl, hlu]
        · have hnone : o = none := by
            rw [← ho]
            exact List.find?_eq_none.2 fun c hc => Bool.eq_false_iff.1 (hno c (mem_captureClips.1 hc))
          rw [hnone]
          exact ⟨rfl, rfl, rfl, rfl⟩
        · have hsome : o = some c := by
            rw [← ho]
            exact captureClips_lowest hc hfreec low
          rw [hsome]
          exact ⟨rfl, rfl, rfl, rfl⟩
      refine ⟨fun hroom room => ?_, fun x hfull hlow hrank room => ?_⟩
      · have h := admitted (admitAlert_room (s := s') hroom) rfl (alertOf_none.1 hfree) room rfl
        have hown : (r₀.id / 256 == s'.settings.nodeId.val) = true := by
          have := (nextSeq s').isLt
          exact beq_iff_eq.2 (by show (s'.settings.nodeId.val * 256 + (nextSeq s').toNat) / 256 = _; omega)
        rw [addAlert_eq, hown] at h
        exact h
      · have habove : r₀.above x = true :=
          (Alert.above_iff ..).2 (hrank.imp (fun hlt => hlt) fun ⟨hc, ha, hi⟩ => ⟨hc.symm, .inr ⟨ha.symm, hi⟩⟩)
        obtain ⟨v, hu, hgives⟩ := admit_displaces (s := s') hfull.ge hlow habove
        obtain ⟨l, ht, hplace⟩ := hgives.replaced (r' := r₀.begun o) ⟨hid, hkey, hcls, horigin⟩
        have hl : l = s'.au.table.filter fun y => y.id != x.id := by
          rw [hgives.table room] at ht
          exact (List.append_cancel_right ht).symm
        refine ⟨_, hplace, admitted hu ht (fun y hy => ?_) (hgives.room room) hgives.keeps.2.2.1⟩
        rw [hl] at hy
        exact alertOf_none.1 hfree y (List.mem_of_mem_filter hy)
  case ends =>
    intro close s' d half
    have row : exec close s = .next (takeEnd key s') := receiverEnd_taken hr hs ha hh hk
    have hfind : ownByKey key s' = some r := ownByKey_only (s := s') hsole.1 hkey ho only
    refine ⟨fun hst => row.trans (congrArg Host.Outcome.next (takeEnd_other hfind hst)), fun hst hc =>
      ⟨post .alertCaptured [word r.id, word c, word half, wordFlag r.truncated, wordFlag r.noCapture]
        (closeCapture c half s'), ?_, ?_, ?_, ?_⟩⟩
    · refine row.trans (congrArg Host.Outcome.next ((takeEnd_closes hfind hst hc).trans ?_))
      have hau : Sole r (closeCapture c half s') ∧ FrameRoom (closeCapture c half s') := by
        rw [closeCapture_eq]
        exact ⟨hsole, room⟩
      refine (captureClosed_closed hau.1 hc hau.2 false).trans ?_
      rw [closeCapture_length, Bool.or_false]
    · have hat : clipAt (post .alertCaptured [word r.id, word c, word half, wordFlag r.truncated, wordFlag r.noCapture]
          (closeCapture c half s')) c = (d.cutTo half).sealed := closeCapture_at c half s'
      rw [hat, closeCapture_eq]
      rfl
    · exact closeCapture_at c half s'
    · rw [closeCapture_eq]
      rfl
  case bad =>
    intro n
    refine congrArg Host.Outcome.next ?_
    have hbytes : [0x7E#8, type, length] ++ body ++ [sum] = 0x7E#8 :: type :: length :: (body ++ [sum]) := rfl
    have hread : readMessage ⟨type, length, body, sum⟩ = none := readMessage_none (m := ⟨type, length, body, sum⟩) hbad
    rw [hbytes, receiverBytes_taken hr hs ha hh hlen, takeMessage_discards hread, receiverError_eq]
  case late =>
    intro n
    refine ⟨fun hn => congrArg Host.Outcome.next ?_, fun hn => congrArg Host.Outcome.next (receiverTimeout_waits hn), ?_⟩
    · rw [receiverTimeout_discards hh hn, receiverError_eq]
    · exact congrArg Host.Outcome.next (if_neg hh).symm
  case block =>
    intro d low bytes need closed
    have hbytes : bytes = capturedBytes input c s := by
      unfold capturedBytes
      rw [Nat.mul_comm]
      rfl
    have hlen : bytes.length ≤ 96 := by
      rw [hbytes]
      exact length_capturedBytes
    have closes {u : State} (hu : Sole r u) (hroom : FrameRoom u) (length : Nat) (hclock : u.clock = s.clock) :
        captureClosed r.id true (closeCapture c length u) = closed length u := by
      have hau : Sole r (closeCapture c length u) ∧ FrameRoom (closeCapture c length u) := by
        rw [closeCapture_eq]
        exact ⟨hu, hroom⟩
      refine (captureClosed_closed hau.1 hc hau.2 true).trans ?_
      rw [closeCapture_length, Bool.or_true, closeCapture_eq]
      simp only [closed]
      rw [← hclock]
      rfl
    clear_value closed
    clear_value bytes
    subst hbytes
    refine ⟨fun hshort => ?_, fun hfits hq hmap => ?_⟩
    · rw [captureTick_short hsole hc (by unfold fillFree fillNeed; omega)]
      exact closes hsole room _ rfl
    · have hroom : ¬ fillFree s < fillNeed (capturedBytes input c s).length := by
        unfold fillFree fillNeed
        omega
      obtain ⟨hcount, hall, hlast, hflat⟩ := fillChunks_runs c (capturedBytes input c s).length (capturedBytes input c s)
        (Nat.le_refl _)
      refine ⟨queueBytes c (capturedBytes input c s) s, fillRun c d.map d.queued (capturedBytes input c s).length,
        fillChunks c (capturedBytes input c s).length (capturedBytes input c s), ?_, queueBytes_frame .., rfl, rfl, rfl,
        fun k hk => fillRun_address c (by omega) hk ?_, hcount, hall, hlast, hflat, queueBytes_empty, queueBytes_waiting⟩
      · by_cases hfull : d.capacity * 2 ≤ d.queued + (capturedBytes input c s).length
        · rw [captureTick_full hsole hc hroom hfull, if_pos (by omega)]
          exact closes (u := queueBytes c (capturedBytes input c s) s) hsole room d.capacity rfl
        · rw [captureTick_goes hsole hc hroom hfull, if_neg (by omega)]
      · have hbelow : (capturedBytes input c s).length ≤ d.capacity * 2 - d.queued := by
          unfold capturedBytes
          rw [List.length_take]
          exact Nat.min_le_left ..
        omega
  case apart =>
    have hno : receiverBytes bytes s = s := if_neg fun h => by simp [ha] at h
    simp only [List.mem_cons, List.not_mem_nil, or_false] at hi
    rcases hi with rfl | rfl | rfl | rfl <;> exact congrArg Host.Outcome.next hno

end Sys2Proof.Machine
end

section
/-! SUPPORT. ALERT frames heard (R142 to R145, R151), and the settling of O48. -/

namespace Sys2Proof.Machine

/-! ## Holds that an effect brings about (R97) -/

section
variable {c : HoldCause} {f : State → State} {s : State}

theorem withHold_stands (h : c.stands s = true) : withHold c f s = f s :=
  if_neg fun ⟨hno, _⟩ => by rw [h] at hno; exact nomatch hno

/-- An effect that brings no hold cause about. -/
theorem withHold_quiet (h : c.stands (f s) = true → c.stands s = true) : withHold c f s = f s := by
  by_cases hs : c.stands s = true
  · exact withHold_stands hs
  · exact if_neg fun ⟨_, hf⟩ => hs (h hf)

theorem airing_iff : HoldCause.stands .alertAiring s = true ↔ ∃ x ∈ s.au.table, x.state = .airing := by
  simp [HoldCause.stands, airingHere]

theorem HoldFrame.player {s t : State} (h : HoldFrame s t) :
    t = { s with cp := t.cp, pu := t.pu, me := { s.me with playerEnvelope := t.me.playerEnvelope } } := by rw [h.frame]

/-- What a hold tells comes after what the effect tells. -/
theorem withHold_posted (c : HoldCause) (f : State → State) (s : State) : Posted (f s).cp (withHold c f s).cp := by
  unfold withHold
  dsimp only
  split
  · exact (takeHold_steady c false (.refl (f s))).posted
  · exact .refl _

theorem takeHold_apart (b : Bool) (h : s.settings.roles.playout = false) : takeHold c b s = s :=
  if_neg (Bool.eq_false_iff.1 h)

theorem withHold_apart (h : (f s).settings.roles.playout = false) : withHold c f s = f s := by
  unfold withHold
  dsimp only
  rw [takeHold_apart false h, ite_self]

end

/-! ## The player's cut and the table (R150) -/

section
variable {s : State}

theorem clipNamed_changed {id : Nat} {f : Alert → Alert} (hf : ∀ a, (f a).clip = a.clip) (c : Fin 256) (s : State) :
    clipNamed c (changeAlert id f s) = clipNamed c s := by
  have hmap : (changeAlert id f s).au.table.map Alert.clip = s.au.table.map Alert.clip := by
    refine (List.map_map ..).trans (List.map_congr_left fun a _ => ?_)
    show (if a.id = id then f a else a).clip = a.clip
    split
    · exact hf a
    · rfl
  have hany (u : State) : clipNamed c u = (u.au.table.map Alert.clip).any fun o => o == some c := by
    rw [List.any_map]
    rfl
  rw [hany, hany, hmap]

theorem voiceGiven_changed (id : Nat) (f : Alert → Alert) (s : State) :
    voiceGiven (changeAlert id f s) = changeAlert id f (voiceGiven s) := by
  unfold voiceGiven
  dsimp only
  rw [apply_ite (changeAlert id f)]
  rfl

theorem idleAlertPlayer_changed {id : Nat} {f : Alert → Alert} (hf : ∀ a, (f a).clip = a.clip) (s : State) :
    idleAlertPlayer (changeAlert id f s) = changeAlert id f (idleAlertPlayer s) := by
  cases h : s.au.player.clip with
  | none =>
    rw [idleAlertPlayer_none (s := changeAlert id f s) h, idleAlertPlayer_none h, voiceGiven_changed]
  | some c =>
    rw [idleAlertPlayer_some (s := changeAlert id f s) h, idleAlertPlayer_some h, clipNamed_changed hf, voiceGiven_changed]
    split <;> rfl

theorem cutAiring_changed {id n : Nat} {f : Alert → Alert} (hf : ∀ a, (f a).clip = a.clip) (s : State) :
    cutAiring n (changeAlert id f s) = changeAlert id f (cutAiring n s) := by
  unfold cutAiring
  rw [idleAlertPlayer_changed hf]
  have hplayer : (changeAlert id f s).au.player = s.au.player := rfl
  rw [hplayer]
  dsimp only
  split
  · split
    · rfl
    · split <;> rfl
  · rfl

end

/-! ## What a frame does to the table (R143, R144) -/

section
variable {b : AlertBody} {h : Alert} {s : State}

theorem takeAlertFrame_open (hb : b.ended = false) : takeAlertFrame b s = yieldTest b (trackAlert b s) := by
  rw [takeAlertFrame, hb]
  rfl

theorem takeAlertFrame_ended (hb : b.ended = true) : takeAlertFrame b s = takeEnded b s := by
  rw [takeAlertFrame, hb]
  rfl

theorem takeEnded_unknown (hno : alertOf s b.id = none) : takeEnded b s = s := by rw [takeEnded, hno]

theorem takeEnded_heard (hsole : Sole h s) (hid : h.id = b.id) (ho : h.id / 256 ≠ s.settings.nodeId.val) :
    takeEnded b s = { s with
      cp := s.cp.post ⟨.alertEnded, s.clock.blockCount, [word b.id, word (reasonCode b.reason)]⟩
      au := { s.au with
        table := s.au.table.filter fun x => x.id != b.id
        recent := if b.reason = some .complete ∨ b.reason = some .expired ∨ b.reason = some .cancelled then
          (s.au.recent ++ [h.key]).drop (s.au.recent.length + 1 - 8) else s.au.recent } } := by
  have hkeep : (if (b.reason.map keepsKey).getD false then joinRecent s.au.recent h.key else s.au.recent)
      = if b.reason = some .complete ∨ b.reason = some .expired ∨ b.reason = some .cancelled then
          (s.au.recent ++ [h.key]).drop (s.au.recent.length + 1 - 8) else s.au.recent := by
    have hjoin : joinRecent s.au.recent h.key = (s.au.recent ++ [h.key]).drop (s.au.recent.length + 1 - 8) := by
      rw [joinRecent, List.length_append]
      rfl
    rw [hjoin]
    refine if_congr ?_ rfl rfl
    cases b.reason with
    | none => simp
    | some r => cases r <;> simp [keepsKey]
  rw [takeEnded, alertOf_at hsole hid]
  dsimp only
  rw [own_false ho, if_neg Bool.false_ne_true, ← hkeep, ← hid]
  rfl

theorem trackAlert_known (hsole : Sole h s) (hid : h.id = b.id) (ho : h.id / 256 ≠ s.settings.nodeId.val)
    (hk : h.key = b.key) : trackAlert b s = postIf (b.state == .airing && h.state != .airing) .alertAiring [word b.id]
      (changeAlert h.id (fun _ => h.mirror b) s) := by
  rw [trackAlert, alertOf_at hsole hid]
  dsimp only
  rw [own_false ho, if_neg Bool.false_ne_true, if_pos hk, changeAlert_sole hsole rfl]

theorem trackAlert_rekeyed (hsole : Sole h s) (hid : h.id = b.id) (ho : h.id / 256 ≠ s.settings.nodeId.val)
    (hk : h.key ≠ b.key) : trackAlert b s = takeUnknown b (removeAlert h.id s) := by
  rw [trackAlert, alertOf_at hsole hid]
  dsimp only
  rw [own_false ho, if_neg Bool.false_ne_true, if_neg hk]

theorem trackAlert_unknown (hno : alertOf s b.id = none) : trackAlert b s = takeUnknown b s := by rw [trackAlert, hno]

theorem keyRecent_false {key : Word} (hr : key ∉ s.au.recent) : keyRecent key s = false := by
  rw [Bool.eq_false_iff]
  exact fun hc => hr (List.contains_iff_mem.1 hc)

theorem takeUnknown_recent (hr : b.key ∈ s.au.recent) : takeUnknown b s = s :=
  if_pos (List.contains_iff_mem.2 hr)

section
variable (hr : b.key ∉ s.au.recent)
include hr

theorem takeUnknown_new (hno : ∀ x ∈ s.au.table, x.key ≠ b.key) : takeUnknown b s = admitHeard b s := by
  have hfind : s.au.table.find? (fun r => r.key == b.key) = none :=
    List.find?_eq_none.2 fun x hx hk => hno x hx (beq_iff_eq.1 hk)
  rw [takeUnknown, keyRecent_false hr, if_neg Bool.false_ne_true, hfind]

variable (hmem : h ∈ s.au.table) (hk : h.key = b.key) (only : ∀ x ∈ s.au.table, x.key = b.key → x = h)
include hmem hk only

theorem takeUnknown_held : takeUnknown b s = if h.own s then settleDuplicate h b s
    else if b.id / 256 < h.id / 256 then admitHeard b (removeAlert h.id s) else s := by
  have hfind : s.au.table.find? (fun r => r.key == b.key) = some h :=
    find?_only hmem (beq_iff_eq.2 hk) fun x hx hxk => only x hx (beq_iff_eq.1 hxk)
  rw [takeUnknown, keyRecent_false hr, if_neg Bool.false_ne_true, hfind]

theorem takeUnknown_keeps (ho : h.id / 256 ≠ s.settings.nodeId.val) (hn : h.id / 256 ≤ b.id / 256) :
    takeUnknown b s = s := by
  rw [takeUnknown_held hr hmem hk only, own_false ho, if_neg Bool.false_ne_true, if_neg (Nat.not_lt.2 hn)]

theorem takeUnknown_gives (ho : h.id / 256 ≠ s.settings.nodeId.val) (hn : b.id / 256 < h.id / 256) :
    takeUnknown b s = admitHeard b (removeAlert h.id s) := by
  rw [takeUnknown_held hr hmem hk only, own_false ho, if_neg Bool.false_ne_true, if_pos hn]

theorem takeUnknown_own (ho : h.id / 256 = s.settings.nodeId.val) : takeUnknown b s = settleDuplicate h b s := by
  rw [takeUnknown_held hr hmem hk only, if_pos ((own_iff h s).2 ho)]

end

theorem settleDuplicate_lower (hn : b.id / 256 < s.settings.nodeId.val) :
    settleDuplicate h b s = admitHeard b (endAlert h.id .duplicate s) := if_pos hn

theorem settleDuplicate_higher (hn : s.settings.nodeId.val < b.id / 256) :
    settleDuplicate h b s = handAlertFrame h.id s :=
  (if_neg (Nat.not_lt.2 hn.le)).trans (if_pos hn)

theorem settleDuplicate_same (hn : b.id / 256 = s.settings.nodeId.val) : settleDuplicate h b s = s :=
  (if_neg (Nat.not_lt.2 hn.ge)).trans (if_neg (Nat.not_lt.2 hn.le))

theorem admitHeard_admitted {t : State} (ha : admitAlert (heardAlert b) s = (t, true)) :
    admitHeard b s = postIf (b.state == .airing) .alertAiring [word b.id] t := by
  rw [admitHeard, ha]
  rfl

theorem admitHeard_refused (ha : admitAlert (heardAlert b) s = (s, false)) :
    admitHeard b s = { s with au := { s.au with heardDropped := min 65535 (s.au.heardDropped + 1) } } := by
  rw [admitHeard, ha]
  rfl

theorem heardAlert_outranked (hlow : ∀ x ∈ s.au.table, x.state = .airing ∨ x.cls.ctorIdx < b.cls.ctorIdx
      ∨ (x.cls = b.cls ∧ (b.age < x.age ∨ (b.age = x.age ∧ x.id < b.id)))) :
    ∀ x ∈ s.au.table, x.state ≠ .airing → (heardAlert b).above x = false := by
  intro x hx hst
  refine Bool.eq_false_iff.2 fun habove => ?_
  rcases (Alert.above_iff ..).1 habove with hlt | ⟨heq, hrank⟩
  · have hlt : b.cls.ctorIdx < x.cls.ctorIdx := hlt
    rcases (hlow x hx).resolve_left hst with hl | ⟨heq, -⟩
    · omega
    · rw [heq] at hlt
      omega
  · have heq : b.cls = x.cls := heq
    have hrank : x.age < b.age ∨ (b.age = x.age ∧ b.id < x.id) := hrank
    rcases (hlow x hx).resolve_left hst with hl | ⟨-, hl⟩
    · rw [heq] at hl
      omega
    · omega

/-! ## Yielding (R151) -/

theorem yieldTest_quiet (hq : b.state = .airing → ∀ x ∈ s.au.table, x.id / 256 = s.settings.nodeId.val → x.state ≠ .airing) :
    yieldTest b s = s := by
  unfold yieldTest
  split
  case h_1 r hfind =>
    refine if_neg fun ⟨hb, _⟩ => ?_
    have hp := List.find?_some hfind
    rw [Bool.and_eq_true, own_iff, beq_iff_eq] at hp
    exact hq hb r (List.mem_of_find?_eq_some hfind) hp.1 hp.2
  case h_2 => rfl

/-- The node's own AIRING record. -/
def ownAired (s : State) : Option Alert := s.au.table.find? fun r => r.own s && r.state == .airing

section
variable {r : Alert}

theorem ownAired_iff {a : Alert} : (a.own s && a.state == .airing) = true
    ↔ a.id / 256 = s.settings.nodeId.val ∧ a.state = .airing := by
  rw [Bool.and_eq_true, own_iff, beq_iff_eq]

theorem ownAired_only (hmem : r ∈ s.au.table) (ho : r.id / 256 = s.settings.nodeId.val) (hst : r.state = .airing)
    (only : ∀ x ∈ s.au.table, x.id / 256 = s.settings.nodeId.val → x.state = .airing → x = r) : ownAired s = some r :=
  find?_only hmem (ownAired_iff.2 ⟨ho, hst⟩) fun x hx hp => only x hx (ownAired_iff.1 hp).1 (ownAired_iff.1 hp).2

/-- A record appended to the table comes behind the node's own AIRING record. -/
theorem ownAired_appended {g : Alert} {t : State} (h : ownAired s = some r) (ht : t.au.table = s.au.table ++ [g])
    (hs : t.settings = s.settings) : ownAired t = some r := by
  have hown (a : Alert) : a.own t = a.own s := by rw [Alert.own, Alert.own, hs]
  unfold ownAired at h ⊢
  simp only [hown]
  rw [ht, List.find?_append, h]
  rfl

theorem yieldTest_airing (hfind : ownAired s = some r) : yieldTest b s
    = if b.state = .airing ∧ ranksAbove b.cls b.age b.id r.cls r.age r.id then
      post .alertYielded [word r.id, word b.id] (handAlertFrame r.id (cutAiring r.id
        (changeAlert r.id (fun a => { a with state := .pending, testWait := 0 }) s))) else s := by
  unfold ownAired at hfind
  rw [yieldTest, hfind]

theorem yieldTest_lower (hfind : ownAired s = some r) (hn : ¬ ranksAbove b.cls b.age b.id r.cls r.age r.id = true) :
    yieldTest b s = s := by
  rw [yieldTest_airing hfind]
  exact if_neg fun hc => hn hc.2

theorem alertChanged_leaves (r r' : Alert) (s : State) :
    alertChanged r r' s = { s with tx := (alertChanged r r' s).tx, au := (alertChanged r r' s).au } := by
  unfold alertChanged
  split <;> rfl

theorem yieldTest_yields (hfind : ownAired s = some r) (hsole : Sole r s) (room : FrameRoom s) (hb : b.state = .airing)
    (hn : ranksAbove b.cls b.age b.id r.cls r.age r.id = true) : yieldTest b s
      = { alertChanged r { r with state := .pending, testWait := 0 } (cutAiring r.id s) with
        cp := s.cp.post ⟨.alertYielded, s.clock.blockCount, [word r.id, word b.id]⟩ } := by
  have hcut := (letGo_cut r.id s).frame
  have hcutSole : Sole r (cutAiring r.id s) ∧ FrameRoom (cutAiring r.id s) := by
    rw [hcut]
    exact ⟨hsole, room⟩
  have hr' : handAlertFrame r.id (changeAlert r.id (fun _ => { r with state := .pending, testWait := 0 }) (cutAiring r.id s))
      = alertChanged r { r with state := .pending, testWait := 0 } (cutAiring r.id s) :=
    handAlertFrame_changed hcutSole.1 hcutSole.2 rfl
  rw [yieldTest_airing hfind, if_pos ⟨hb, hn⟩, cutAiring_changed (f := fun a => { a with state := .pending, testWait := 0 })
    (fun _ => rfl), changeAlert_sole hcutSole.1 rfl, hr', alertChanged_leaves, hcut]
  rfl

theorem sole_kept {g : Alert} {t : State} (h : Sole r s) (hg : g.id ≠ r.id)
    (ht : t.au.table = s.au.table ++ [g] := by rfl) : Sole r t := by
  unfold Sole
  rw [ht]
  refine ⟨List.mem_append_left _ h.1, fun x hx hid => ?_⟩
  rcases List.mem_append.1 hx with hx | hx
  · exact h.2 x hx hid
  · exact absurd (List.mem_singleton.1 hx ▸ hid) hg

/-- The record of an AIRING that has just handed a frame yields as the record itself. -/
theorem alertChanged_fresh {r₀ : Alert} (h : r₀ = r ∨ (s.lu.state = .joined ∧ r₀ = { r with sinceFrame := 0 })) :
    alertChanged r₀ { r₀ with state := .pending, testWait := 0 } s
      = alertChanged r { r with state := .pending, testWait := 0 } s := by
  rcases h with rfl | ⟨hj, rfl⟩
  · rfl
  · rw [alertChanged_joined hj, alertChanged_joined hj]
    rfl

/-- A record whose frame is handed afresh. -/
theorem alertChanged_self (h : Alert) (s : State) : ∃ h' tx,
    (h' = h ∨ (s.lu.state = .joined ∧ h' = { h with sinceFrame := 0 }))
    ∧ (s.tx.control.length < 7 → tx.control.length < 8)
    ∧ alertChanged h h s = { s with
        tx := tx
        au := { s.au with table := s.au.table.map fun a => if a.id = h.id then h' else a } } := by
  by_cases hj : s.lu.state = .joined
  · rw [alertChanged_joined hj]
    refine ⟨{ h with sinceFrame := 0 }, _, .inr ⟨hj, rfl⟩, fun hlen => ?_, rfl⟩
    show (insertControl _ s.tx.control).length < 8
    rw [length_insertControl]
    omega
  · rw [alertChanged_apart hj]
    exact ⟨h, s.tx, .inl rfl, fun hlen => Nat.lt_succ_of_lt hlen, rfl⟩

end

/-! ## A frame taken without a hold (R97, R143) -/

/-- A frame whose effect on the table brings neither an airing about nor a yield. -/
theorem heardFrame_quiet {t : State} (hb : b.ended = false) (ht : trackAlert b s = t)
    (hq : b.state = .airing → ∀ x ∈ t.au.table, x.id / 256 = s.settings.nodeId.val → x.state ≠ .airing)
    (hold : ∀ x ∈ t.au.table, x.state = .airing → ∃ y ∈ s.au.table, y.state = .airing) :
    withHold .alertAiring (takeAlertFrame b) s = t := by
  have hset : t.settings = s.settings := by
    rw [← ht]
    exact (trackAlert_steady b (.refl s)).settings
  have htake : takeAlertFrame b s = t := by
    rw [takeAlertFrame_open hb, ht]
    exact yieldTest_quiet (by rw [hset]; exact hq)
  rw [withHold_quiet, htake]
  rw [htake]
  intro hst
  obtain ⟨x, hx, hair⟩ := airing_iff.1 hst
  exact airing_iff.2 (hold x hx hair)

theorem admitHeard_owed (hb : b.state ≠ .airing) : ∀ x ∈ (admitHeard b s).au.table, x.state = .airing →
    ∃ y ∈ s.au.table, y.state = .airing := by
  intro x hx hst
  have hx : x ∈ (admitAlert (heardAlert b) s).1.au.table ∨ x ∈ s.au.table := by
    unfold admitHeard at hx
    dsimp only at hx
    split at hx
    · rw [postIf_au] at hx
      exact .inl hx
    · exact .inr hx
  rcases hx with hx | hx
  · rcases admitAlert_owed (heardAlert b) s x hx with rfl | ⟨y, hy, howed⟩
    · exact absurd hst hb
    · exact ⟨y, hy, howed.same.2 ▸ hst⟩
  · exact ⟨x, hx, hst⟩

/-- A frame, not AIRING, whose alert is offered to admission. -/
theorem heardFrame_offered {u : State} (hb : b.ended = false) (hst : b.state ≠ .airing)
    (ht : trackAlert b s = admitHeard b u)
    (hold : ∀ x ∈ u.au.table, x.state = .airing → ∃ y ∈ s.au.table, y.state = .airing) :
    withHold .alertAiring (takeAlertFrame b) s = admitHeard b u := by
  refine heardFrame_quiet hb ht (fun h => absurd h hst) fun x hx hair => ?_
  obtain ⟨y, hy, hyair⟩ := admitHeard_owed hst x hx hair
  exact hold y hy hyair

end

theorem alertFrameReceived_taken {f : RxControl} {b : AlertBody} {s : State} (hl : s.lu.state ≠ .offline)
    (hr : s.lu.receiving = true) (hp : RxControl.passes f = true) (hk : f.kind = 2) (hn : f.node ≠ s.settings.nodeId)
    (hb : parseAlert f.body = some b) : exec (.alertFrameReceived f) s
      = .next (withHold .alertAiring (takeAlertFrame b) (endReceiving s)) := by
  have hkind : f.kind.toNat = 2 := by
    rw [hk]
    rfl
  have hother : fromOwnId f.node (endReceiving s) = false := fromOwnId_other hn
  refine congrArg Host.Outcome.next ?_
  unfold receiveAlert
  rw [receiveControl_hands hl hr hp hkind, hother, hb]

/-- Settles O48. -/
theorem alertFramesKeepHeardRecords : Obligations.AlertFramesKeepHeardRecords := by
  refine ⟨fun f b s hl hr hp hk hn hparse => ?heard, fun r s hsole => ⟨fun ho room => ⟨fun hj hlast => ?refreshes, fun h => ?kept⟩,
    fun ho => ⟨fun hsilent => ?removed, fun hsilent => ?stays⟩⟩⟩
  case heard =>
    intro s' out mirrors heard quiet admitted
    have row : out = .next (withHold .alertAiring (takeAlertFrame b) s') := alertFrameReceived_taken hl hr hp hk hn hparse
    clear_value out
    have whole (x : Alert) (hx : x ∈ s.au.table) (hair : x.state = .airing) : ∃ y ∈ s'.au.table, y.state = .airing :=
      ⟨x, hx, hair⟩
    have heardOne : heard (heardAlert b) := ⟨⟨rfl, rfl, rfl, rfl, rfl, rfl, rfl, rfl, rfl, rfl, rfl⟩, rfl, rfl, rfl⟩
    have room {u : State} (hst : b.state ≠ .airing) (hu : u.au.table.length < 4) (hclock : u.clock = s.clock)
        (hset : u.settings = s.settings) : admitHeard b u = admitted (heardAlert b) u := by
      have hnot : (b.state == .airing) = false := beq_eq_false_iff_ne.2 hst
      rw [admitHeard_admitted (admitAlert_room hu), hnot, addAlert_eq]
      simp only [admitted]
      rw [← hclock, ← hset]
      rfl
    refine ⟨fun hb hno => ?endedUnknown, fun r hb hsole hid ho => ?endedHeard, fun r hb hsole hid ho hkey hq => ?known,
      fun hb hno hrec hq => ?recent, fun hb hno hrec hst => ⟨fun hlen => ?newRoom, fun hlen hlow => ?newRefused,
      fun x hlen hlow hrank => ?newDisplaces⟩, fun h hb hsole hid ho hkey => ?rekeyed,
      fun h hb hno hrec hsole hkey only => ⟨fun ho hle hq => ?keeps, fun ho hlt hst => ?gives, fun ho hroom => ?own⟩,
      fun r hb hst hsole ho hair only hroom => ?airing⟩
    case endedUnknown =>
      have htake : takeAlertFrame b s' = s' := by
        rw [takeAlertFrame_ended hb]
        exact takeEnded_unknown (alertOf_none.2 hno)
      rw [row, withHold_quiet (by rw [htake]; exact fun h => h), htake]
    case endedHeard =>
      have htake := (takeAlertFrame_ended (s := s') hb).trans (takeEnded_heard (s := s') hsole hid ho)
      rw [row, withHold_quiet, htake]
      rw [htake]
      intro h
      obtain ⟨x, hx, hxair⟩ := airing_iff.1 h
      exact airing_iff.2 ⟨x, List.mem_of_mem_filter hx, hxair⟩
    case known =>
      let U := changeAlert r.id (fun _ => r.mirror b) s'
      have ht : trackAlert b s' = postIf (b.state == .airing && r.state != .airing) .alertAiring [word b.id] U :=
        trackAlert_known (s := s') hsole hid ho hkey
      have hmem : ∀ x ∈ U.au.table, x = r.mirror b ∨ x ∈ s.au.table := fun x hx => by
        obtain ⟨y, hy, rfl⟩ := List.mem_map.1 hx
        dsimp only
        split
        · exact .inl rfl
        · exact .inr hy
      have hquiet : b.state = .airing → ∀ x ∈ U.au.table, x.id / 256 = s.settings.nodeId.val → x.state ≠ .airing :=
        fun hair x hx hown => by
          rcases hmem x hx with rfl | hx
          · exact absurd hown ho
          · exact hq hair x hx hown
      have hframe : U = { s' with
          au := { s.au with table := s.au.table.map fun x => if x.id = b.id then r.mirror b else x } } := by
        rw [← hid]
        rfl
      have hmirrors : mirrors (r.mirror b) := ⟨rfl, rfl, rfl, rfl, rfl, rfl, rfl, rfl, rfl, rfl, rfl⟩
      by_cases hnew : b.state = .airing ∧ r.state ≠ .airing
      · have hcond : (b.state == .airing && r.state != .airing) = true :=
          Bool.and_eq_true_iff.2 ⟨beq_iff_eq.2 hnew.1, bne_iff_ne.2 hnew.2⟩
        rw [hcond] at ht
        have htake : takeAlertFrame b s' = post .alertAiring [word b.id] U := by
          rw [takeAlertFrame_open hb, ht]
          exact yieldTest_quiet (s := post .alertAiring [word b.id] U) hquiet
        have hhold := holdFrame_with .alertAiring (takeAlertFrame b) s'
        have hposted := withHold_posted .alertAiring (takeAlertFrame b) s'
        rw [htake] at hhold hposted
        refine ⟨r.mirror b, _, row, hmirrors, rfl, rfl, rfl, ?_, fun h => absurd h ?_, fun _ _ => ⟨hposted, fun hp => ?_⟩⟩
        · rw [hhold.player]
          rw [hframe]
          rfl
        · exact fun h => h.elim (fun h => h hnew.1) hnew.2
        · rw [withHold_apart (by rw [htake]; exact hp), htake]
          exact ⟨rfl, rfl, rfl⟩
      · have hcond : (b.state == .airing && r.state != .airing) = false := by
          rw [Bool.eq_false_iff, ne_eq, Bool.and_eq_true, beq_iff_eq, bne_iff_ne]
          exact hnew
        rw [hcond] at ht
        refine ⟨r.mirror b, U, ?_, hmirrors, rfl, rfl, rfl, hframe, fun _ => ⟨rfl, rfl, rfl⟩, fun h h' => absurd ⟨h, h'⟩ hnew⟩
        have hold : ∀ x ∈ U.au.table, x.state = .airing → ∃ y ∈ s'.au.table, y.state = .airing := fun x hx hair => by
          rcases hmem x hx with rfl | hx
          · exact ⟨r, hsole.1, Classical.not_not.1 fun hne => hnew ⟨hair, hne⟩⟩
          · exact ⟨x, hx, hair⟩
        rw [row, heardFrame_quiet (t := U) hb ht hquiet hold]
    case recent =>
      have ht := (trackAlert_unknown (s := s') (alertOf_none.2 hno)).trans (takeUnknown_recent hrec)
      rw [row, heardFrame_quiet hb ht hq whole]
    case newRoom =>
      have ht := (trackAlert_unknown (s := s') (alertOf_none.2 fun x hx => (hno x hx).1)).trans
        (takeUnknown_new hrec fun x hx => (hno x hx).2)
      exact ⟨heardAlert b, heardOne, by rw [row, heardFrame_offered hb hst ht whole, room (u := s') hst hlen rfl rfl]⟩
    case newRefused =>
      have ht := (trackAlert_unknown (s := s') (alertOf_none.2 fun x hx => (hno x hx).1)).trans
        (takeUnknown_new hrec fun x hx => (hno x hx).2)
      rw [row, heardFrame_offered hb hst ht whole, admitHeard_refused (s := s')
        (admitAlert_refused (s := s') hlen (heardAlert_outranked hlow))]
    case newDisplaces =>
      have ht := (trackAlert_unknown (s := s') (alertOf_none.2 fun x hx => (hno x hx).1)).trans
        (takeUnknown_new hrec fun x hx => (hno x hx).2)
      have habove : (heardAlert b).above x = true :=
        (Alert.above_iff ..).2 (hrank.imp (fun hlt => hlt) fun ⟨hc, hr⟩ => ⟨hc.symm, hr.imp id fun ⟨ha, hi⟩ => ⟨ha.symm, hi⟩⟩)
      obtain ⟨t, hu, hgives⟩ := admit_displaces (s := s') hlen hlow habove
      have hnot : (b.state == .airing) = false := beq_eq_false_iff_ne.2 hst
      refine ⟨heardAlert b, t, heardOne, hgives, ?_⟩
      rw [row, heardFrame_offered hb hst ht whole, admitHeard_admitted hu, hnot]
      rfl
    case rekeyed =>
      intro left
      have hleft : removeAlert h.id s' = left := by
        simp only [left]
        rw [← hid]
        rfl
      have ht := trackAlert_rekeyed (s := s') hsole hid ho hkey
      rw [hleft] at ht
      have hin (x : Alert) (hx : x ∈ left.au.table) : x ∈ s.au.table := List.mem_of_mem_filter hx
      refine ⟨fun hrec hq => ?_, fun hrec hno hlen hst => ⟨heardAlert b, heardOne, ?_⟩⟩
      · rw [takeUnknown_recent (s := left) hrec] at ht
        rw [row, heardFrame_quiet hb ht (fun hair x hx => hq hair x (hin x hx)) fun x hx hair => ⟨x, hin x hx, hair⟩]
      · rw [takeUnknown_new (s := left) hrec fun x hx => hno x (hin x hx)] at ht
        rw [row, heardFrame_offered hb hst ht fun x hx hair => ⟨x, hin x hx, hair⟩, room hst hlen rfl rfl]
    case keeps =>
      have ht := (trackAlert_unknown (s := s') (alertOf_none.2 hno)).trans
        (takeUnknown_keeps hrec hsole.1 hkey only ho hle)
      rw [row, heardFrame_quiet hb ht hq whole]
    case gives =>
      intro left hlen
      have ht : trackAlert b s' = admitHeard b left := (trackAlert_unknown (s := s') (alertOf_none.2 hno)).trans
        (takeUnknown_gives hrec hsole.1 hkey only ho hlt)
      have hin (x : Alert) (hx : x ∈ left.au.table) : x ∈ s.au.table := List.mem_of_mem_filter hx
      refine ⟨heardAlert b, heardOne, ?_⟩
      rw [row, heardFrame_offered hb hst ht fun x hx hair => ⟨x, hin x hx, hair⟩, room hst hlen rfl rfl]
    case own =>
      have ht : trackAlert b s' = settleDuplicate h b s' := (trackAlert_unknown (s := s') (alertOf_none.2 hno)).trans
        (takeUnknown_own hrec hsole.1 hkey only ho)
      refine ⟨fun hlt hq => ?_, fun heq hq => ?_, fun hlt hst hlen => ?_⟩
      · rw [settleDuplicate_higher (s := s') hlt, handAlertFrame_sole (s := s') hsole hroom] at ht
        obtain ⟨h', tx, hh', -, hchanged⟩ := alertChanged_self h s'
        have hsame : h'.id = h.id ∧ h'.state = h.state := by
          rcases hh' with rfl | ⟨-, rfl⟩ <;> exact ⟨rfl, rfl⟩
        have hin (x : Alert) (hx : x ∈ (alertChanged h h s').au.table) : ∃ y ∈ s.au.table, y.id = x.id ∧ y.state = x.state := by
          rw [hchanged] at hx
          obtain ⟨y, hy, rfl⟩ := List.mem_map.1 hx
          split
          · exact ⟨h, hsole.1, hsame.1.symm, hsame.2.symm⟩
          · exact ⟨y, hy, rfl, rfl⟩
        have hquiet : b.state = .airing → ∀ x ∈ (alertChanged h h s').au.table, x.id / 256 = s'.settings.nodeId.val →
            x.state ≠ .airing := fun hair x hx hown => by
          obtain ⟨y, hy, hid, hst⟩ := hin x hx
          rw [← hst]
          exact hq hair y hy (by rw [hid]; exact hown)
        have hold : ∀ x ∈ (alertChanged h h s').au.table, x.state = .airing → ∃ y ∈ s'.au.table, y.state = .airing :=
          fun x hx hair => by
            obtain ⟨y, hy, -, hst⟩ := hin x hx
            exact ⟨y, hy, hst.trans hair⟩
        rw [row, heardFrame_quiet hb ht hquiet hold]
      · rw [settleDuplicate_same (s := s') heq] at ht
        rw [row, heardFrame_quiet hb ht hq whole]
      · rw [settleDuplicate_lower (s := s') hlt] at ht
        have hended := alertEnded h .duplicate s' hsole
        have hsteady := endAlert_steady h.id .duplicate (.refl s')
        refine ⟨heardAlert b, _, heardOne, hended, ?_⟩
        have hlen : (endAlert h.id .duplicate s').au.table.length < 4 := by
          rw [(hended.handed hroom).1]
          have : (s'.au.table.filter fun x => x.id != h.id).length < s'.au.table.length :=
            List.length_filter_lt_length_iff_exists.2 ⟨h, hsole.1, by simp⟩
          exact Nat.lt_of_lt_of_le this hlen
        have hold : ∀ x ∈ (endAlert h.id .duplicate s').au.table, x.state = .airing → ∃ y ∈ s'.au.table, y.state = .airing :=
          fun x hx hair => by
            obtain ⟨y, hy, howed⟩ := endAlert_owed h.id .duplicate s' x hx
            exact ⟨y, hy, howed.same.2 ▸ hair⟩
        rw [row, heardFrame_offered hb hst ht hold, room hst hlen hsteady.clock hsteady.settings]
    case airing =>
      intro higher aired yields
      have hhigher : ranksAbove b.cls b.age b.id r.cls r.age r.id = true ↔ higher := by
        rw [ranksAbove_iff]
        exact or_congr Iff.rfl (and_congr Iff.rfl (or_congr Iff.rfl (and_congr eq_comm Iff.rfl)))
      have hout : out = .next (yieldTest b (trackAlert b s')) := by
        rw [row, withHold_stands (s := s') (airing_iff.2 ⟨r, hsole.1, hair⟩), takeAlertFrame_open hb]
      have yields_of {u : State} {r₀ : Alert} (ht : trackAlert b s' = u) (hfind : ownAired u = some r₀) (hsole₀ : Sole r₀ u)
          (hr₀ : r₀ = r ∨ (u.lu.state = .joined ∧ r₀ = { r with sinceFrame := 0 })) (room : FrameRoom u) : yields u := by
        have hclock : u.clock = s.clock := by
          rw [← ht]
          exact (trackAlert_steady b (.refl s')).clock
        have hsame : r₀.cls = r.cls ∧ r₀.age = r.age ∧ r₀.id = r.id := by
          rcases hr₀ with rfl | ⟨-, rfl⟩ <;> exact ⟨rfl, rfl, rfl⟩
        obtain ⟨hcls, hage, hid⟩ := hsame
        rw [← hcls, ← hage, ← hid] at hhigher
        refine ⟨fun hn => ?_, fun hh => ⟨cutAiring r.id u, airingCut r.id u, ?_⟩⟩
        · rw [hout, ht, yieldTest_lower hfind fun h => hn (hhigher.1 h)]
        · have hcut : (cutAiring r₀.id u).lu = u.lu := by rw [(letGo_cut r₀.id u).frame]
          rw [hout, ht, yieldTest_yields hfind hsole₀ room hst (hhigher.2 hh), hclock,
            alertChanged_fresh (r := r) (r₀ := r₀) (by rw [hcut]; exact hr₀), hid]
      have hfind : ownAired s' = some r := ownAired_only (s := s') hsole.1 ho hair only
      have hpost : (b.state == .airing) = true := beq_iff_eq.2 hst
      have hadmitted {u : State} (hu : u.au.table.length < 4) (hclock : u.clock = s.clock) (hset : u.settings = s.settings) :
          admitHeard b u = aired (admitted (heardAlert b) u) := by
        rw [admitHeard_admitted (admitAlert_room hu), hpost, addAlert_eq]
        simp only [admitted, aired]
        rw [← hclock, ← hset]
        rfl
      refine ⟨fun h hh hid hho hkey => ?known, fun hno hrec hlen => ?newRoom, fun hno hrec hlen hlow => ?newRefused,
        fun hno hrec => ?recent, fun h hno hrec hh hkey honly => ⟨fun hho hle => ?keeps, fun hho heq => ?same,
        fun hho hlt rooms => ?fresh⟩, fun h hh hid hho hkey => ?rekeyed⟩
      case known =>
        let U := changeAlert h.id (fun _ => h.mirror b) s'
        have ht : trackAlert b s' = postIf (b.state == .airing && h.state != .airing) .alertAiring [word b.id] U :=
          trackAlert_known (s := s') hh hid hho hkey
        have hne : r.id ≠ h.id := fun heq => hho (heq ▸ ho)
        have hmem : r ∈ U.au.table := List.mem_map.2 ⟨r, hsole.1, if_neg hne⟩
        have hin : ∀ x ∈ U.au.table, x = h.mirror b ∨ x ∈ s.au.table := fun x hx => by
          obtain ⟨y, hy, rfl⟩ := List.mem_map.1 hx
          dsimp only
          split
          · exact .inl rfl
          · exact .inr hy
        have hfindU : ownAired U = some r := ownAired_only hmem ho hair fun x hx hxo hxa => by
          rcases hin x hx with rfl | hx
          · exact absurd hxo hho
          · exact only x hx hxo hxa
        have hsoleU : Sole r U := ⟨hmem, fun x hx hxid => by
          rcases hin x hx with rfl | hx
          · exact absurd hxid.symm hne
          · exact hsole.2 x hx hxid⟩
        have hframe : U = { s' with
            au := { s.au with table := s.au.table.map fun x => if x.id = b.id then h.mirror b else x } } := by
          rw [← hid]
          rfl
        refine ⟨h.mirror b, ⟨rfl, rfl, rfl, rfl, rfl, rfl, rfl, rfl, rfl, rfl, rfl⟩, rfl, rfl, rfl, ?_⟩
        intro u
        have hu : u = U := hframe.symm
        clear_value u
        subst hu
        by_cases hhair : h.state = .airing
        · have hcond : (b.state == .airing && h.state != .airing) = false := by
            rw [hhair]
            exact Bool.and_false _
          rw [hcond] at ht
          rw [if_pos hhair]
          exact yields_of ht hfindU hsoleU (.inl rfl) hroom
        · have hcond : (b.state == .airing && h.state != .airing) = true :=
            Bool.and_eq_true_iff.2 ⟨hpost, bne_iff_ne.2 hhair⟩
          rw [hcond] at ht
          rw [if_neg hhair]
          exact yields_of (u := aired U) ht hfindU hsoleU (.inl rfl) hroom
      case newRoom =>
        have ht := (trackAlert_unknown (s := s') (alertOf_none.2 fun x hx => (hno x hx).1)).trans
          ((takeUnknown_new (s := s') hrec fun x hx => (hno x hx).2).trans (hadmitted (u := s') hlen rfl rfl))
        exact ⟨heardAlert b, heardOne, yields_of ht (ownAired_appended hfind rfl rfl)
          (sole_kept hsole (hno r hsole.1).1.symm) (.inl rfl) hroom⟩
      case newRefused =>
        have ht := (trackAlert_unknown (s := s') (alertOf_none.2 fun x hx => (hno x hx).1)).trans
          ((takeUnknown_new (s := s') hrec fun x hx => (hno x hx).2).trans
            (admitHeard_refused (s := s') (admitAlert_refused (s := s') hlen (heardAlert_outranked hlow))))
        exact yields_of ht hfind hsole (.inl rfl) hroom
      case recent =>
        exact yields_of ((trackAlert_unknown (s := s') (alertOf_none.2 hno)).trans (takeUnknown_recent hrec)) hfind hsole
          (.inl rfl) hroom
      case keeps =>
        exact yields_of ((trackAlert_unknown (s := s') (alertOf_none.2 hno)).trans
          (takeUnknown_keeps hrec hh.1 hkey honly hho hle)) hfind hsole (.inl rfl) hroom
      case same =>
        exact yields_of ((trackAlert_unknown (s := s') (alertOf_none.2 hno)).trans
          ((takeUnknown_own (s := s') hrec hh.1 hkey honly hho).trans (settleDuplicate_same (s := s') heq))) hfind hsole (.inl rfl) hroom
      case fresh =>
        have ht : trackAlert b s' = alertChanged h h s' := (trackAlert_unknown (s := s') (alertOf_none.2 hno)).trans
          ((takeUnknown_own (s := s') hrec hh.1 hkey honly hho).trans ((settleDuplicate_higher (s := s') hlt).trans
            (handAlertFrame_sole (s := s') hh hroom)))
        obtain ⟨h', tx, hh', hlen, hchanged⟩ := alertChanged_self h s'
        have hsame : h'.id = h.id ∧ h'.state = h.state := by
          rcases hh' with rfl | ⟨-, rfl⟩ <;> exact ⟨rfl, rfl⟩
        let r₀ := if r.id = h.id then h' else r
        have hmem : r₀ ∈ (alertChanged h h s').au.table := by
          rw [hchanged]
          exact List.mem_map.2 ⟨r, hsole.1, rfl⟩
        have hr₀ : r₀ = r ∨ ((alertChanged h h s').lu.state = .joined ∧ r₀ = { r with sinceFrame := 0 }) := by
          rw [hchanged]
          by_cases hid : r.id = h.id
          · obtain rfl := hh.2 r hsole.1 hid
            simp only [r₀, if_pos]
            exact hh'
          · exact .inl (if_neg hid)
        have hkeep : r₀.id = r.id ∧ r₀.state = r.state := by
          rcases hr₀ with h | ⟨-, h⟩ <;> rw [h] <;> exact ⟨rfl, rfl⟩
        have hin : ∀ x ∈ (alertChanged h h s').au.table, ∃ y ∈ s.au.table, x = (if y.id = h.id then h' else y)
            ∧ x.id = y.id ∧ x.state = y.state := fun x hx => by
          rw [hchanged] at hx
          obtain ⟨y, hy, rfl⟩ := List.mem_map.1 hx
          refine ⟨y, hy, rfl, ?_⟩
          split
          · next hid =>
            obtain rfl := hh.2 y hy hid
            exact hsame
          · exact ⟨rfl, rfl⟩
        refine yields_of ht (ownAired_only hmem ?_ (hkeep.2.trans hair) fun x hx hxo hxa => ?_) ⟨hmem, fun x hx hxid => ?_⟩ hr₀ ?_
        · rw [hkeep.1, hchanged]
          exact ho
        · obtain ⟨y, hy, rfl, hid, hyst⟩ := hin x hx
          rw [hid, hchanged] at hxo
          obtain rfl := only y hy hxo (hyst.symm.trans hxa)
          rfl
        · obtain ⟨y, hy, rfl, hid, -⟩ := hin x hx
          obtain rfl := hsole.2 y hy (hid.symm.trans (hxid.trans hkeep.1))
          rfl
        · rw [hchanged]
          exact fun hj => hlen (rooms hj)
      case rekeyed =>
        intro left
        have hleft : removeAlert h.id s' = left := by
          simp only [left]
          rw [← hid]
          rfl
        have ht := trackAlert_rekeyed (s := s') hh hid hho hkey
        rw [hleft] at ht
        have hne : r.id ≠ b.id := fun heq => hho (by rw [hid, ← heq]; exact ho)
        have hmem : r ∈ left.au.table := List.mem_filter.2 ⟨hsole.1, bne_iff_ne.2 hne⟩
        have hin (x : Alert) (hx : x ∈ left.au.table) : x ∈ s.au.table := List.mem_of_mem_filter hx
        have hsoleLeft : Sole r left := ⟨hmem, fun x hx => hsole.2 x (hin x hx)⟩
        have hfindLeft : ownAired left = some r := ownAired_only hmem ho hair fun x hx => only x (hin x hx)
        refine ⟨fun hrec => yields_of (ht.trans (takeUnknown_recent (s := left) hrec)) hfindLeft hsoleLeft (.inl rfl) hroom,
          fun hrec hno hlen => ⟨heardAlert b, heardOne, ?_⟩⟩
        exact yields_of (ht.trans ((takeUnknown_new (s := left) hrec fun x hx => hno x (hin x hx)).trans
          (hadmitted hlen rfl rfl))) (ownAired_appended hfindLeft rfl rfl) (sole_kept hsoleLeft hne.symm) (.inl rfl) hroom
  case refreshes =>
    refine congrArg Host.Outcome.next ?_
    rw [refreshFrame, alertOf_sole hsole]
    exact (if_pos ⟨(own_iff r s).2 ho, joined_iff.2 hj, hlast⟩).trans (handAlertFrame_sole hsole room)
  case kept =>
    refine congrArg Host.Outcome.next ?_
    rw [refreshFrame, alertOf_sole hsole]
    refine if_neg fun ⟨_, hj, hlast⟩ => ?_
    exact h.elim (fun h => h (joined_iff.1 hj)) fun h => Nat.not_le.2 h hlast
  case removed =>
    refine congrArg Host.Outcome.next ?_
    rw [silentRemoval, alertOf_sole hsole]
    exact if_pos ⟨own_false ho, hsilent⟩
  case stays =>
    refine congrArg Host.Outcome.next ?_
    rw [silentRemoval, alertOf_sole hsole]
    exact if_neg fun hc => Nat.not_le.2 hsilent hc.2

end Sys2Proof.Machine
end

section
/-! SUPPORT. The airing of an own record and the alert player (R132, R146 to R150), and the settling of O49. -/

namespace Sys2Proof.Machine

/-! ## The candidate for an airing (R132, R146) -/

theorem AlertClass.code_inj {a b : AlertClass} : a = b ↔ a.ctorIdx = b.ctorIdx := by
  refine ⟨congrArg _, fun h => Option.some.inj ?_⟩
  rw [← classOf_code a, h, classOf_code]

/-- What does not outrank a record does not outrank one that the record does not outrank. -/
theorem Alert.above_false_trans {a b c : Alert} (h : a.above b = false) (k : b.above c = false) : a.above c = false := by
  rw [Bool.eq_false_iff, ne_eq, Alert.above_iff, AlertClass.code_inj] at h k ⊢
  omega

/-- The fold that keeps the higher of two elements ends at one that none outranks. -/
theorem foldHighest_top {α : Type} {above : α → α → Bool} (self : ∀ a, above a a = false)
    (asymm : ∀ a b, above b a = true → above a b = false)
    (trans : ∀ {a b c}, above a b = false → above b c = false → above a c = false) (l : List α) (a : α) :
    ∀ x ∈ a :: l, above x (l.foldl (fun m b => if above b m then b else m) a) = false := by
  induction l generalizing a with
  | nil =>
    intro x hx
    rw [List.mem_singleton.1 hx]
    exact self a
  | cons b l ih =>
    intro x hx
    have hchosen := ih (if above b a then b else a) _ List.mem_cons_self
    have hpair : above a (if above b a then b else a) = false ∧ above b (if above b a then b else a) = false := by
      split
      · next hab => exact ⟨asymm a b hab, self b⟩
      · next hab => exact ⟨self a, Bool.eq_false_iff.2 hab⟩
    rw [List.foldl_cons]
    rcases List.mem_cons.1 hx with rfl | hx
    · exact trans hpair.1 hchosen
    · rcases List.mem_cons.1 hx with rfl | hx
      · exact trans hpair.2 hchosen
      · exact ih _ x (List.mem_cons_of_mem _ hx)

theorem highestAlert_top {l : List Alert} {r : Alert} (h : highestAlert l = some r) :
    r ∈ l ∧ ∀ x ∈ l, x.above r = false := by
  cases l with
  | nil => exact nomatch h
  | cons a l =>
    obtain rfl := Option.some.inj h
    exact ⟨foldl_choice_mem (fun m b => Alert.above b m) l a,
      foldHighest_top Alert.above_self Alert.above_asymm Alert.above_false_trans l a⟩

section
variable {r : Alert} {s : State}

theorem pendingOwn_iff {a : Alert} : (a.own s && a.state == .pending) = true
    ↔ a.id / 256 = s.settings.nodeId.val ∧ a.state = .pending := by
  rw [Bool.and_eq_true, own_iff, beq_iff_eq]

theorem candidate_none : candidate s = none ↔ ∀ x ∈ s.au.table, x.id / 256 = s.settings.nodeId.val → x.state ≠ .pending := by
  have hnil : candidate s = none ↔ (s.au.table.filter fun r => r.own s && r.state == .pending) = [] := by
    unfold candidate
    cases s.au.table.filter fun r => r.own s && r.state == .pending with
    | nil => exact ⟨fun _ => rfl, fun _ => rfl⟩
    | cons a l => exact ⟨nofun, nofun⟩
  rw [hnil, List.filter_eq_nil_iff]
  exact forall₂_congr fun x _ => by rw [pendingOwn_iff, not_and]

theorem candidate_top (h : candidate s = some r) : r ∈ s.au.table ∧ r.id / 256 = s.settings.nodeId.val ∧ r.state = .pending
    ∧ ∀ x ∈ s.au.table, x.id / 256 = s.settings.nodeId.val → x.state = .pending → x.above r = false := by
  obtain ⟨hmem, htop⟩ := highestAlert_top h
  obtain ⟨hmem, hp⟩ := List.mem_filter.1 hmem
  obtain ⟨ho, hst⟩ := pendingOwn_iff.1 hp
  exact ⟨hmem, ho, hst, fun x hx hxo hxs => htop x (List.mem_filter.2 ⟨hx, pendingOwn_iff.2 ⟨hxo, hxs⟩⟩)⟩

/-! ## The start of an airing (R146, R147) -/

theorem startOpen_iff : startOpen s = true ↔ (∀ x ∈ s.au.table, x.state ≠ .airing) ∧ s.cu.inForce ≠ some .alert
    ∧ s.au.player.state = .idle := by
  rw [startOpen, Bool.and_eq_true, Bool.and_eq_true, Bool.not_eq_true', bne_iff_ne, beq_iff_eq, and_assoc]
  simp [airingHere]

theorem testHeldBack_iff : testHeldBack r s = true ↔ r.cls = .test ∧ s.cu.inForce = some .live ∧ r.testWait < 900000 := by
  rw [testHeldBack, Bool.and_eq_true, Bool.and_eq_true, beq_iff_eq, beq_iff_eq, decide_eq_true_iff, and_assoc]

theorem startAlert_none (h : candidate s = none) : startAlert s = s := by rw [startAlert, h]

theorem startTick_none (h : candidate s = none) : startTick s = s := by rw [startTick, h]

theorem startAlert_begins (h : candidate s = some r) (ho : startOpen s = true) (ht : ¬ testHeldBack r s = true) :
    startAlert s = beginAiring r s := by
  rw [startAlert, h]
  exact if_pos ⟨ho, Bool.eq_false_iff.2 ht⟩

theorem startAlert_waits (h : candidate s = some r) (hno : ¬ (startOpen s = true ∧ ¬ testHeldBack r s = true)) :
    startAlert s = s := by
  rw [startAlert, h]
  exact if_neg fun hc => hno ⟨hc.1, Bool.eq_false_iff.1 hc.2⟩

theorem startTick_held (h : candidate s = some r) (hw : startOpen s = true ∧ testHeldBack r s = true) :
    startTick s = changeAlert r.id (fun a => { a with testWait := a.testWait + 1 }) s := by
  rw [startTick, h]
  exact if_pos hw

theorem startTick_starts (h : candidate s = some r) (hw : ¬ (startOpen s = true ∧ testHeldBack r s = true)) :
    startTick s = startAlert s := by
  rw [startTick, h]
  exact if_neg hw

/-- The state in which an airing begins, but for the record and its frame (R147). -/
def toneTaken (r : Alert) (s : State) : State :=
  { s with
    au := { s.au with player := { AlertPlayer.reset with
      state := .tone, alert := some r.id, underruns := s.au.player.underruns } }
    tg := { s.tg with voices := s.tg.voices.put 0 (grantedVoice .alertUnit true s.settings.attentionF1
      s.settings.attentionF2 s.settings.attentionLevel) }
    me := { s.me with alertEnvelope := s.me.alertEnvelope.giveEnvelope 4096 0 } }

theorem beginAiring_eq (h : Sole r s) (room : FrameRoom s) : beginAiring r s
    = { alertChanged r { r with state := .airing, phase := .attention, phaseCount := 0 } (toneTaken r s) with
      cp := s.cp.post ⟨.alertAiring, s.clock.blockCount, [word r.id]⟩ } := by
  unfold beginAiring
  dsimp only
  rw [changeAlert_sole h rfl, handAlertFrame_changed (r' := { r with
    state := .airing, phase := .attention, phaseCount := 0 }) h room rfl]
  by_cases hj : s.lu.state = .joined
  · rw [alertChanged_joined hj, alertChanged_joined (s := toneTaken r s) hj]
    rfl
  · rw [alertChanged_apart hj, alertChanged_apart (s := toneTaken r s) hj]
    rfl

end

/-! ## The phases of an airing (R147 to R149) -/

section
variable {r : Alert} {s : State}

theorem handAlertFrame_applied {f : Alert → Alert} (h : Sole r s) (room : FrameRoom s) (hid : (f r).id = r.id) :
    handAlertFrame r.id (changeAlert r.id f s) = alertChanged r (f r) s := by
  rw [changeAlert_sole h rfl]
  exact handAlertFrame_changed h room hid

theorem airedRecord_sole (h : Sole r s) (hx : s.au.player.alert = some r.id) (hst : r.state = .airing) :
    airedRecord s = some r := by
  rw [airedRecord, hx, Option.bind_some, alertOf_sole h]
  exact Option.filter_some_pos (beq_iff_eq.2 hst)

theorem messageClip_eq (r : Alert) (s : State) : messageClip r s = r.clip.bind fun c =>
    if 0 < (clipAt s c).length then some c else none := by
  unfold messageClip
  cases r.clip with
  | none => rfl
  | some c =>
    by_cases h : 0 < (clipAt s c).length
    · simp [Option.filter, h]
    · simp [Option.filter, h]

theorem endAttention_acts (ha : airedRecord s = some r) (h : s.au.player.state = .tone ∧ r.phase = .attention
    ∧ s.settings.attentionLength ≤ r.phaseCount) : endAttention s = handAlertFrame r.id (changeAlert r.id
      (fun a => { a with phase := .gap, phaseCount := 0 }) { s with
        cs := { s.cs with asked := 0 }
        au := { s.au with player := { s.au.player with
          state := .silent, clip := messageClip r s, position := 0, fetchPosition := 0, buffer := [] } }
        tg := { s.tg with voices := s.tg.voices.put 0 (Tab.at s.tg.voices 0).release } }) := by
  rw [endAttention, ha]
  exact if_pos h

theorem endAttention_waits (h : ∀ r, airedRecord s = some r → ¬ (s.au.player.state = .tone ∧ r.phase = .attention
    ∧ s.settings.attentionLength ≤ r.phaseCount)) : endAttention s = s := by
  unfold endAttention
  split
  case h_1 r ha => exact if_neg (h r ha)
  case h_2 => rfl

theorem endGap_waits (h : ∀ r, airedRecord s = some r → ¬ (s.au.player.state = .silent ∧ r.phase = .gap
    ∧ 500 ≤ r.phaseCount)) : endGap s = s := by
  unfold endGap
  split
  case h_1 r ha => exact if_neg (h r ha)
  case h_2 => rfl

theorem endGap_acts (ha : airedRecord s = some r) (h : s.au.player.state = .silent ∧ r.phase = .gap
    ∧ 500 ≤ r.phaseCount) : endGap s = if s.au.player.clip.isSome then
      handAlertFrame r.id (changeAlert r.id (fun a => { a with phase := .message })
        (giveAlertEnvelope 4096 0 (setAlertPlayer { s.au.player with state := .message } s)))
      else completeAiring r.id s := by
  rw [endGap, ha]
  exact if_pos h

/-- What the alert player's becoming IDLE leaves of the table and the control queue. -/
theorem idle_sole (h : Sole r s) (room : FrameRoom s) :
    Sole r (idleAlertPlayer s) ∧ FrameRoom (idleAlertPlayer s) := by
  rw [(letGo_idle s).frame]
  exact ⟨h, room⟩

theorem completeAiring_repeats (h : Sole r s) (room : FrameRoom s) (hr : 1 < r.remaining) : completeAiring r.id s
    = alertChanged r { r with remaining := r.remaining - 1, state := .interval, phaseCount := 0 } (idleAlertPlayer s) := by
  obtain ⟨hsole, hroom⟩ := idle_sole h room
  rw [completeAiring, alertOf_sole hsole]
  refine (if_pos hr).trans ?_
  rw [changeAlert_sole hsole rfl]
  exact handAlertFrame_changed (r' := { r with remaining := r.remaining - 1, state := .interval, phaseCount := 0 }) hsole
    hroom rfl

theorem completeAiring_ends (h : Sole r s) (room : FrameRoom s) (hr : r.remaining ≤ 1) : completeAiring r.id s
    = endAlert r.id .complete (idleAlertPlayer s) := by
  obtain ⟨hsole, -⟩ := idle_sole h room
  rw [completeAiring, alertOf_sole hsole]
  exact if_neg (Nat.not_lt.2 hr)

/-- A player's clip that a record still names is kept when the player becomes IDLE. -/
theorem idleAlertPlayer_named {c : Fin 256} (hc : s.au.player.clip = some c) (hr : r ∈ s.au.table) (hrc : r.clip = some c) :
    idleAlertPlayer s = voiceGiven s := by
  have hnamed : clipNamed c s = true := List.any_eq_true.2 ⟨r, hr, beq_iff_eq.2 hrc⟩
  rw [idleAlertPlayer_some hc, hnamed, Bool.not_true, Bool.and_false]
  exact if_neg Bool.false_ne_true

theorem voiceGiven_frame (s : State) : voiceGiven s = { s with
    au := { s.au with player := { AlertPlayer.reset with underruns := s.au.player.underruns } }
    cs := { s.cs with port := (voiceGiven s).cs.port, waiting := (voiceGiven s).cs.waiting, asked := 0 }
    tg := { s.tg with voices := (voiceGiven s).tg.voices } } := by
  unfold voiceGiven
  dsimp only
  split <;> rfl

theorem endInterval_ends (h : Sole r s) (ho : r.id / 256 = s.settings.nodeId.val) (hst : r.state = .interval)
    (hn : r.interval ≤ r.phaseCount) (room : FrameRoom s) :
    endInterval r.id s = alertChanged r { r with state := .pending, testWait := 0 } s := by
  rw [endInterval, alertOf_sole h]
  refine (if_pos ⟨(own_iff r s).2 ho, hst, hn⟩).trans ?_
  rw [changeAlert_sole h rfl]
  exact handAlertFrame_changed (r' := { r with state := .pending, testWait := 0 }) h room rfl

theorem endInterval_waits (h : Sole r s) (hn : r.phaseCount < r.interval) : endInterval r.id s = s := by
  rw [endInterval, alertOf_sole h]
  exact if_neg fun hc => Nat.not_le.2 hn hc.2.2

end

/-! ## The alert player's block (R147, R148, R150) -/

section
variable {s : State} {c : Fin 256}

theorem produceAlert_idle (h : s.au.player.state = .idle) : produceAlert s = (s, none) := by
  have hnone : alertBlock s = none := if_pos h
  rw [produceAlert, hnone]

/-- The block of the alert player, its samples and its END apart. -/
theorem produceAlert_block (h : s.au.player.state ≠ .idle) : ∃ b, alertBlock s = some b
    ∧ produceAlert s = (afterAlertBlock s, some b) := by
  have hsome : ∃ b, alertBlock s = some b := ⟨_, if_neg h⟩
  obtain ⟨b, hb⟩ := hsome
  exact ⟨b, hb, by rw [produceAlert, hb]⟩

theorem applyGain_zero (g : Int) : applyGain 0 g = 0 := by
  rw [applyGain, Int.zero_mul]
  rfl

theorem applyRamp_silence (r : Ramp) : applyRamp r silence = silence := by
  refine List.eq_replicate_iff.2 ⟨?_, fun p hp => ?_⟩
  · simp [applyRamp, Ramp.gains, silence]
  · obtain ⟨gp, hgp, rfl⟩ := List.mem_map.1 hp
    have hzero : gp.2 = (0, 0) := List.eq_of_mem_replicate (List.of_mem_zip hgp).2
    rw [hzero, applyGain_zero]

theorem playerClipLength_some (h : s.au.player.clip = some c) : playerClipLength s = (clipAt s c).length := by
  rw [playerClipLength, h]
  rfl

theorem lastMessage_other (h : s.au.player.handing ≠ .message) : lastMessage s = false := by
  have hno : (s.au.player.handing == .message) = false := beq_eq_false_iff_ne.2 h
  rw [lastMessage, hno, Bool.false_and]

theorem lastMessage_iff (h : s.au.player.handing = .message) (hc : s.au.player.clip = some c) : lastMessage s = true
    ↔ (clipAt s c).length ≤ s.au.player.position + 48
      ∨ (s.au.player.fetchedAll = true ∧ s.au.player.buffer.length ≤ 48) := by
  rw [lastMessage, playerClipLength_some hc, h]
  simp

/-- The END flag of the alert player's block. -/
theorem alertBlock_last {b : SourceBlock} (hb : alertBlock s = some b) : b.last = true
    ↔ (∃ r, airedRecord s = some r ∧ s.au.player.state = .silent ∧ s.au.player.clip = none ∧ 500 ≤ r.phaseCount + 1)
      ∨ (s.au.player.state = .fading ∧ s.me.alertEnvelope.length ≤ s.me.alertEnvelope.position + 1)
      ∨ lastMessage s = true := by
  unfold alertBlock at hb
  dsimp only at hb
  split at hb
  case isTrue => exact nomatch hb
  case isFalse =>
    obtain rfl := Option.some.inj hb
    dsimp only
    rw [Bool.or_eq_true, Bool.or_eq_true, or_assoc, Bool.and_eq_true, beq_iff_eq, Ramp.finishes, decide_eq_true_iff]
    refine or_congr ?_ Iff.rfl
    cases airedRecord s with
    | none => simp
    | some r => simp [and_assoc]

/-- The samples of the alert player's block, by what it hands. -/
theorem alertBlock_tone {b : SourceBlock} (hb : alertBlock s = some b) (h : s.au.player.handing = .tone) :
    b.mono = true ∧ b.samples = applyRamp s.me.alertEnvelope (voiceBlock 0 s) := by
  unfold alertBlock at hb
  dsimp only at hb
  rw [h] at hb
  split at hb
  case isTrue => exact nomatch hb
  case isFalse =>
    obtain rfl := Option.some.inj hb
    exact ⟨rfl, rfl⟩

theorem alertBlock_silent {b : SourceBlock} (hb : alertBlock s = some b) (h : s.au.player.handing = .silent) :
    b.mono = true ∧ b.samples = silence := by
  unfold alertBlock at hb
  dsimp only at hb
  rw [h] at hb
  split at hb
  case isTrue => exact nomatch hb
  case isFalse =>
    obtain rfl := Option.some.inj hb
    exact ⟨rfl, applyRamp_silence _⟩

theorem alertBlock_message {b : SourceBlock} (hb : alertBlock s = some b) (h : s.au.player.handing = .message)
    (hc : s.au.player.clip = some c) : b.mono = isMono (clipAt s c).format
      ∧ b.samples = applyRamp s.me.alertEnvelope (block48 (s.au.player.buffer.take 48)) := by
  unfold alertBlock at hb
  dsimp only at hb
  rw [h, hc] at hb
  split at hb
  case isTrue => exact nomatch hb
  case isFalse =>
    obtain rfl := Option.some.inj hb
    exact ⟨rfl, rfl⟩

theorem alertBlock_flags {b : SourceBlock} (hb : alertBlock s = some b) : b.air = true ∧ b.cue = false ∧ b.tier = .alert
    ∧ b.tag = BitVec.ofNat 16 (s.au.player.alert.getD 0) ∧ b.lineUp = false := by
  unfold alertBlock at hb
  dsimp only at hb
  split at hb
  case isTrue => exact nomatch hb
  case isFalse =>
    obtain rfl := Option.some.inj hb
    exact ⟨rfl, rfl, rfl, rfl, rfl⟩

/-- A player that does not fade hands what its own state says (R150). -/
theorem handing_own {x : AlertPlayer} (h : x.state = .silent ∨ x.state = .tone ∨ x.state = .message) : x.handing = x.state := by
  refine if_neg fun hf => ?_
  rw [hf] at h
  exact h.elim nofun (fun h => h.elim nofun nofun)

/-- The play position, the UNDERRUN count and the rest of the player after a block of MESSAGE (R148, R89). -/
def messagePlayed (c : Fin 256) (s : State) : State :=
  let x := s.au.player
  let short := x.buffer.length < 48 && !x.fetchedAll && decide (x.fetchPosition < (clipAt s c).length)
  { s with
    cp := if short && !x.underrunTold then
        s.cp.post ⟨.alertUnderrun, s.clock.blockCount, [word (x.alert.getD 0), word x.position]⟩ else s.cp
    au := { s.au with player := { x.afterBlock (clipAt s c).length with handed := true } } }

/-- The state once the alert player's block has been handed, before its phase moves on. -/
def blockHanded (s : State) : State :=
  let x := s.au.player
  let len := playerClipLength s
  postIf (x.handing == .message && x.short len && !x.underrunTold) .alertUnderrun
    [word (x.alert.getD 0), word x.position]
    (setAlertPlayer { (if x.handing = .message then x.afterBlock len else x) with handed := true } s)

theorem blockHanded_other (h : s.au.player.handing ≠ .message) : blockHanded s
    = { s with au := { s.au with player := { s.au.player with handed := true } } } := by
  have hno : (s.au.player.handing == .message) = false := beq_eq_false_iff_ne.2 h
  rw [blockHanded, hno, if_neg h]
  rfl

theorem blockHanded_message (h : s.au.player.handing = .message) (hc : s.au.player.clip = some c) :
    blockHanded s = messagePlayed c s := by
  have hyes : (s.au.player.handing == .message) = true := beq_iff_eq.2 h
  rw [blockHanded, hyes, if_pos h, playerClipLength_some hc, Bool.true_and]
  unfold postIf messagePlayed
  dsimp only
  by_cases ht : (s.au.player.short (clipAt s c).length && !s.au.player.underrunTold) = true
  · exact (if_pos ht).trans (congrArg (fun cp => ({ s with
      cp := cp
      au := { s.au with player := { s.au.player.afterBlock (clipAt s c).length with handed := true } } } : State))
        (if_pos ht).symm)
  · exact (if_neg ht).trans (congrArg (fun cp => ({ s with
      cp := cp
      au := { s.au with player := { s.au.player.afterBlock (clipAt s c).length with handed := true } } } : State))
        (if_neg ht).symm)

theorem afterAlertBlock_keeps (hx : s.au.player.state ≠ .tone) (hs : s.au.player.state ≠ .silent)
    (hl : s.au.player.state = .message → lastMessage s = false) : afterAlertBlock s = blockHanded s := by
  have hlast : ¬ (lastMessage s && s.au.player.state == .message) = true := fun h => by
    rw [Bool.and_eq_true, beq_iff_eq] at h
    rw [hl h.2] at h
    exact Bool.false_ne_true h.1
  unfold afterAlertBlock
  dsimp only
  split
  · exact (if_neg fun h => h.elim hx hs).trans (if_neg hlast)
  · rfl

section
variable {r : Alert} (ha : airedRecord (blockHanded s) = some r)
include ha

theorem afterAlertBlock_counts (h : s.au.player.state = .tone ∨ s.au.player.state = .silent) : afterAlertBlock s
    = endGap (afterAlertBlock.endAttentionFirst s.au.player
      (changeAlert r.id (fun a => { a with phaseCount := a.phaseCount + 1 }) (blockHanded s))) := by
  unfold blockHanded at ha ⊢
  unfold afterAlertBlock
  dsimp only at ha ⊢
  rw [ha]
  exact if_pos h

theorem afterAlertBlock_last (h : s.au.player.state = .message) (hl : lastMessage s = true) :
    afterAlertBlock s = completeAiring r.id (blockHanded s) := by
  have hlast : (lastMessage s && s.au.player.state == .message) = true :=
    Bool.and_eq_true_iff.2 ⟨hl, beq_iff_eq.2 h⟩
  unfold blockHanded at ha ⊢
  unfold afterAlertBlock
  dsimp only at ha ⊢
  rw [ha]
  exact (if_neg fun hc => by rw [h] at hc; exact hc.elim nofun nofun).trans (if_pos hlast)

end

end

/-! ## The end of ATTENTION is not the end of GAP (R147, R148) -/

section
variable {r : Alert} {s : State}

theorem airedRecord_alert (h : airedRecord s = some r) : s.au.player.alert = some r.id ∧ r ∈ s.au.table := by
  obtain ⟨hfind, -⟩ := Option.filter_eq_some_iff.1 h
  obtain ⟨id, hid, hof⟩ := Option.bind_eq_some_iff.1 hfind
  have hr : r.id = id := by simpa using List.find?_some hof
  exact ⟨by rw [hid, hr], List.mem_of_find?_eq_some hof⟩

/-- Handing a record's frame leaves every record's id and phase count. -/
theorem handAlertFrame_counts (id : Nat) (s : State) : ∀ x ∈ (handAlertFrame id s).au.table, ∃ y ∈ s.au.table,
    x.id = y.id ∧ x.phaseCount = y.phaseCount := by
  intro x hx
  unfold handAlertFrame at hx
  split at hx
  · split at hx
    · obtain ⟨y, hy, howed⟩ := handControl_owed _ _ x hx
      obtain ⟨z, hz, rfl⟩ := List.mem_map.1 hy
      refine ⟨z, hz, ?_⟩
      rcases howed with rfl | rfl
      · split <;> exact ⟨rfl, rfl⟩
      · dsimp only
        split <;> exact ⟨rfl, rfl⟩
    · exact ⟨x, hx, rfl, rfl⟩
  · exact ⟨x, hx, rfl, rfl⟩

theorem endGap_endAttention (hx : s.au.player.state = .tone) : endGap (endAttention s) = endAttention s := by
  by_cases hact : ∃ r, airedRecord s = some r ∧ s.au.player.state = .tone ∧ r.phase = .attention
      ∧ s.settings.attentionLength ≤ r.phaseCount
  · obtain ⟨r, ha, h⟩ := hact
    rw [endAttention_acts ha h]
    refine endGap_waits fun r' ha' ⟨_, _, hcount⟩ => ?_
    obtain ⟨halert, hmem⟩ := airedRecord_alert ha'
    rw [(handed_frame r.id _).frame] at halert
    have hid : r'.id = r.id := Option.some.inj (halert.symm.trans (airedRecord_alert ha).1)
    obtain ⟨y, hy, hyid, hycount⟩ := handAlertFrame_counts r.id _ r' hmem
    obtain ⟨z, hz, rfl⟩ := List.mem_map.1 hy
    have hz : z.id = r.id := by
      rw [← hid, hyid]
      split <;> rfl
    rw [hycount, if_pos hz] at hcount
    exact Nat.not_succ_le_zero 499 hcount
  · have hsame : endAttention s = s := endAttention_waits fun r ha h => hact ⟨r, ha, h⟩
    rw [hsame]
    refine endGap_waits fun _ _ ⟨hs, _⟩ => ?_
    rw [hx] at hs
    exact nomatch hs

/-! ## The clip of an airing that completes (R149, R153) -/

section
variable {c : Fin 256} {reason : EndReason} (h : Sole r s) (hst : r.state = .airing) (hp : s.au.player.state = .idle)
  (hc : r.clip = some c)
include h hst hp hc

/-- The Clip Store after the end of an AIRING record whose player is IDLE already. -/
theorem endAlert_idleStore : ∃ b, Handed { s with au := { s.au with
      table := s.au.table.filter fun x => x.id != r.id
      recent := if keepsKey reason then joinRecent s.au.recent r.key else s.au.recent } } b
    ∧ (endAlert r.id reason s).cs = (dropRecordClip (some c) b).cs := by
  refine ⟨_, handed_ended r reason _, ?_⟩
  generalize hb : handEnded r reason _ = b
  have hidle : b.au.player.state = .idle := by
    rw [← hb, (handed_ended r reason _).frame]
    exact hp
  have hcut : (if r.state = .airing then cutAiring r.id b else b) = b := by
    rw [if_pos hst]
    exact (airingCut r.id b).left (.inr (.inl hidle))
  unfold endAlert
  rw [alertOf_sole h]
  dsimp only
  rw [hb, hcut, hc]
  have hcs (k : Bool) (n : NoticeKind) (items : List Word) (u : State) : (postIf k n items u).cs = u.cs := by
    obtain ⟨cp, hcp⟩ := postIf_eq k n items u
    rw [hcp]
  rw [hcs]
  rfl

theorem endAlert_capture (hn : s.au.player.clip = none) (h252 : 252 ≤ c.val) :
    clipAt (endAlert r.id reason s) c = { Clip.empty with
      map := (clipAt s c).map, capacity := (clipAt s c).capacity, length := (clipAt s c).capacity } := by
  obtain ⟨b, hb, hcs⟩ := endAlert_idleStore (reason := reason) h hst hp hc
  have hat : clipAt (endAlert r.id reason s) c = clipAt (dropRecordClip (some c) b) c := by rw [clipAt, hcs]; rfl
  have hdrop : dropRecordClip (some c) b = releaseCapture c b := by
    refine (if_pos (isProtected_iff.2 h252)).trans (if_neg ?_)
    rw [hb.frame]
    exact fun hsome => nomatch hn.symm.trans hsome
  have hsame : clipAt b c = clipAt s c := by rw [hb.frame]; rfl
  rw [hat, hdrop, releaseCapture_at, hsame]

theorem endAlert_named (hc' : c.val < 252) : ((∃ a ∈ s.au.table, a.id ≠ r.id ∧ a.clip = some c) →
      (endAlert r.id reason s).cs.directory = s.cs.directory)
    ∧ ((∀ a ∈ s.au.table, a.id ≠ r.id → a.clip ≠ some c) → (endAlert r.id reason s).cs.directory
      = s.cs.directory.put c { clipAt s c with assigned := false }) := by
  obtain ⟨b, hb, hcs⟩ := endAlert_idleStore (reason := reason) h hst hp hc
  have hcap : ¬ isCapture c = true := fun hcap => Nat.not_le.2 hc' (isProtected_iff.1 hcap)
  have hstore : b.cs = s.cs := by rw [hb.frame]
  have hnamed : clipNamed c b = true ↔ ∃ a ∈ s.au.table, a.id ≠ r.id ∧ a.clip = some c := by
    have hmap : clipNamed c b = true ↔ some c ∈ b.au.table.map Alert.clip := by
      simp [clipNamed]
    rw [hmap, hb.clips]
    simp [and_assoc]
  rw [hcs]
  refine ⟨fun hother => ?_, fun hnone => ?_⟩
  · have hdrop : dropRecordClip (some c) b = b := (if_neg hcap).trans (if_pos (hnamed.2 hother))
    rw [hdrop, hstore]
  · have hdrop : dropRecordClip (some c) b = setClip c { clipAt b c with assigned := false } b :=
      (if_neg hcap).trans (if_neg fun hn => by
        obtain ⟨a, ha, hne, hac⟩ := hnamed.1 hn
        exact hnone a ha hne hac)
    rw [hdrop]
    show b.cs.directory.put c _ = _
    rw [clipAt, clipAt, hstore]

end

/-! ## The end of a fade (R150) -/

theorem completeAlertFade_ends (hx : s.au.player.state = .fading) (hout : s.me.alertEnvelope.atRest = true
    ∨ (s.au.player.cutFrom = .message ∧ ∃ c, s.au.player.clip = some c ∧ ((clipAt s c).length ≤ s.au.player.position
      ∨ (s.au.player.fetchedAll = true ∧ s.au.player.buffer = [])))) : completeAlertFade s = idleAlertPlayer s := by
  refine if_pos ⟨hx, hout.imp id fun ⟨hm, c, hc, hp⟩ => ?_⟩
  have hplayed : clipPlayedOut s.au.player.clip s.au.player.position s = decide ((clipAt s c).length ≤ s.au.player.position) := by
    rw [hc]
    rfl
  rw [hm, hplayed]
  simpa using hp

theorem completeAlertFade_goes (hout : ¬ (s.me.alertEnvelope.atRest = true
    ∨ (s.au.player.cutFrom = .message ∧ ∃ c, s.au.player.clip = some c ∧ ((clipAt s c).length ≤ s.au.player.position
      ∨ (s.au.player.fetchedAll = true ∧ s.au.player.buffer = [])))))
    (hclip : s.au.player.cutFrom = .message → s.au.player.clip ≠ none) : completeAlertFade s = s := by
  refine if_neg fun ⟨_, h⟩ => hout (h.imp id fun h => ?_)
  rw [Bool.and_eq_true, beq_iff_eq] at h
  obtain ⟨c, hc⟩ := Option.ne_none_iff_exists'.1 (hclip h.1)
  refine ⟨h.1, c, hc, ?_⟩
  have hplayed : clipPlayedOut s.au.player.clip s.au.player.position s = decide ((clipAt s c).length ≤ s.au.player.position) := by
    rw [hc]
    rfl
  rw [hplayed] at h
  simpa using h.2

end

/-- Settles O49. -/
theorem airingRunsThroughItsPhases : Obligations.AiringRunsThroughItsPhases := by
  unfold Obligations.AiringRunsThroughItsPhases
  intro runsOut played
  refine ⟨Alert.above_iff, fun s => ⟨candidate_none, fun h => ⟨?idle, startTick_none h⟩⟩, fun r s hc hid => ?tests, airingCut,
    fun r s hc hid room => ?starts, fun r s => ?phases, fun r s hsole ho hst room => ?interval, fun s => ?block,
    fun r s => ?after, fun s => ?fade⟩
  case idle =>
    have hsame : startAlert s = s := startAlert_none h
    refine congrArg Host.Outcome.next ((withHold_quiet ?_).trans hsame)
    rw [hsame]
    exact id
  case tests =>
    intro waits
    have hwaits : waits ↔ (startOpen s = true ∧ testHeldBack r s = true) := by
      rw [startOpen_iff, testHeldBack_iff]
      refine ⟨fun ⟨hno, hlive, hp, hcls, hn⟩ => ⟨⟨hno, ?_, hp⟩, hcls, hlive, hn⟩,
        fun ⟨⟨hno, _, hp⟩, hcls, hlive, hn⟩ =>
        ⟨hno, hlive, hp, hcls, hn⟩⟩
      rw [hlive]
      exact nofun
    refine ⟨fun hw => ?_, fun hw => congrArg Host.Outcome.next ?_⟩
    · rw [startTick_held hc (hwaits.1 hw), changeAlert_sole ⟨(candidate_top hc).1, hid⟩ rfl]
      rfl
    · rw [withHold, withHold, startTick_starts hc fun h => hw (hwaits.2 h)]
  case starts =>
    have hsole : Sole r s := ⟨(candidate_top hc).1, hid⟩
    refine ⟨candidate_top hc, fun hblocked => ?_, fun hno halert hp htest => ?_⟩
    · have hsame : startAlert s = s := startAlert_waits hc fun ⟨hopen, hheld⟩ => by
        obtain ⟨hno, hne, hidle⟩ := startOpen_iff.1 hopen
        rcases hblocked with ⟨x, hx, hair⟩ | h | h | h
        · exact hno x hx hair
        · exact hne h
        · exact h hidle
        · exact hheld (testHeldBack_iff.2 h)
      refine congrArg Host.Outcome.next ((withHold_quiet ?_).trans hsame)
      rw [hsame]
      exact id
    · have hbegin : startAlert s = beginAiring r s := startAlert_begins hc (startOpen_iff.2 ⟨hno, halert, hp⟩) fun h => by
        obtain ⟨hcls, hlive, hn⟩ := testHeldBack_iff.1 h
        exact Nat.not_le.2 hn (htest hcls hlive)
      have hstart := hbegin.trans (beginAiring_eq hsole room)
      have hframe := (holdFrame_with .alertAiring startAlert s).player
      have hposted := withHold_posted .alertAiring startAlert s
      rw [hstart] at hframe hposted
      have hset : (startAlert s).settings = s.settings := by
        rw [hstart, alertChanged_leaves]
        rfl
      refine ⟨_, withHold .alertAiring startAlert s, rfl, rfl, hframe, hposted, fun hplayout => ?_⟩
      rw [withHold_apart (by rw [hset]; exact hplayout), hstart]
      refine ⟨?_, rfl, rfl⟩
      rw [alertChanged_leaves]
      rfl
  case phases =>
    intro x hsole hx hst room
    have haired : airedRecord s = some r := airedRecord_sole hsole hx hst
    refine ⟨fun htone hphase => ⟨fun hn => congrArg Host.Outcome.next ?_, fun hn => congrArg Host.Outcome.next
      (endAttention_waits fun r' ha h => ?_)⟩, fun hsilent hphase => ⟨fun hn => congrArg Host.Outcome.next
      (endGap_waits fun r' ha h => ?_), fun hn => ⟨fun c hc => congrArg Host.Outcome.next ?_, fun hc => ?_⟩⟩⟩
    · refine (endAttention_acts haired ⟨htone, hphase, hn⟩).trans ?_
      rw [messageClip_eq]
      refine (handAlertFrame_applied ?_ ?_ rfl).trans ?_
      · exact hsole
      · exact room
      · cases hclip : r.clip <;> rfl
    · obtain rfl := Option.some.inj (haired.symm.trans ha)
      exact Nat.not_le.2 hn h.2.2
    · obtain rfl := Option.some.inj (haired.symm.trans ha)
      exact Nat.not_le.2 hn h.2.2
    · have hsome : s.au.player.clip.isSome = true := Option.isSome_iff_exists.2 ⟨c, hc⟩
      rw [endGap_acts haired ⟨hsilent, hphase, hn⟩, if_pos hsome]
      exact handAlertFrame_applied (s := giveAlertEnvelope 4096 0 (setAlertPlayer { s.au.player with state := .message } s))
        hsole room rfl
    · have hnone : ¬ s.au.player.clip.isSome = true := by
        rw [show s.au.player.clip = none from hc]
        exact Bool.false_ne_true
      have hgap : endGap s = completeAiring r.id s :=
        (endGap_acts haired ⟨hsilent, hphase, hn⟩).trans (if_neg hnone)
      have hidle : idleAlertPlayer s = voiceGiven s := idleAlertPlayer_none hc
      refine ⟨voiceGiven s, voiceGiven_frame s, (voiceGiven_keeps s).2.2.2.2.1, fun hr => congrArg Host.Outcome.next ?_,
        fun hr => ⟨_, congrArg Host.Outcome.next (hgap.trans (completeAiring_ends hsole room hr)), ?_⟩⟩
      · rw [hgap, completeAiring_repeats hsole room hr, hidle]
      · rw [← hidle]
        exact alertEnded r .complete _ (idle_sole hsole room).1
  case interval =>
    exact ⟨fun hn => congrArg Host.Outcome.next (endInterval_ends hsole ho hst hn room),
      fun hn => congrArg Host.Outcome.next (endInterval_waits hsole hn)⟩
  case block =>
    intro x h ends
    refine ⟨produceAlert_idle, fun hx => ?_⟩
    obtain ⟨b, hb, hp⟩ := produceAlert_block (s := s) hx
    obtain ⟨hair, hcue, htier, htag, hline⟩ := alertBlock_flags hb
    have hlast := alertBlock_last hb
    have hnoGap (hs : s.au.player.state ≠ .silent) : b.last = true ↔ ends ∨ lastMessage s = true :=
      hlast.trans (or_iff_right fun ⟨_, _, hsilent, _⟩ => hs hsilent)
    have hnoMessage (hm : s.au.player.handing ≠ .message) : ¬ lastMessage s = true := by
      rw [lastMessage_other hm]
      exact Bool.false_ne_true
    refine ⟨b, by rw [hp], hair, hcue, htier, htag, hline, fun htone => ?_, fun hsilent => ?_,
      fun r hsilent hsole halert hst => ?_, fun c hm hc => ?_⟩
    · obtain ⟨hmono, hsamples⟩ := alertBlock_tone hb htone
      have hs : s.au.player.state ≠ .silent := fun hs =>
        nomatch (hs.symm.trans (handing_own (.inl hs)).symm).trans htone
      refine ⟨hmono, hsamples, (hnoGap hs).trans (or_iff_left (hnoMessage ?_))⟩
      rw [show s.au.player.handing = .tone from htone]
      exact nofun
    · obtain ⟨hmono, hsamples⟩ := alertBlock_silent hb hsilent
      refine ⟨hmono, hsamples, fun hf => (hnoGap fun hs => nomatch hs.symm.trans hf).trans (or_iff_left (hnoMessage ?_))⟩
      rw [show s.au.player.handing = .silent from hsilent]
      exact nofun
    · have hs : s.au.player.state = .silent := hsilent
      have hm : ¬ lastMessage s = true := hnoMessage (by rw [handing_own (.inl hs), hs]; exact nofun)
      rw [hlast, airedRecord_sole hsole halert hst]
      refine ⟨fun h => ?_, fun h => .inl ⟨r, rfl, hs, h.1, h.2⟩⟩
      rcases h with ⟨r', hr, _, hnone, hn⟩ | ⟨hf, -⟩ | h
      · obtain rfl := Option.some.inj hr
        exact ⟨hnone, hn⟩
      · exact nomatch hs.symm.trans hf
      · exact absurd h hm
    · obtain ⟨hmono, hsamples⟩ := alertBlock_message hb hm hc
      have hs : s.au.player.state ≠ .silent := fun hs =>
        nomatch (hs.symm.trans (handing_own (.inl hs)).symm).trans hm
      exact ⟨hmono, hsamples, (hnoGap hs).trans (or_comm.trans (or_congr_left (lastMessage_iff hm hc)))⟩
  case after =>
    intro x counted hsole halert hst
    have hproduce (hx : s.au.player.state ≠ .idle) : (produceAlert s).1 = afterAlertBlock s := by
      obtain ⟨b, -, hp⟩ := produceAlert_block (s := s) hx
      rw [hp]
    have hcounted (hm : s.au.player.handing ≠ .message) (hx : s.au.player.state = .tone ∨ s.au.player.state = .silent) :
        afterAlertBlock s = endGap (afterAlertBlock.endAttentionFirst s.au.player counted) := by
      have hb := blockHanded_other hm
      have hk : airedRecord (blockHanded s) = some r := by
        rw [hb]
        exact airedRecord_sole (s := { s with au := { s.au with player := { s.au.player with handed := true } } })
          hsole halert hst
      rw [afterAlertBlock_counts hk hx, hb, changeAlert_sole
        (s := { s with au := { s.au with player := { s.au.player with handed := true } } }) hsole rfl]
      rfl
    refine ⟨fun htone => congrArg Host.Outcome.next ?_, fun hsilent => congrArg Host.Outcome.next ?_,
      fun c hm hc hrc room => ?_⟩
    · have htone : s.au.player.state = .tone := htone
      have hx : counted.au.player.state = .tone := htone
      have hne : s.au.player.handing ≠ .message := by
        rw [handing_own (.inr (.inl htone)), htone]
        exact nofun
      have hidle : s.au.player.state ≠ .idle := by
        rw [htone]
        exact nofun
      rw [hproduce hidle, hcounted hne (.inl htone), afterAlertBlock.endAttentionFirst, if_pos htone]
      exact (endGap_endAttention hx).symm
    · have hsilent : s.au.player.state = .silent := hsilent
      have hne : s.au.player.handing ≠ .message := by
        rw [handing_own (.inl hsilent), hsilent]
        exact nofun
      have hidle : s.au.player.state ≠ .idle := by
        rw [hsilent]
        exact nofun
      have htone : s.au.player.state ≠ .tone := by
        rw [hsilent]
        exact nofun
      rw [hproduce hidle, hcounted hne (.inr hsilent), afterAlertBlock.endAttentionFirst, if_neg htone]
    · intro t d
      have hm : s.au.player.state = .message := hm
      have hhand : s.au.player.handing = .message := (handing_own (.inr (.inr hm))).trans hm
      have hidle : s.au.player.state ≠ .idle := by
        rw [hm]
        exact nofun
      have ht : t = afterAlertBlock s := hproduce hidle
      have hb : blockHanded s = messagePlayed c s := blockHanded_message hhand hc
      have hruns : lastMessage s = true ↔ runsOut c s := lastMessage_iff hhand hc
      clear_value t
      obtain rfl := ht
      refine ⟨fun hout => ?_, fun hout => ?_⟩
      · refine (afterAlertBlock_keeps ?_ ?_ fun _ => Bool.eq_false_iff.2 fun h => hout (hruns.1 h)).trans hb
        · rw [hm]
          exact nofun
        · rw [hm]
          exact nofun
      · have hk : airedRecord (blockHanded s) = some r := by
          rw [hb]
          exact airedRecord_sole (s := messagePlayed c s) hsole halert hst
        have hsoleM : Sole r (messagePlayed c s) := hsole
        have roomM : FrameRoom (messagePlayed c s) := room
        have hgiven : idleAlertPlayer (messagePlayed c s) = voiceGiven (messagePlayed c s) :=
          idleAlertPlayer_named (s := messagePlayed c s) hc hsole.1 hrc
        have hlast : afterAlertBlock s = completeAiring r.id (messagePlayed c s) :=
          (afterAlertBlock_last hk hm (hruns.2 hout)).trans (congrArg _ hb)
        obtain ⟨hdir, -, hau, -, hvoice, -⟩ := voiceGiven_keeps (messagePlayed c s)
        have hsoleU : Sole r (voiceGiven (messagePlayed c s)) := hgiven ▸ (idle_sole hsoleM roomM).1
        refine ⟨voiceGiven (messagePlayed c s), voiceGiven_frame (messagePlayed c s), hvoice, fun hr => ?_, fun hr => ?_⟩
        · rw [hlast, completeAiring_repeats hsoleM roomM hr, hgiven]
        · rw [hlast, completeAiring_ends hsoleM roomM hr, hgiven]
          have hended := alertEnded r .complete _ hsoleU
          have hidleU : (voiceGiven (messagePlayed c s)).au.player.state = .idle := by
            rw [hau]
            rfl
          have hclipU : (voiceGiven (messagePlayed c s)).au.player.clip = none := by
            rw [hau]
            rfl
          have htable : (voiceGiven (messagePlayed c s)).au.table = s.au.table := by
            rw [hau]
            rfl
          have hat : clipAt (voiceGiven (messagePlayed c s)) c = d := congrArg (fun t : Tab Clip 256 => Tab.at t c) hdir
          have hstore : (voiceGiven (messagePlayed c s)).cs.directory = s.cs.directory := hdir
          refine ⟨hended, (hended.left hst (.inr (.inl hidleU))).1, fun h252 => ?_, fun hlow hother => ?_, fun hlow hnone => ?_⟩
          · rw [endAlert_capture hsoleU hst hidleU hrc hclipU h252, hat]
          · rw [(endAlert_named hsoleU hst hidleU hrc hlow).1 (by rw [htable]; exact hother), hstore]
          · rw [(endAlert_named hsoleU hst hidleU hrc hlow).2 (by rw [htable]; exact hnone), hstore, hat]
  case fade =>
    intro x out hfading
    have htone : s.au.player.state ≠ .tone := fun h => nomatch hfading.symm.trans h
    have hsilent : s.au.player.state ≠ .silent := fun h => nomatch hfading.symm.trans h
    have hmessage : s.au.player.state = .message → lastMessage s = false := fun h => nomatch hfading.symm.trans h
    have hhanding : s.au.player.handing = s.au.player.cutFrom := if_pos hfading
    have hproduce : (produceAlert s).1 = blockHanded s := by
      obtain ⟨b, -, hb⟩ := produceAlert_block (s := s) fun h => nomatch hfading.symm.trans h
      rw [hb]
      exact afterAlertBlock_keeps htone hsilent hmessage
    refine ⟨fun hcut => ?_, fun c hcut hc => ?_, fun hout => ⟨idleAlertPlayer s, congrArg Host.Outcome.next
      (completeAlertFade_ends hfading hout), ?_⟩, fun hout hclip => congrArg Host.Outcome.next
      (completeAlertFade_goes hout hclip)⟩
    · rw [hproduce, blockHanded_other (by rw [hhanding]; exact hcut)]
    · rw [hproduce, blockHanded_message (hhanding.trans hcut) hc]
      rfl
    · obtain ⟨hau, hme, hvoice, hothers⟩ := idleAlertPlayer_leaves s
      obtain ⟨hdir, hfill, -⟩ := voiceGiven_keeps s
      have hframe := (letGo_idle s).frame
      rw [hau, hme] at hframe
      refine ⟨hframe, hvoice, hothers, fun hc => ?_, fun c hc hnamed => ?_, fun c hc h252 hno => ?_⟩
      · rw [idleAlertPlayer_none hc]
        exact hdir
      · have hkeep : ¬ (isCapture c && !clipNamed c s) = true := fun h => by
          rw [Bool.and_eq_true, Bool.not_eq_true'] at h
          rcases hnamed with hlow | ⟨a, ha, hac⟩
          · exact Nat.not_le.2 hlow (isProtected_iff.1 h.1)
          · have hyes : clipNamed c s = true := List.any_eq_true.2 ⟨a, ha, beq_iff_eq.2 hac⟩
            rw [hyes] at h
            exact nomatch h.2
        rw [idleAlertPlayer_some hc, if_neg hkeep]
        exact ⟨hdir, hfill⟩
      · have hnone : clipNamed c s = false := by
          refine List.any_eq_false.2 fun a ha h => hno a ha (beq_iff_eq.1 h)
        have hrelease : (isCapture c && !clipNamed c s) = true :=
          Bool.and_eq_true_iff.2 ⟨isProtected_iff.2 h252, by rw [hnone]; rfl⟩
        have hsame : clipAt (voiceGiven s) c = clipAt s c := congrArg (fun d : Tab Clip 256 => Tab.at d c) hdir
        rw [idleAlertPlayer_some hc, if_pos hrelease, releaseCapture_at, hsame]

end Sys2Proof.Machine
end

section
/-! SUPPORT. READ ALERTS and READ LINK (R156, R182), the remote outputs (R163, R164), and the settling of O50 and O51. -/

namespace Sys2Proof.Machine

/-! ## Records in rank order -/

/-- Insertion in place keeps a list in a rank that is asymmetric and whose negation is transitive. -/
theorem pairwise_insertRanked {α : Type} {above : α → α → Bool} (asymm : ∀ a b, above b a = true → above a b = false)
    (trans : ∀ a b c, above a b = false → above b c = false → above a c = false) (a : α) :
    ∀ l : List α, l.Pairwise (fun a b => above b a = false) →
      (l.orderedInsert (fun a b => above a b = true) a).Pairwise fun a b => above b a = false
  | [], _ => List.pairwise_singleton _ _
  | b :: l, h => by
    obtain ⟨hb, hl⟩ := List.pairwise_cons.1 h
    rw [List.orderedInsert]
    split
    case isTrue hab =>
      refine List.pairwise_cons.2 ⟨fun x hx => ?_, h⟩
      have hba := asymm b a hab
      rcases List.mem_cons.1 hx with rfl | hx
      · exact hba
      · exact trans x b a (hb x hx) hba
    case isFalse hab =>
      refine List.pairwise_cons.2 ⟨fun x hx => ?_, pairwise_insertRanked asymm trans a l hl⟩
      rcases (List.mem_orderedInsert _).1 hx with rfl | hx
      · exact Bool.eq_false_iff.2 hab
      · exact hb x hx

theorem pairwise_ranked {α : Type} {above : α → α → Bool} (asymm : ∀ a b, above b a = true → above a b = false)
    (trans : ∀ a b c, above a b = false → above b c = false → above a c = false) (l : List α) :
    (l.insertionSort fun a b => above a b = true).Pairwise fun a b => above b a = false := by
  induction l with
  | nil => exact List.Pairwise.nil
  | cons a l ih => exact pairwise_insertRanked asymm trans a _ ih

theorem rankInsert_eq (a : Alert) : ∀ l, rankInsert a l = l.orderedInsert (fun a b => a.above b = true) a
  | [] => rfl
  | b :: l => by rw [rankInsert, List.orderedInsert, rankInsert_eq a l]

theorem ranked_eq (l : List Alert) : ranked l = l.insertionSort fun a b => a.above b = true := by
  induction l with
  | nil => rfl
  | cons a l ih => exact (rankInsert_eq a (ranked l)).trans (by rw [ih]; rfl)

theorem rankSite_eq (a : SiteAlert) : ∀ l, rankSite a l = l.orderedInsert (fun a b => a.above b = true) a
  | [] => rfl
  | b :: l => by rw [rankSite, List.orderedInsert, rankSite_eq a l]

theorem foldr_rankSite (l : List SiteAlert) : l.foldr rankSite [] = l.insertionSort fun a b => a.above b = true := by
  induction l with
  | nil => rfl
  | cons a l ih => exact (rankSite_eq a _).trans (by rw [ih]; rfl)

/-- What does not outrank a site record does not outrank one that the record does not outrank. -/
theorem SiteAlert.above_false_trans {a b c : SiteAlert} (h : a.above b = false) (k : b.above c = false) :
    a.above c = false := by
  rw [Bool.eq_false_iff, ne_eq, SiteAlert.above_iff, AlertClass.code_inj] at h k ⊢
  omega

theorem ranked_perm (l : List Alert) : (ranked l).Perm l := by
  rw [ranked_eq]
  exact List.perm_insertionSort _ l

theorem ranked_pairwise (l : List Alert) : (ranked l).Pairwise fun a b => b.above a = false := by
  rw [ranked_eq]
  exact pairwise_ranked Alert.above_asymm (fun _ _ _ => Alert.above_false_trans) l

theorem rankedSite_perm (l : List SiteAlert) : (l.foldr rankSite []).Perm l := by
  rw [foldr_rankSite]
  exact List.perm_insertionSort _ l

theorem rankedSite_pairwise (l : List SiteAlert) : (l.foldr rankSite []).Pairwise fun a b => b.above a = false := by
  rw [foldr_rankSite]
  exact pairwise_ranked SiteAlert.above_asymm (fun _ _ _ => SiteAlert.above_false_trans) l

/-! ## The two reads -/

section
variable {s : State}

theorem Alert.own_eq (a : Alert) (s : State) : a.own s = (a.id / 256 == s.settings.nodeId.val) :=
  Bool.eq_iff_iff.2 ((own_iff a s).trans beq_iff_eq.symm)

theorem readAlerts_reads (hs : s.settings.roles.site = false) : readAlertsCommand s
    = ({ s with au := { s.au with
        errors := 0, errorTold := false, heardDropped := 0, player := { s.au.player with underruns := 0 } } },
      .okWith ((word s.au.table.length :: (ranked s.au.table).flatMap (alertWords s))
        ++ (word s.au.recent.length :: s.au.recent)
        ++ [word s.au.player.state.ctorIdx, wordOpt s.au.player.alert, wordOpt (s.au.player.clip.map Fin.val),
            word s.au.player.position, word s.au.player.underruns, holderWord (Tab.at s.tg.voices 0).holder,
            word s.au.errors, word s.au.heardDropped])) := if_neg (Bool.eq_false_iff.1 (atSite_studio hs))

theorem readAlerts_refused (h : atSite s = true) : readAlertsCommand s = refuse .notRole s := if_pos h

theorem readLink_site (h : atSite s = true) : readLinkCommand s = (clearSite s, .okWith (siteWords s)) := if_pos h

theorem readLink_link (hs : s.settings.roles.site = false) (hl : s.settings.roles.link = true) :
    readLinkCommand s = (clearLink s, .okWith (linkWords s)) :=
  (if_neg (Bool.eq_false_iff.1 (atSite_studio hs))).trans (if_pos hl)

theorem readLink_refused (hs : s.settings.roles.site = false) (hl : s.settings.roles.link = false) :
    readLinkCommand s = refuse .notRole s :=
  (if_neg (Bool.eq_false_iff.1 (atSite_studio hs))).trans (if_neg (Bool.eq_false_iff.1 hl))

end

/-- Settles O50. -/
theorem readAlertsAndReadLink : Obligations.ReadAlertsAndReadLink := by
  refine ⟨fun m s h => ⟨fun hs => ?_, fun hs => ?_⟩, fun m s h => ⟨fun hs hl => ?_, fun hs hl => ?_, fun hs => ?_⟩⟩
  · exact hostRow_act h (readAlerts_refused ((atSite_iff h.running).trans hs))
  · intro l holder
    have hwords : alertWords s = fun a => [a.key, word a.id, word a.origin.ctorIdx, word a.cls.ctorIdx, word a.duration,
        word a.minuteCount, word a.repeats, word a.remaining, word a.interval, wordOpt (a.clip.map Fin.val),
        wordFlag (a.clip.isSome || a.message), word a.state.ctorIdx, word a.phase.ctorIdx, word a.phaseCount, word a.age,
        wordFlag a.truncated, wordFlag a.noCapture, wordFlag a.confirmed, word a.testWait, word a.silence,
        wordFlag (a.id / 256 == s.settings.nodeId.val)] := funext fun a => by rw [alertWords, Alert.own_eq]
    have hholder : holderWord (Tab.at s.tg.voices 0).holder = holder := by
      unfold holder
      cases (Tab.at s.tg.voices 0).holder with
      | none => rfl
      | some h => cases h <;> rfl
    have hread := readAlerts_reads hs
    rw [hwords, hholder] at hread
    exact ⟨ranked_perm _, ranked_pairwise _, hostRow_act h hread⟩
  · exact hostRow_act h (readLink_refused hs hl)
  · exact hostRow_act h (readLink_link hs hl)
  · exact ⟨rankedSite_perm _, rankedSite_pairwise _, hostRow_act h (readLink_site ((atSite_iff h.running).trans hs))⟩

/-! ## Remote outputs (R163, R164) -/

section
variable {s : State} {o : Fin 4}

theorem outputOf_number {n : Nat} (h : n = o.val + 1) : outputOf n = some o := by
  rw [outputOf_inside (by omega) (by omega)]
  exact congrArg some (Fin.ext (by dsimp only; omega))

theorem remoteOutput_sets {output level : Word} (hs : s.settings.roles.site = false) (hl : s.settings.roles.link = true)
    (ho : output.toNat = o.val + 1) : remoteOutputCommand output level s
      = (setOutput o level.toNat wordNone s, .okWith [word (min 255 level.toNat)]) := by
  rw [remoteOutputCommand, if_neg (Bool.eq_false_iff.1 (atSite_studio hs)), if_pos hl, outputOf_number ho]

variable {n : Fin 8} {b : RequestBody}

theorem takeOutput_ignores (h : b.target ≠ s.settings.nodeId.val ∨ s.lu.state ≠ .joined) : takeOutputRequest n b s = s := by
  refine if_pos (h.imp_right fun h => ?_)
  exact Bool.eq_false_iff.2 fun hj => h (joined_iff.1 hj)

theorem takeOutput_answers (ht : b.target = s.settings.nodeId.val) (hj : s.lu.state = .joined) {t : State} {a : Answer}
    {after : Nat} (hjudge : judgeOutput n b s = (t, a, after)) :
    takeOutputRequest n b s = handControl (.answer ⟨n, b.tag, a, b.item, after⟩) t := by
  have hno : ¬ (b.target ≠ s.settings.nodeId.val ∨ joined s = false) := by
    rw [joined_iff.2 hj]
    exact fun h => h.elim (fun h => h ht) nofun
  rw [takeOutputRequest, if_neg hno, hjudge]

theorem judgeOutput_outside (h : b.item = 0 ∨ 4 < b.item) :
    judgeOutput n b s = (s, .refusedRole, (Config.answerAfter b.item).toNat) := by
  rw [judgeOutput, outputOf_outside h]

theorem judgeOutput_noRole (hi : b.item = o.val + 1) (hl : s.settings.roles.link = false) :
    judgeOutput n b s = (s, .refusedRole, Tab.at s.link.outputs o) := by
  rw [judgeOutput, outputOf_number hi]
  exact if_neg (Bool.eq_false_iff.1 hl)

theorem judgeOutput_sets (hi : b.item = o.val + 1) (hl : s.settings.roles.link = true) :
    judgeOutput n b s = (setOutput o b.argument (word n) s, .accepted, min 255 b.argument) := by
  rw [judgeOutput, outputOf_number hi]
  refine (if_pos hl).trans ?_
  have hat : Tab.at (s.link.outputs.put o (min 255 b.argument)) o = min 255 b.argument :=
    (Tab.at_put ..).trans (if_pos rfl)
  exact congrArg (fun v => (setOutput o b.argument (word n) s, Answer.accepted, v)) hat

end

/-- Settles O51. -/
theorem remoteOutputsAreSet : Obligations.RemoteOutputsAreSet := by
  unfold Obligations.RemoteOutputsAreSet
  intro set
  refine ⟨fun output level o m s h hs hl ho => hostRow_act h (remoteOutput_sets hs hl ho),
    fun f b s hline hr hp hk hn hb hv => ?_⟩
  intro s' reply out
  have hout : out = .next (takeOutputRequest f.node b s') := congrArg Host.Outcome.next
    ((receiveRequest_hands hline hr hp hk hn hb).trans (if_pos hv))
  clear_value out
  obtain rfl := hout
  refine ⟨fun h => congrArg Host.Outcome.next (takeOutput_ignores h), fun ht hj room => ⟨fun hi => ⟨_, congrArg Host.Outcome.next
    ((takeOutput_answers (s := s') ht hj (judgeOutput_outside hi)).trans (handControl_room room))⟩, fun o hi =>
      ⟨fun hl => congrArg Host.Outcome.next ?_, fun hl => congrArg Host.Outcome.next ?_⟩⟩⟩
  · exact (takeOutput_answers (s := s') ht hj (judgeOutput_noRole hi hl)).trans (handControl_room room)
  · exact (takeOutput_answers (s := s') ht hj (judgeOutput_sets hi hl)).trans (handControl_room room)

end Sys2Proof.Machine
end

section
/-! SUPPORT. The link streams' receivers (R208), back frames and the link state (R158 to R162), and the settling of O52. -/

namespace Sys2Proof.Machine

/-! ## The link streams (R208) -/

/-- A receiver that hunts passes over what is no marker. -/
theorem linkScan_noise (n : Nat) (rest : List Byte) : ∀ noise : List Byte, (∀ b ∈ noise, b ≠ 0xA5#8) →
    linkScan n .hunt (noise ++ rest) = linkScan n .hunt rest
  | [], _ => rfl
  | b :: noise, h => by
    have hstep : linkStep n .hunt b = (.hunt, none) := by rw [linkStep, if_neg (h b List.mem_cons_self)]
    rw [List.cons_append, linkScan, hstep]
    exact linkScan_noise n rest noise fun x hx => h x (List.mem_cons_of_mem _ hx)

/-- Only a frame of its kind's length has a payload. -/
theorem linkPayload_length {n : Nat} {bytes p : List Byte} (h : linkPayload n bytes = some p) :
    (halfAt bytes 0).toNat = n ∧ bytes.length = n + 2 := by
  unfold linkPayload at h
  split at h
  case isTrue hlen => exact hlen
  case isFalse => exact nomatch h

theorem parseBack_length {bytes : List Byte} {f : BackFrame} (h : parseBack bytes = some f) :
    (halfAt bytes 0).toNat = 25 ∧ bytes.length = 27 := by
  obtain ⟨p, hp, -⟩ := Option.bind_eq_some_iff.1 h
  exact linkPayload_length hp

section
variable {s : State} {noise : List Byte} (hr : s.cp.device = .running) (hs : s.settings.roles.site = false)
  (hl : s.settings.roles.link = true)
include hr hs hl

theorem linkRow_taken (f : State → State) : linkRow f s = .next (f s) := by
  have hyes : (onLine s && s.settings.roles.link) = true := Bool.and_eq_true_iff.2 ⟨onLine_running hr hs, hl⟩
  exact congrArg Host.Outcome.next (if_pos hyes)

variable (hhunt : s.link.stream = .hunt) (hnoise : ∀ b ∈ noise, b ≠ 0xA5#8)
include hhunt hnoise

/-- What a back stream brings that hunts before it and after it. -/
theorem receiveBack_found {bytes : List Byte} {x : List LinkFound} (hx : linkScan 25 .hunt (onStream bytes) = (.hunt, x)) :
    exec (.backFrameReceived (noise ++ 0xA5#8 :: 0x5A#8 :: bytes)) s = .next (forEach x backFound s) := by
  refine (linkRow_taken hr hs hl _).trans (congrArg Host.Outcome.next ?_)
  have hscan : linkScan 25 s.link.stream (noise ++ 0xA5#8 :: 0x5A#8 :: bytes) = (.hunt, x) := by
    rw [hhunt, linkScan_noise 25 _ noise hnoise]
    exact hx
  have hsame : ({ s with link := { s.link with stream := .hunt } } : State) = s := by rw [← hhunt]
  refine (if_pos ⟨onLine_running hr hs, hl⟩).trans ?_
  rw [hscan]
  dsimp only
  rw [hsame]

theorem receiveBack_frame {bytes : List Byte} (hlen : (halfAt bytes 0).toNat = 25 ∧ bytes.length = 27) :
    exec (.backFrameReceived (noise ++ 0xA5#8 :: 0x5A#8 :: bytes)) s = .next (backFound (.frame bytes) s) :=
  receiveBack_found hr hs hl hhunt hnoise (linkScan_frame 25 bytes hlen.1 (by decide) hlen.2)

theorem receiveBack_wrongLength {a b : Byte} (h : (a ++ b).toNat ≠ 25) :
    exec (.backFrameReceived (noise ++ 0xA5#8 :: 0x5A#8 :: [a, b])) s = .next (backError s) :=
  receiveBack_found hr hs hl hhunt hnoise (linkScan_wrongLength 25 a b h [])

end

/-! ## The link state (R159, R160) -/

section
variable {s : State}

theorem joinHistory_eq (l : List BackOutcome) (o : BackOutcome) : joinHistory l o = (l ++ [o]).drop (l.length + 1 - 32) := by
  rw [joinHistory, List.length_append, List.length_singleton]

/-- The link state after a VALID outcome (R160). -/
def LinkState.afterValid (x : LinkState) (run : Nat) : LinkState :=
  if x = .down then .acquiring
  else if (x = .acquiring ∧ 8 ≤ min 32 (run + 1)) ∨ (x = .degraded ∧ 32 ≤ run + 1) then .up else x

/-- LINK_STATE where the state has changed (R160). -/
def linkTold (new : LinkState) (s : State) : ControlPort :=
  if new = s.link.state then s.cp
  else s.cp.post ⟨.linkState, s.clock.blockCount, [word s.link.state.ctorIdx, word new.ctorIdx, s.clock.blockCount]⟩

/-- The link after a VALID outcome (R159, R160). -/
def LinkEnd.afterValid (x : LinkEnd) : LinkEnd := { x with
  history := if x.state = .down then [BackOutcome.valid] else (x.history ++ [BackOutcome.valid]).drop (x.history.length + 1 - 32)
  validRun := if x.state = .down then 1 else min 32 (x.validRun + 1)
  missingRun := 0
  state := x.state.afterValid x.validRun }

theorem setLink_other {new : LinkState} (h : new ≠ .down) (hne : new ≠ s.link.state) :
    setLink new s = { s with cp := linkTold new s, link := { s.link with state := new } } := by
  have hlink : (if new = .down then { s.link with
        state := new, history := [], validRun := 0, missingRun := 0, backWait := 0, lastSiteCount := none, echo := none }
      else { s.link with state := new }) = { s.link with state := new } := if_neg h
  unfold setLink
  dsimp only
  rw [hlink, linkTold, if_neg hne]
  rfl

theorem setLink_down (h : s.link.state ≠ .down) : setLink .down s = { s with
    cp := linkTold .down s
    link := { s.link with
      state := .down, history := [], validRun := 0, missingRun := 0, backWait := 0, lastSiteCount := none, echo := none } } := by
  rw [linkTold, if_neg h.symm]
  rfl

theorem recordOutcome_valid : recordOutcome .valid s = { s with link := { s.link with
    history := (s.link.history ++ [BackOutcome.valid]).drop (s.link.history.length + 1 - 32)
    validRun := min 32 (s.link.validRun + 1)
    missingRun := 0 } } := by
  unfold recordOutcome
  dsimp only
  rw [joinHistory_eq]
  rfl

theorem recordOutcome_missing : recordOutcome .missing s = { s with link := { s.link with
    history := (s.link.history ++ [BackOutcome.missing]).drop (s.link.history.length + 1 - 32)
    validRun := 0
    missingRun := min 16 (s.link.missingRun + 1) } } := by
  unfold recordOutcome
  dsimp only
  rw [joinHistory_eq]
  rfl

/-- A VALID outcome of a link that is not DOWN, its change of state apart. -/
theorem validOutcome_up (h : s.link.state ≠ .down) : validOutcome s
    = if (s.link.state = .acquiring ∧ 8 ≤ min 32 (s.link.validRun + 1))
        ∨ (s.link.state = .degraded ∧ 32 ≤ s.link.validRun + 1) then setLink .up (recordOutcome .valid s)
      else recordOutcome .valid s := by
  have hrun : (recordOutcome .valid s).link.validRun = min 32 (s.link.validRun + 1) := by rw [recordOutcome_valid]
  refine (if_neg h).trans ?_
  dsimp only
  rw [hrun]
  have hstate : (recordOutcome .valid s).link.state = s.link.state := rfl
  rw [hstate]
  split
  case h_1 hacq => simp [hacq]
  case h_2 hdeg => simp [hdeg]
  case h_3 hacq hdeg =>
    rw [if_neg]
    rintro (⟨k, -⟩ | ⟨k, -⟩)
    · exact hacq k
    · exact hdeg k

theorem validOutcome_eq : validOutcome s = { s with
    cp := linkTold (s.link.state.afterValid s.link.validRun) s
    link := s.link.afterValid } := by
  by_cases hd : s.link.state = .down
  · refine (if_pos hd).trans ?_
    have hold : LinkState.acquiring ≠ s.link.state := by
      rw [hd]
      exact nofun
    refine (congrArg (recordOutcome .valid) (setLink_other (new := .acquiring)
      (s := { s with link := { s.link with history := [], validRun := 0, missingRun := 0 } }) nofun hold)).trans ?_
    rw [recordOutcome_valid, LinkEnd.afterValid, LinkState.afterValid, if_pos hd, if_pos hd, if_pos hd]
    rfl
  · rw [validOutcome_up hd, recordOutcome_valid, LinkEnd.afterValid, LinkState.afterValid, if_neg hd, if_neg hd, if_neg hd]
    split
    case isTrue hup =>
      have hne : LinkState.up ≠ s.link.state := fun hu => by
        rw [← hu] at hup
        exact hup.elim (fun h => nomatch h.1) fun h => nomatch h.1
      exact setLink_other (new := .up) nofun hne
    case isFalse =>
      rw [linkTold, if_pos rfl]

/-! ## A missing back frame (R159, R160) -/

/-- The link after a MISSING outcome, its change of state apart (R159). -/
def LinkEnd.afterMissing (x : LinkEnd) : LinkEnd := { x with
  backWait := 2
  history := (x.history ++ [BackOutcome.missing]).drop (x.history.length + 1 - 32)
  validRun := 0
  missingRun := min 16 (x.missingRun + 1) }

theorem missingCount_eq (l : List BackOutcome) : missingCount l = (l.filter fun o => o = .missing).length := by
  rw [missingCount]
  exact congrArg List.length (List.filter_congr fun o _ => by rw [Bool.beq_eq_decide_eq])

theorem declareMissing_due (hd : s.link.state ≠ .down) (hw : 6 ≤ s.link.backWait) : declareMissing s
    = if 16 ≤ s.link.afterMissing.missingRun then setLink .down { s with link := s.link.afterMissing }
      else if s.link.state = .up ∧ 4 ≤ missingCount s.link.afterMissing.history then
        setLink .degraded { s with link := s.link.afterMissing }
      else { s with link := s.link.afterMissing } := by
  rw [declareMissing, if_pos ⟨hd, hw⟩, missingOutcome, recordOutcome_missing]
  exact if_neg hd

theorem declareMissing_waits (h : s.link.state = .down ∨ s.link.backWait < 6) : declareMissing s = s :=
  if_neg fun ⟨hd, hw⟩ => h.elim hd (Nat.not_lt.2 hw)

end

/-! ## The site report and the Site Status record (R161) -/

theorem levelsWord_eq (v : Tab Bool 8) :
    levelsWord v = word ((List.finRange 8).map fun i => if Tab.at v i then 2 ^ i.val else 0).sum := by
  have hfold (l : List (Fin 8)) (n : Nat) : l.foldl (fun n i => n + (Tab.at v i).toNat * 2 ^ i.val) n
      = n + (l.map fun i => if Tab.at v i then 2 ^ i.val else 0).sum := by
    induction l generalizing n with
    | nil => rfl
    | cons i l ih =>
      rw [List.foldl_cons, ih, List.map_cons, List.sum_cons, Nat.add_assoc]
      cases Tab.at v i <;> simp
  have hle : ((List.finRange 8).map fun i => if Tab.at v i then 2 ^ i.val else 0).sum
      ≤ ((List.finRange 8).map fun i => 2 ^ i.val).sum := List.sum_le_sum fun i _ => by
    split
    · exact Nat.le_refl _
    · exact Nat.zero_le _
  have htop : ((List.finRange 8).map fun i => 2 ^ i.val).sum = 255 := rfl
  rw [levelsWord, levelsByte, hfold, Nat.zero_add, BitVec.toNat_ofNat, Nat.mod_eq_of_lt]
  rw [htop] at hle
  exact Nat.lt_succ_of_le hle

/-- The levels that a report changes (R161). -/
def changedLevels (old new : Tab Bool 8) : Tab Bool 8 := Vector.ofFn fun i => Tab.at new i != Tab.at old i

theorem changedLevels_any (old new : Tab Bool 8) : (changedLevels old new).toList.any id = true ↔ old ≠ new := by
  have hmask : (changedLevels old new).toList.any id = true ↔ ∃ i, Tab.at new i ≠ Tab.at old i := by
    rw [changedLevels, Vector.toList_ofFn, List.any_eq_true]
    refine ⟨fun ⟨x, hx, ht⟩ => ?_, fun ⟨i, hi⟩ => ⟨_, List.mem_ofFn.2 ⟨i, rfl⟩, bne_iff_ne.2 hi⟩⟩
    obtain ⟨i, rfl⟩ := List.mem_ofFn.1 hx
    exact ⟨i, bne_iff_ne.1 ht⟩
  rw [hmask]
  refine ⟨fun ⟨i, hi⟩ he => hi (by rw [he]), fun hne => ?_⟩
  by_contra hno
  exact hne (Tab.ext fun i => by_contra fun h => hno ⟨i, fun hi => h hi.symm⟩)

section
variable {s : State}

/-- The link after a report (R161). -/
def LinkEnd.reported (f : BackFrame) (x : LinkEnd) : LinkEnd := { x with
  reportState := f.state
  reportDepth := f.depth
  reportTrim := f.trim
  reportPeak := f.peak
  status := f.levels
  changed := if x.status = f.levels then x.changed else changedLevels x.status f.levels }

/-- SITE_STATE and SITE_STATUS of a report, each where what it tells has changed (R161). -/
def reportTold (f : BackFrame) (s : State) : ControlPort :=
  let sited := if f.state = s.link.reportState then s.cp else
    s.cp.post ⟨.siteState, s.clock.blockCount, [word s.link.reportState.ctorIdx, word f.state.ctorIdx]⟩
  if s.link.status = f.levels then sited else
    sited.post ⟨.siteStatus, s.clock.blockCount,
      [levelsWord f.levels, levelsWord (changedLevels s.link.status f.levels)]⟩

theorem takeReport_eq (f : BackFrame) :
    takeReport f s = { s with cp := reportTold f s, link := s.link.reported f } := by
  unfold takeReport
  dsimp only
  change (if (changedLevels s.link.status f.levels).toList.any id = true then
      post .siteStatus [levelsWord f.levels, levelsWord (changedLevels s.link.status f.levels)] _ else _) = _
  by_cases hl : s.link.status = f.levels
  · rw [if_neg fun h => (changedLevels_any _ _).1 h hl, LinkEnd.reported, if_pos hl, reportTold, if_pos hl]
    by_cases hs : f.state = s.link.reportState
    · rw [if_pos hs, (bne_eq_false_iff_eq).2 hs, ← hl]
      rfl
    · rw [if_neg hs, bne_iff_ne.2 hs, ← hl]
      rfl
  · rw [if_pos ((changedLevels_any _ _).2 hl), LinkEnd.reported, if_neg hl, reportTold, if_neg hl]
    by_cases hs : f.state = s.link.reportState
    · rw [if_pos hs, (bne_eq_false_iff_eq).2 hs]
      rfl
    · rw [if_neg hs, bne_iff_ne.2 hs]
      rfl

end

/-! ## The site's event (R141) -/

/-- What an event of the site may change: notices, the control queue and its requests, the records, the Clip Store, the
alert envelope and the voices. -/
structure EventFrame (s t : State) : Prop where
  frame : t = { s with
    cp := t.cp
    tx := t.tx
    ku := { s.ku with requests := t.ku.requests }
    au := t.au
    cs := t.cs
    me := { s.me with alertEnvelope := t.me.alertEnvelope }
    tg := { s.tg with voices := t.tg.voices } }

section
variable {a b c s t : State}

theorem EventFrame.refl (s : State) : EventFrame s s := ⟨rfl⟩

theorem EventFrame.trans (h : EventFrame a b) (k : EventFrame b c) : EventFrame a c := ⟨by rw [k.frame, h.frame]⟩

theorem Handed.event (h : Handed s t) : EventFrame s t := ⟨by rw [h.frame]⟩

theorem LetGo.event (h : LetGo s t) : EventFrame s t := ⟨by rw [h.frame]⟩

theorem eventFrame_post (k : NoticeKind) (items : List Word) (s : State) : EventFrame s (post k items s) := ⟨rfl⟩

theorem eventFrame_postIf (c : Bool) (k : NoticeKind) (items : List Word) (s : State) :
    EventFrame s (postIf c k items s) := by
  obtain ⟨cp, h⟩ := postIf_eq c k items s
  rw [h]
  exact ⟨rfl⟩

theorem eventFrame_if (p : Prop) [Decidable p] (h : EventFrame s a) (k : EventFrame s b) :
    EventFrame s (if p then a else b) := by
  split
  · exact h
  · exact k

theorem eventFrame_endAlert (id : Nat) (reason : EndReason) (s : State) : EventFrame s (endAlert id reason s) := by
  unfold endAlert
  split
  case h_1 => exact .refl s
  case h_2 r hr =>
    dsimp only
    refine .trans ?_ (eventFrame_postIf ..)
    refine .trans ?_ (eventFrame_post ..)
    refine .trans ?_ (letGo_clip _ _).event
    refine .trans ?_ (letGo_cutIf _ _ _).event
    exact .trans ⟨rfl⟩ (handed_ended r reason _).event

theorem eventFrame_displace (r : Alert) (admitted : Nat) (s : State) : EventFrame s (displaceAlert r admitted s) :=
  (eventFrame_if _ (eventFrame_endAlert ..) ⟨rfl⟩).trans (eventFrame_post ..)

theorem eventFrame_admit (r : Alert) (s : State) : EventFrame s (admitAlert r s).1 := by
  have hadd (u : State) : EventFrame u (addAlert r u) := ⟨rfl⟩
  unfold admitAlert
  split
  · exact hadd s
  · split
    · exact (eventFrame_displace ..).trans (hadd _)
    · exact .refl s

theorem eventFrame_assign (c : Option (Fin 256)) (s : State) : EventFrame s (assignClip c s) := by
  cases c <;> exact ⟨rfl⟩

theorem eventFrame_begin (key : Word) (c : AlertClass) (s : State) : EventFrame s (takeSiteBegin key c s) := by
  refine eventFrame_if _ (.refl s) (eventFrame_if _ ?_ (eventFrame_post ..))
  refine .trans ?_ (handed_frame _ _).event
  refine .trans ?_ (eventFrame_assign ..)
  exact (eventFrame_admit ..).trans ⟨rfl⟩

theorem eventFrame_taken (e : BackEvent) (s : State) : EventFrame s (takeSiteEvent e s) := by
  unfold takeSiteEvent
  split
  · exact eventFrame_begin ..
  · unfold takeSiteCancel
    split
    · exact eventFrame_if _ (eventFrame_endAlert ..) (.refl s)
    · exact .refl s
  · exact .refl s

/-- Handing a record's frame leaves every record but for the blocks since its last frame and what it is owed. -/
theorem handAlertFrame_same (id : Nat) (s : State) : ∀ x ∈ (handAlertFrame id s).au.table, ∃ y ∈ s.au.table,
    ∃ n o, x = { y with sinceFrame := n, frameOwed := o } := by
  intro x hx
  unfold handAlertFrame at hx
  split at hx
  case h_1 =>
    split at hx
    case isTrue =>
      obtain ⟨y, hy, howed⟩ := handControl_owed _ _ x hx
      obtain ⟨z, hz, rfl⟩ := List.mem_map.1 hy
      refine ⟨z, hz, ?_⟩
      rcases howed with rfl | rfl
      · by_cases hid : z.id = id
        · exact ⟨0, z.frameOwed, if_pos hid⟩
        · exact ⟨z.sinceFrame, z.frameOwed, if_neg hid⟩
      · by_cases hid : z.id = id
        · exact ⟨0, true, by rw [if_pos hid]⟩
        · exact ⟨z.sinceFrame, true, by rw [if_neg hid]⟩
    case isFalse => exact ⟨x, hx, x.sinceFrame, x.frameOwed, rfl⟩
  case h_2 => exact ⟨x, hx, x.sinceFrame, x.frameOwed, rfl⟩

theorem handAlertFrame_holds {r : Alert} (id : Nat) (h : Sole r s) :
    ∃ n o, { r with sinceFrame := n, frameOwed := o } ∈ (handAlertFrame id s).au.table := by
  have hid : r.id ∈ (handAlertFrame id s).au.table.map Alert.id := by
    rw [(handed_frame id s).ids]
    exact List.mem_map_of_mem h.1
  obtain ⟨x, hx, hxid⟩ := List.mem_map.1 hid
  obtain ⟨y, hy, n, o, rfl⟩ := handAlertFrame_same id s x hx
  obtain rfl := h.2 y hy hxid
  exact ⟨n, o, hx⟩

theorem siteClip_eq {c : Fin 256} (h : s.settings.siteAlertClip = some c) :
    siteClip s = if (clipAt s c).state = .empty then none else some c := by
  rw [siteClip, h]
  by_cases he : (clipAt s c).state = .empty
  · rw [if_pos he, Option.filter_some_neg (by rw [he]; rfl)]
  · rw [if_neg he, Option.filter_some_pos]
    exact bne_iff_ne.2 he

theorem takeSiteBegin_admits {key : Word} {c : AlertClass} (hnew : ∀ r ∈ s.au.table, r.key ≠ key)
    (hrecent : key ∉ s.au.recent) (room : s.au.table.length < 4) : ∃ n o,
      { ownAlert s (nextAlertId s) key .site c s.settings.defaultDuration 1 (siteClip s) with
        sinceFrame := n, frameOwed := o } ∈ (takeSiteBegin key c s).au.table := by
  have hfree := alertOf_none.1 (nextAlertId_free (s := s) (by omega))
  have hnot : ¬ (keyHeld key s || keyRecent key s) = true := Bool.eq_false_iff.1 (keyNew_iff.2 ⟨hnew, hrecent⟩)
  rw [takeSiteBegin, if_neg hnot]
  dsimp only
  rw [admitAlert_room room]
  refine handAlertFrame_holds _ (sole_appended (l := s.au.table) ?_ hfree)
  cases siteClip s <;> rfl

theorem takeSiteCancel_known {key : Word} {r : Alert} (hr : ownByKey key s = some r) :
    takeSiteCancel key s = if r.origin = .site then endAlert r.id .cancelled s else s := by
  rw [takeSiteCancel, hr]

theorem takeSiteEvent_begin {e : BackEvent} (h : e.kind = 1) : takeSiteEvent e s = takeSiteBegin e.key e.cls s := by
  rw [takeSiteEvent, h]
  rfl

theorem takeSiteEvent_end {e : BackEvent} (h : e.kind = 2) : takeSiteEvent e s = s := by
  rw [takeSiteEvent, h]
  rfl

theorem takeSiteEvent_cancel {e : BackEvent} (h : e.kind = 3) : takeSiteEvent e s = takeSiteCancel e.key s := by
  rw [takeSiteEvent, h]
  rfl

/-! ## The echo (R154, R162) -/

/-- A record that may have been confirmed. -/
def Alert.Confirmed (g : Alert → Alert) : Prop := ∀ a, g a = a ∨ g a = { a with confirmed := true }

theorem Alert.Confirmed.id {g : Alert → Alert} (h : Alert.Confirmed g) (a : Alert) : (g a).id = a.id := by
  rcases h a with e | e <;> rw [e]

theorem Alert.Confirmed.key {g : Alert → Alert} (h : Alert.Confirmed g) (a : Alert) : (g a).key = a.key := by
  rcases h a with e | e <;> rw [e]

theorem Alert.Confirmed.origin {g : Alert → Alert} (h : Alert.Confirmed g) (a : Alert) : (g a).origin = a.origin := by
  rcases h a with e | e <;> rw [e]

theorem confirmAlert_table (id : Nat) (s : State) :
    ∃ g, Alert.Confirmed g ∧ (confirmAlert id s).au = { s.au with table := s.au.table.map g } := by
  have hsame : ∃ g, Alert.Confirmed g ∧ s.au = { s.au with table := s.au.table.map g } :=
    ⟨fun a => a, fun a => .inl rfl, by rw [List.map_id']⟩
  unfold confirmAlert
  split
  case h_1 r _ =>
    split
    case isTrue =>
      refine ⟨fun a => if a.id = id then { a with confirmed := true } else a, fun a => ?_, rfl⟩
      by_cases h : a.id = id
      · exact .inr (if_pos h)
      · exact .inl (if_neg h)
    case isFalse => exact hsame
  case h_2 => exact hsame

theorem sole_map {g : Alert → Alert} {r : Alert} (hg : Alert.Confirmed g) (h : Sole r s) (ht : t.au.table = s.au.table.map g) :
    Sole (g r) t := by
  unfold Sole
  rw [ht]
  refine ⟨List.mem_map_of_mem h.1, fun x hx hid => ?_⟩
  obtain ⟨y, hy, rfl⟩ := List.mem_map.1 hx
  rw [hg.id, hg.id] at hid
  rw [h.2 y hy hid]

theorem takeEcho_frame (e : Option Nat) (s : State) : takeEcho e s = { s with
    cp := (takeEcho e s).cp, au := (takeEcho e s).au, link := { s.link with echo := e } } := by
  cases e with
  | none => rfl
  | some id => exact confirmAlert_frame id { s with link := { s.link with echo := some id } }

theorem takeEcho_table (e : Option Nat) (s : State) :
    ∃ g, Alert.Confirmed g ∧ (takeEcho e s).au = { s.au with table := s.au.table.map g } := by
  cases e with
  | none => exact ⟨fun a => a, fun a => .inl rfl, by rw [List.map_id']; rfl⟩
  | some id => exact confirmAlert_table id { s with link := { s.link with echo := some id } }

theorem takeEcho_none {e : Option Nat}
    (h : ∀ r ∈ s.au.table, e = some r.id → r.id / 256 ≠ s.settings.nodeId.val ∨ r.confirmed = true) :
    takeEcho e s = { s with link := { s.link with echo := e } } := by
  cases e with
  | none => rfl
  | some id =>
    exact confirmAlert_none (id := id) (s := { s with link := { s.link with echo := some id } })
      fun r hr hid => h r hr (congrArg some hid.symm)

theorem takeEcho_first {e : Option Nat} {r : Alert} (h : Sole r s) (he : e = some r.id)
    (hown : r.id / 256 = s.settings.nodeId.val) (hc : r.confirmed = false) : takeEcho e s
      = { s with
        cp := s.cp.post ⟨.alertConfirmed, s.clock.blockCount, [word r.id]⟩
        link := { s.link with echo := e }
        au := { s.au with table := s.au.table.map fun a => if a.id = r.id then { r with confirmed := true } else a } } := by
  rw [he]
  exact confirmAlert_first (s := { s with link := { s.link with echo := some r.id } }) h rfl hown hc

end

/-! ## A back frame taken (R158) -/

section
variable {s : State} {f : BackFrame}

/-- A back frame's outcome, forward errors and report taken (R158 to R161). -/
def backReported (f : BackFrame) (s : State) : State := { s with
  cp := reportTold f { s with cp := linkTold (s.link.state.afterValid s.link.validRun) s }
  link := { LinkEnd.reported f s.link.afterValid with
    lastSiteCount := some f.count
    backWait := 0
    forwardErrors := min 65535 (s.link.forwardErrors + f.crcCount) } }

/-- The state that a back frame's event finds, its echo taken too (R162). -/
def backTaken (f : BackFrame) (s : State) : State := takeEcho f.echo (backReported f s)

theorem takeBack_new (h : s.link.lastSiteCount ≠ some f.count) :
    takeBack f s = f.event.elim (backTaken f s) fun e => takeSiteEvent e (backTaken f s) := by
  have htaken (u : State) (hu : u = validOutcome { s with link := { s.link with
      lastSiteCount := some f.count, backWait := 0 } }) : takeEcho f.echo (takeReport f { u with link := { u.link with
        forwardErrors := bumpBy 65535 f.crcCount u.link.forwardErrors } }) = backTaken f s := by
    rw [hu, validOutcome_eq, takeReport_eq]
    rfl
  refine (if_neg h).trans ?_
  dsimp only
  rw [htaken _ rfl]
  cases f.event <;> rfl

end

section
variable {s : State} {f : BackFrame}

/-- The link once a back frame has been taken (R158 to R162). -/
def backLink (f : BackFrame) (x : LinkEnd) : LinkEnd := { LinkEnd.reported f x.afterValid with
  lastSiteCount := some f.count
  backWait := 0
  forwardErrors := min 65535 (x.forwardErrors + f.crcCount)
  echo := f.echo }

/-- LINK_STATE, SITE_STATE and SITE_STATUS of a back frame (R160, R161). -/
def backTold (f : BackFrame) (s : State) : ControlPort :=
  reportTold f { s with cp := linkTold (s.link.state.afterValid s.link.validRun) s }

theorem backTaken_frame (f : BackFrame) (s : State) : backTaken f s = { s with
    cp := (backTaken f s).cp, au := (backTaken f s).au, link := backLink f s.link } :=
  takeEcho_frame f.echo _

theorem backTaken_posted (f : BackFrame) (s : State) : Posted (backTold f s) (backTaken f s).cp :=
  (takeEcho_steady f.echo (.refl (backReported f s))).posted

theorem backTaken_none
    (h : ∀ r ∈ s.au.table, f.echo = some r.id → r.id / 256 ≠ s.settings.nodeId.val ∨ r.confirmed = true) :
    backTaken f s = { s with cp := backTold f s, link := backLink f s.link } :=
  takeEcho_none h

theorem backTaken_first {r : Alert} (h : Sole r s) (he : f.echo = some r.id) (hown : r.id / 256 = s.settings.nodeId.val)
    (hc : r.confirmed = false) : backTaken f s = { s with
      cp := (backTold f s).post ⟨.alertConfirmed, s.clock.blockCount, [word r.id]⟩
      link := backLink f s.link
      au := { s.au with table := s.au.table.map fun a => if a.id = r.id then { r with confirmed := true } else a } } :=
  takeEcho_first h he hown hc

theorem backTaken_table (f : BackFrame) (s : State) :
    ∃ g, Alert.Confirmed g ∧ (backTaken f s).au = { s.au with table := s.au.table.map g } :=
  takeEcho_table f.echo _

end

/-- Settles O52. -/
theorem backFramesAndLinkState : Obligations.BackFramesAndLinkState := by
  refine ⟨fun noise bytes s hr hs hl hhunt hnoise => ?_, fun s hr hs hl => ?_⟩
  · intro received out x counted
    refine ⟨fun a b h => receiveBack_wrongLength hr hs hl hhunt hnoise h, fun hlen hhalf hp => ?_, fun f hp => ?_⟩
    · have hout : out = .next (backFound (.frame bytes) s) := receiveBack_frame hr hs hl hhunt hnoise ⟨by rw [hhalf]; rfl, hlen⟩
      rw [hout, backFound, hp]
      rfl
    · have hout : out = .next (takeBack f s) := by
        refine (receiveBack_frame hr hs hl hhunt hnoise (parseBack_length hp)).trans (congrArg Host.Outcome.next ?_)
        rw [backFound, hp]
      clear_value out
      obtain rfl := hout
      refine ⟨fun hsame => congrArg Host.Outcome.next (if_pos hsame), fun hnew => ⟨_, rfl, ?_⟩⟩
      rw [takeBack_new hnew]
      have hevent : EventFrame (backTaken f s) (f.event.elim (backTaken f s) fun e => takeSiteEvent e (backTaken f s)) := by
        cases f.event with
        | none => exact .refl _
        | some e => exact eventFrame_taken e _
      have hnone (h : f.event = none) :
          (f.event.elim (backTaken f s) fun e => takeSiteEvent e (backTaken f s)) = backTaken f s := by rw [h]; rfl
      have hsome (e : BackEvent) (h : f.event = some e) :
          (f.event.elim (backTaken f s) fun e => takeSiteEvent e (backTaken f s)) = takeSiteEvent e (backTaken f s) := by
        rw [h]
        rfl
      have hposted : Posted (backTaken f s).cp
          (f.event.elim (backTaken f s) fun e => takeSiteEvent e (backTaken f s)).cp := by
        cases f.event with
        | none => exact .refl _
        | some e => exact (takeSiteEvent_steady e (.refl _)).posted
      generalize (f.event.elim (backTaken f s) fun e => takeSiteEvent e (backTaken f s)) = t at *
      have hframe := backTaken_frame f s
      have hlink : t.link = backLink f s.link := by
        rw [hevent.frame, hframe]
      refine ⟨hlink, ?_, ?_, fun e he hk hkey hrecent room => ?_, fun e r he hk hsole hkey hown honly => ?_,
        fun e he hk hecho => ?_⟩
      · rw [hlink, hevent.frame, hframe]
      · intro bits note linked sited told
        have hbits : bits = levelsWord := funext fun v => (levelsWord_eq v).symm
        have htold : told = backTold f s := by
          simp only [told, sited, linked, note, hbits, hlink]
          unfold backTold reportTold linkTold
          dsimp only
          by_cases hst : x.status = f.levels
          · rw [if_pos hst, if_pos (show s.link.status = f.levels from hst)]
            rfl
          · rw [if_neg hst, if_neg (show s.link.status ≠ f.levels from hst)]
            have hchanged : (backLink f s.link).changed = changedLevels s.link.status f.levels := if_neg hst
            rw [hchanged]
            rfl
        rw [htold]
        refine ⟨(backTaken_posted f s).trans hposted, fun hno hown => ?_, fun r hsole hown hecho hc => ?_⟩
        · rw [hnone hno, backTaken_none hown]
          exact ⟨rfl, rfl, rfl, rfl, rfl, rfl, rfl⟩
        · rw [backTaken_first hsole hecho hown hc] at hposted hnone
          refine ⟨hposted, fun hno => ?_⟩
          rw [hnone hno]
          exact ⟨rfl, rfl⟩
      · obtain ⟨g, hg, htable⟩ := backTaken_table f s
        have hnew (r : Alert) (hr : r ∈ (backTaken f s).au.table) : r.key ≠ e.key := by
          rw [htable] at hr
          obtain ⟨y, hy, rfl⟩ := List.mem_map.1 hr
          rw [hg.key]
          exact hkey y hy
        obtain ⟨n, o, hmem⟩ := takeSiteBegin_admits (s := backTaken f s) (c := e.cls) hnew (by rw [htable]; exact hrecent)
          (by rw [htable]; exact (List.length_map _).trans_lt room)
        rw [hsome e he, takeSiteEvent_begin hk]
        refine ⟨_, hmem, rfl, rfl, rfl, rfl, by rw [hframe]; rfl, rfl, rfl, ?_, fun c hc => ?_⟩
        · have hset : (backTaken f s).settings = s.settings := by rw [hframe]
          have hid : nextAlertId (backTaken f s) = s.settings.nodeId.val * 256 + (nextSeq (backTaken f s)).toNat := by
            rw [nextAlertId, hset]
          have := (nextSeq (backTaken f s)).isLt
          show nextAlertId (backTaken f s) / 256 = _
          omega
        · have hclip : clipAt (backTaken f s) c = clipAt s c := by
            rw [hframe]
            rfl
          have hset : (backTaken f s).settings.siteAlertClip = some c := by
            rw [hframe]
            exact hc
          exact (siteClip_eq hset).trans (by rw [hclip])
      · obtain ⟨g, hg, htable⟩ := backTaken_table f s
        have hset : (backTaken f s).settings = s.settings := by rw [hframe]
        have htab : (backTaken f s).au.table = s.au.table.map g := by rw [htable]
        have hsoleG : Sole (g r) (backTaken f s) := sole_map hg hsole htab
        have hby : ownByKey e.key (backTaken f s) = some (g r) := by
          refine ownByKey_only hsoleG.1 ((hg.key r).trans hkey) (by rw [hg.id, hset]; exact hown) fun y hy hyk hyo => ?_
          rw [htab] at hy
          obtain ⟨z, hz, rfl⟩ := List.mem_map.1 hy
          rw [hg.key] at hyk
          rw [hg.id, hset] at hyo
          rw [honly z hz hyk hyo]
        rw [hsome e he, takeSiteEvent_cancel hk, takeSiteCancel_known hby, hg.origin]
        refine ⟨fun ho => ?_, fun ho => ?_⟩
        · rw [if_pos ho]
          have hgone := (alertEnded (g r) .cancelled _ hsoleG).gone
          rwa [hg.id] at hgone ⊢
        · rw [if_neg ho]
          exact ⟨g r, hsoleG.1, hg.id r⟩
      · rw [hsome e he, takeSiteEvent_end hk, backTaken_none fun r hr h => absurd h (hecho r hr)]
  · intro x history run y told
    have hcount : missingCount s.link.afterMissing.history = (history.filter fun o => o = .missing).length :=
      missingCount_eq _
    refine ⟨fun hd => if_pos hd, fun hd => (linkRow_taken (s := { s with link := { x with
      backWait := min 6 (x.backWait + 1) } }) hr hs hl declareMissing).trans (congrArg Host.Outcome.next (if_neg hd).symm),
      fun h => (linkRow_taken hr hs hl _).trans (congrArg Host.Outcome.next (declareMissing_waits h)), fun hd hw => ?_⟩
    have hrow : exec .backFrameMissing s = .next (declareMissing s) := linkRow_taken hr hs hl _
    rw [hrow, declareMissing_due hd hw, hcount]
    refine ⟨fun hrun => congrArg Host.Outcome.next ?_, fun hrun hup hmiss => congrArg Host.Outcome.next ?_,
      fun hrun hno => congrArg Host.Outcome.next ?_⟩
    · have hlast : 16 ≤ s.link.afterMissing.missingRun := Nat.le_of_eq (show 16 = run from hrun.symm)
      rw [if_pos hlast]
      exact (setLink_down (s := { s with link := s.link.afterMissing }) hd).trans
        (congrArg (fun cp => ({ s with cp := cp, link := { y with
          state := .down, history := [], missingRun := 0, backWait := 0, lastSiteCount := none, echo := none } } : State))
          (if_neg (Ne.symm hd)))
    · have hmore : ¬ 16 ≤ s.link.afterMissing.missingRun := Nat.not_le.2 (show run < 16 from hrun)
      have hne : LinkState.degraded ≠ s.link.state := fun h => nomatch h.trans hup
      rw [if_neg hmore, if_pos ⟨hup, hmiss⟩]
      exact (setLink_other (new := .degraded) (s := { s with link := s.link.afterMissing }) nofun hne).trans
        (congrArg (fun cp => ({ s with cp := cp, link := { y with state := .degraded } } : State)) (if_neg hne))
    · have hmore : ¬ 16 ≤ s.link.afterMissing.missingRun := Nat.not_le.2 (show run < 16 from hrun)
      rw [if_neg hmore, if_neg fun h => hno.elim (fun hne => hne h.1) fun hlt => Nat.not_le.2 hlt h.2]
      rfl

end Sys2Proof.Machine
end

section
/-! SUPPORT. The LINK node's filler (R165 to R167), and the settling of O53. -/

namespace Sys2Proof.Machine

/-! ## The crossfade of a sample (R167, R176) -/

/-- A rounded weighted mean of two samples lies within them. -/
theorem crossfade_within {g a b : Int} (h0 : 0 ≤ g) (h1 : g ≤ 4096) :
    min a b ≤ crossfade g a b ∧ crossfade g a b ≤ max a b := by
  have hlow : min a b * 4096 ≤ a * (4096 - g) + b * g := by
    calc min a b * 4096 = min a b * (4096 - g) + min a b * g := by ring
      _ ≤ a * (4096 - g) + b * g := add_le_add (mul_le_mul_of_nonneg_right (min_le_left a b) (by omega))
          (mul_le_mul_of_nonneg_right (min_le_right a b) h0)
  have hhigh : a * (4096 - g) + b * g ≤ max a b * 4096 := by
    calc a * (4096 - g) + b * g ≤ max a b * (4096 - g) + max a b * g :=
          add_le_add (mul_le_mul_of_nonneg_right (le_max_left a b) (by omega))
            (mul_le_mul_of_nonneg_right (le_max_right a b) h0)
      _ = max a b * 4096 := by ring
  unfold crossfade
  omega

theorem crossfade_zero (a b : Int) : crossfade 0 a b = a := by
  unfold crossfade
  omega

theorem crossfade_full (a b : Int) : crossfade 4096 a b = b := by
  unfold crossfade
  omega

/-! ## The filler's moves (R165, R166) -/

section
variable {s : State}

theorem readyFiller_none (h : ¬ ∃ c, s.settings.fillerClip = some c ∧ (clipAt s c).state = .ready) :
    readyFiller s = none := by
  refine Option.filter_eq_none_iff.2 fun c hc hr => h ⟨c, hc, beq_iff_eq.1 hr⟩

theorem reportMissing_ready {c : Fin 256} (h : readyFiller s = some c) : reportMissing s = s := by
  rw [reportMissing, h]
  rfl

theorem reportMissing_none (h : readyFiller s = none) : reportMissing s = post .fillerMissing [] s := by
  rw [reportMissing, h]
  rfl

/-- A LINK node's filler that fades in (R166). -/
def fadedIn (x : Filler) : Filler := { x with state := .fadingIn, gain := x.gain.giveEnvelope 4096 16 }

theorem fillerIn_on (h : s.link.filler.state ≠ .off) :
    fillerIn .link s = { s with link := { s.link with filler := fadedIn s.link.filler } } := if_neg h

theorem fillerIn_ready {c : Fin 256} (h : s.link.filler.state = .off) (hc : readyFiller s = some c) : fillerIn .link s
    = { s with link := { s.link with filler := { fadedIn s.link.filler with underrunTold := false } } } :=
  (if_pos h).trans (reportMissing_ready hc)

theorem fillerIn_missing (h : s.link.filler.state = .off) (hc : readyFiller s = none) : fillerIn .link s
    = post .fillerMissing [] { s with link := { s.link with filler := { fadedIn s.link.filler with underrunTold := false } } } :=
  (if_pos h).trans (reportMissing_none hc)

theorem fillerTurnsOn_acts (h : s.link.filler.state = .off ∨ s.link.filler.state = .fadingOut)
    (hd : s.settings.fillerDelay ≤ s.link.fillerDelay) : fillerTurnsOn s = post .fillerOn [] (fillerIn .link s) :=
  if_pos ⟨h, hd⟩

theorem fillerTurnsOn_waits (h : s.link.fillerDelay < s.settings.fillerDelay ∨ s.link.filler.state = .fadingIn
    ∨ s.link.filler.state = .on) : fillerTurnsOn s = s := by
  refine if_neg fun ⟨hst, hd⟩ => ?_
  rcases h with h | h | h
  · exact Nat.not_le.2 h hd
  · rw [h] at hst
    exact hst.elim nofun nofun
  · rw [h] at hst
    exact hst.elim nofun nofun

theorem fillerFadeInDone_waits (h : s.link.filler.gain.atRest = false) : fillerFadeInDone s = s :=
  if_neg fun hc => Bool.false_ne_true (h.symm.trans hc.2.1)

theorem fillerTurnsOff_waits (h : s.link.filler.gain.atRest = false) : fillerTurnsOff s = s :=
  if_neg fun hc => Bool.false_ne_true (h.symm.trans hc.2.1)

/-- The fetches of a reader that has let them go bring no frames (R88). -/
theorem disownFetch_waiting (r : Reader) : ∀ f ∈ (disownFetch r s).cs.waiting, f.reader = r → f.live = false := by
  intro f hf hr
  obtain ⟨y, -, rfl⟩ := List.mem_map.1 hf
  split at hr
  case isTrue h => rw [if_pos h]
  case isFalse h => exact absurd hr h

end

/-- Settles O53. -/
theorem fillerFollowsSilence : Obligations.FillerFollowsSilence := by
  refine ⟨fun g a b h0 h1 => ⟨rfl, (crossfade_within h0 h1).1, (crossfade_within h0 h1).2, crossfade_zero a b,
    crossfade_full a b⟩, fun s hr hs hl => ?_⟩
  intro x noted ready faded
  have hrow (f : State → State) : linkRow f s = .next (f s) := linkRow_taken hr hs hl f
  refine ⟨fun hd => ⟨fun hst => ?_, fun hst ⟨c, hc, hready⟩ => ?_, fun hst hno => ?_⟩,
    fun h => (hrow _).trans (congrArg _ (fillerTurnsOn_waits h)), ?_, fun hst hrest hfull => (hrow _).trans (congrArg _ ?_),
    fun hst hrest hzero => ⟨_, (hrow _).trans (congrArg _ (if_pos ⟨hst, hrest, hzero⟩)), rfl, disownFetch_waiting .filler⟩,
    fun h => ⟨(hrow _).trans (congrArg _ (fillerFadeInDone_waits h)), (hrow _).trans (congrArg _ (fillerTurnsOff_waits h))⟩⟩
  · refine (hrow _).trans (congrArg _ ((fillerTurnsOn_acts (.inr hst) hd).trans ?_))
    rw [fillerIn_on fun h => nomatch h.symm.trans hst]
    rfl
  · refine (hrow _).trans (congrArg _ ((fillerTurnsOn_acts (.inl hst) hd).trans ?_))
    rw [fillerIn_ready hst (readyFiller_some hc hready)]
    rfl
  · refine (hrow _).trans (congrArg _ ((fillerTurnsOn_acts (.inl hst) hd).trans ?_))
    rw [fillerIn_missing hst (readyFiller_none hno)]
    rfl
  · intro counted
    refine ⟨fun hst hsil => if_pos ⟨hst, hsil⟩, fun h => ?_⟩
    have hno : ¬ ((x.state = .fadingIn ∨ x.state = .on) ∧ s.me.silent = false) := by
      rintro ⟨hst, hsil⟩
      rcases h with h | h | h
      · rw [h] at hst
        exact hst.elim nofun nofun
      · rw [h] at hst
        exact hst.elim nofun nofun
      · exact nomatch h.symm.trans hsil
    exact (linkRow_taken (s := counted) hr hs hl _).trans (congrArg _ (if_neg hno).symm)
  · exact if_pos ⟨hst, hrest, hfull⟩

end Sys2Proof.Machine
end

section
/-! SUPPORT. The feed at the site: forward frames, missing events and feed loss (R170 to R173, R178), for
O54. -/

namespace Sys2Proof.Machine

/-! ## The site's status filters (R178) -/

section
variable {s : State}

theorem acceptStatus_eq (i : Fin 8) (s : State) : acceptStatus i s = { s with site := { s.site with
    status := s.site.status.put i (Tab.at s.site.status i).settle } } := by
  unfold acceptStatus Filter.settle
  dsimp only
  split
  · rfl
  · rw [Tab.put_at]

theorem acceptStatuses_eq (l : List (Fin 8)) (s : State) : forEach l acceptStatus s = { s with site := { s.site with
    status := l.foldl (fun t i => t.put i (Tab.at t i).settle) s.site.status } } := by
  induction l generalizing s with
  | nil => rfl
  | cons i l ih => rw [forEach_cons, ih, acceptStatus_eq]; rfl

theorem at_foldl_settle (l : List (Fin 8)) (hl : l.Nodup) (t : Tab Filter 8) (j : Fin 8) :
    Tab.at (l.foldl (fun t i => t.put i (Tab.at t i).settle) t) j
      = if j ∈ l then (Tab.at t j).settle else Tab.at t j := by
  induction l generalizing t with
  | nil => rfl
  | cons i l ih =>
    obtain ⟨hi, hl⟩ := List.nodup_cons.1 hl
    rw [List.foldl_cons, ih hl]
    by_cases hj : j = i
    · subst hj
      rw [if_neg hi, if_pos List.mem_cons_self, Tab.at_put, if_pos rfl]
    · rw [Tab.at_put_ne _ _ hj]
      simp [hj]

/-- The eight filters after a sample each, with the acceptances (R178). -/
def sampled (levels : List Bool) (t : Tab Filter 8) : Tab Filter 8 :=
  Vector.ofFn fun i => (Tab.at t i).sample (levels.getD i.val false)

theorem sampleStatus_eq (levels : List Bool) (s : State) : sampleStatus levels s = { s with site := { s.site with
    status := sampled levels s.site.status } } := by
  unfold sampleStatus
  dsimp only
  rw [acceptStatuses_eq]
  dsimp only
  refine congrArg (fun t => ({ s with site := { s.site with status := t } } : State)) (Tab.ext fun i => ?_)
  rw [at_foldl_settle _ (List.nodup_finRange 8), if_pos (List.mem_finRange i), Tab.at_ofFn, sampled, Tab.at_ofFn]
  rfl

end

/-! ## What a cut and the feed leave of each other (R170, R171, R181) -/

/-- A change of the site that neither reads nor moves what a cut does. -/
structure CutApart (g : SiteEnd → SiteEnd) : Prop where
  player : ∀ x, (g x).player = x.player
  envelope : ∀ x, (g x).filler.envelope = x.filler.envelope
  kept : ∀ x p e, g { x with player := p, filler := { x.filler with envelope := e } }
    = { g x with player := p, filler := { (g x).filler with envelope := e } }

/-- The site changed. -/
def onSite (g : SiteEnd → SiteEnd) (s : State) : State := { s with site := g s.site }

section
variable {g : SiteEnd → SiteEnd} {s : State}

theorem idleSitePlayer_apart (h : CutApart g) (k : SiteChange) :
    idleSitePlayer k (onSite g s) = onSite g (idleSitePlayer k s) := by
  have hkept := h.kept s.site { SitePlayer.reset with envelope := s.site.player.envelope }
    (s.site.filler.envelope.giveEnvelope 4096 8)
  rw [idleSitePlayer_leaves, idleSitePlayer_leaves k s]
  unfold onSite
  dsimp only
  rw [hkept, h.player, h.envelope]
  rfl

theorem cutSiteAiring_stops (hi : s.site.player.state ≠ .idle) (hf : s.site.player.state ≠ .fading)
    (hh : s.site.player.handed = false) : cutSiteAiring s = idleSitePlayer .cut s := by
  unfold cutSiteAiring
  dsimp only
  split
  case h_1 k => exact absurd k hi
  case h_2 k => exact absurd k hf
  case h_3 => exact if_pos hh

theorem cutSiteAiring_fades (hi : s.site.player.state ≠ .idle) (hf : s.site.player.state ≠ .fading)
    (hh : s.site.player.handed = true) : cutSiteAiring s = { s with site := { s.site with player := { s.site.player with
      cutFrom := s.site.player.state, state := .fading, envelope := s.site.player.envelope.giveEnvelope 0 8 } } } := by
  unfold cutSiteAiring
  dsimp only
  split
  case h_1 k => exact absurd k hi
  case h_2 k => exact absurd k hf
  case h_3 => exact if_neg fun k => Bool.false_ne_true (k.symm.trans hh)

theorem cutSiteAiring_left (h : s.site.player.state = .idle ∨ s.site.player.state = .fading) : cutSiteAiring s = s :=
  (siteCut s).left h

theorem cutSiteAiring_apart (h : CutApart g) : cutSiteAiring (onSite g s) = onSite g (cutSiteAiring s) := by
  have hp : (onSite g s).site.player = s.site.player := h.player s.site
  by_cases hl : s.site.player.state = .idle ∨ s.site.player.state = .fading
  · rw [cutSiteAiring_left hl, cutSiteAiring_left (by rw [hp]; exact hl)]
  · obtain ⟨hi, hf⟩ := not_or.1 hl
    cases hh : s.site.player.handed with
    | false =>
      rw [cutSiteAiring_stops hi hf hh, cutSiteAiring_stops (by rw [hp]; exact hi) (by rw [hp]; exact hf)
        (by rw [hp]; exact hh), idleSitePlayer_apart h]
    | true =>
      let p : SitePlayer := { s.site.player with
        cutFrom := s.site.player.state, state := .fading, envelope := s.site.player.envelope.giveEnvelope 0 8 }
      have hkept : g { s.site with player := p } = { g s.site with player := p } :=
        (h.kept s.site p s.site.filler.envelope).trans (by rw [← h.envelope s.site])
      rw [cutSiteAiring_fades hi hf hh, cutSiteAiring_fades (by rw [hp]; exact hi) (by rw [hp]; exact hf)
        (by rw [hp]; exact hh), hp]
      exact congrArg (fun x => ({ s with site := x } : State)) hkept.symm

end

/-! ## The steps of the feed, case by case (R170 to R173) -/

section
variable {s : State}

/-- The site's filler fades in, from OFF with its underrun not told (R165, R172). -/
def fillerFaded (x : SiteEnd) : SiteEnd := { x with filler := fadedIn x.filler }

def fillerLeftOff (x : SiteEnd) : SiteEnd := { x with filler := { fadedIn x.filler with underrunTold := false } }

/-- A frame at the end of the buffer, as far as it fits (R170). -/
def framed (b : Block) (x : SiteEnd) : SiteEnd := { x with
  buffer := x.buffer ++ (block48 b).take (2048 - x.buffer.length)
  overflows := if decide (2048 - x.buffer.length < 48) then bump 65535 x.overflows else x.overflows
  overflowTold := x.overflowTold || decide (2048 - x.buffer.length < 48) }

/-- The buffer emptied with the feed (R172). -/
def feedEmptied (x : SiteEnd) : SiteEnd := { x with buffer := [], validRun := 0 }

/-- A frame missed, its concealment apart (R171). -/
def frameMissed (x : SiteEnd) : SiteEnd := { x with expected := x.expected + 1, validRun := 0 }

def lossCounted (x : SiteEnd) : SiteEnd := { x with lossRun := bump 32 x.lossRun }

theorem siteFillerIn_eq (s : State) : fillerIn .site s = if s.site.filler.state = .off then
      reportMissing (onSite fillerLeftOff s) else onSite fillerFaded s := rfl

/-- The feed's buffer after a frame, with the overflow told (R170). -/
def appended (b : Block) (s : State) : State :=
  postIf (decide (2048 - s.site.buffer.length < 48) && !s.site.overflowTold) .feedOverflow []
    (onSite (framed b) s)

theorem appendFrame_eq (b : Block) (s : State) : appendFrame b s
    = if (appended b s).site.state = .locking ∧ (appended b s).settings.targetDepth ≤ (appended b s).site.buffer.length then
        enterFeeding (appended b s) else appended b s := rfl

theorem loseFeed_waits (h : s.site.lossRun < 32) : loseFeed s = s := if_pos h

/-- The feed lost in LOCKING (R172). -/
theorem loseFeed_locking (h : 32 ≤ s.site.lossRun) (hst : s.site.state = .locking) : loseFeed s
    = if s.site.lockingOrigin = .filling then
        clearAired (safeLevels (setSiteState s.site.lockingOrigin .lossRun
          (onSite feedEmptied s)))
      else safeLevels (setSiteState s.site.lockingOrigin .lossRun
        (onSite feedEmptied s)) := by
  unfold loseFeed
  rw [if_neg (Nat.not_lt.2 h), hst]
  rfl

/-- The feed lost in FEEDING (R172). -/
theorem loseFeed_feeding (h : 32 ≤ s.site.lossRun) (hst : s.site.state = .feeding) : loseFeed s
    = clearAired (safeLevels (fillerIn .site (setSiteState .filling .lossRun
        (onSite feedEmptied s)))) := by
  unfold loseFeed
  rw [if_neg (Nat.not_lt.2 h), hst]
  rfl

theorem loseFeed_else (hl : s.site.state ≠ .locking) (hf : s.site.state ≠ .feeding) : loseFeed s = s := by
  unfold loseFeed
  split
  · rfl
  · split
    case h_1 k => exact absurd k hl
    case h_2 k => exact absurd k hf
    case h_3 => rfl

/-- The state that a missing event leaves, its loss limit apart (R171). -/
def concealed (s : State) : State :=
  onSite lossCounted (appendFrame (concealFrame s) (onSite frameMissed s))

theorem missingOnce_conceals (h : s.site.state = .locking ∨ s.site.state = .feeding) :
    missingOnce s = loseFeed (concealed s) := if_pos h

theorem missingOnce_else (h : ¬ (s.site.state = .locking ∨ s.site.state = .feeding)) :
    missingOnce s = onSite frameMissed s := if_neg h

end

/-! ## What the feed's counts leave (R170, R171) -/

/-- The gap wait and the back count put in place. -/
def pace (w b : Nat) (x : SiteEnd) : SiteEnd := { x with gapWait := w, backCount := b }

section
variable {w b : Nat} {s : State}

theorem pace_apart : CutApart (pace w b) := ⟨fun _ => rfl, fun _ => rfl, fun _ _ _ => rfl⟩

theorem onSite_pace {f : SiteEnd → SiteEnd} (h : ∀ x, f (pace w b x) = pace w b (f x)) :
    onSite f (onSite (pace w b) s) = onSite (pace w b) (onSite f s) :=
  congrArg (fun x => ({ s with site := x } : State)) (h s.site)

theorem post_pace (k : NoticeKind) (items : List Word) :
    post k items (onSite (pace w b) s) = onSite (pace w b) (post k items s) := rfl

theorem postIf_pace (c : Bool) (k : NoticeKind) (items : List Word) :
    postIf c k items (onSite (pace w b) s) = onSite (pace w b) (postIf c k items s) := by
  cases c <;> rfl

theorem safeLevels_pace : safeLevels (onSite (pace w b) s) = onSite (pace w b) (safeLevels s) := rfl

theorem clearAired_pace : clearAired (onSite (pace w b) s) = onSite (pace w b) (clearAired s) := rfl

theorem setSiteState_pace (new : SiteState) (c : FeedCause) :
    setSiteState new c (onSite (pace w b) s) = onSite (pace w b) (setSiteState new c s) := rfl

theorem reportMissing_pace : reportMissing (onSite (pace w b) s) = onSite (pace w b) (reportMissing s) :=
  postIf_pace ..

theorem siteFillerIn_pace : fillerIn .site (onSite (pace w b) s) = onSite (pace w b) (fillerIn .site s) := by
  rw [siteFillerIn_eq, siteFillerIn_eq, apply_ite (onSite (pace w b)), ← reportMissing_pace,
    onSite_pace (f := fillerLeftOff) fun _ => rfl, onSite_pace (f := fillerFaded) fun _ => rfl]
  rfl

theorem enterFeeding_pace : enterFeeding (onSite (pace w b) s) = onSite (pace w b) (enterFeeding s) :=
  cutSiteAiring_apart (s := fillerOut .site { setSiteState .feeding .depthReached s with site := {
    (setSiteState .feeding .depthReached s).site with
      overflowTold := false, underrunTold := false, lastDrawn := (0, 0) } }) pace_apart

theorem loseFeed_pace : loseFeed (onSite (pace w b) s) = onSite (pace w b) (loseFeed s) := by
  have hcleared : onSite feedEmptied (onSite (pace w b) s)
      = onSite (pace w b) (onSite feedEmptied s) := onSite_pace fun _ => rfl
  by_cases hrun : s.site.lossRun < 32
  · exact (loseFeed_waits (s := onSite (pace w b) s) hrun).trans (congrArg _ (loseFeed_waits hrun).symm)
  have hrun := Nat.not_lt.1 hrun
  by_cases hl : s.site.state = .locking
  · refine (loseFeed_locking (s := onSite (pace w b) s) hrun hl).trans ?_
    rw [loseFeed_locking hrun hl, hcleared, setSiteState_pace, safeLevels_pace, clearAired_pace,
      apply_ite (onSite (pace w b))]
    rfl
  by_cases hf : s.site.state = .feeding
  · refine (loseFeed_feeding (s := onSite (pace w b) s) hrun hf).trans ?_
    rw [loseFeed_feeding hrun hf, hcleared, setSiteState_pace, siteFillerIn_pace, safeLevels_pace, clearAired_pace]
  · exact (loseFeed_else (s := onSite (pace w b) s) hl hf).trans (congrArg _ (loseFeed_else hl hf).symm)

theorem appended_pace (c : Block) : appended c (onSite (pace w b) s) = onSite (pace w b) (appended c s) := by
  unfold appended
  rw [← postIf_pace, onSite_pace (f := framed c) fun _ => rfl]
  rfl

theorem appendFrame_pace (c : Block) : appendFrame c (onSite (pace w b) s) = onSite (pace w b) (appendFrame c s) := by
  rw [appendFrame_eq, appendFrame_eq, appended_pace, enterFeeding_pace, apply_ite (onSite (pace w b))]
  rfl

theorem concealed_pace : concealed (onSite (pace w b) s) = onSite (pace w b) (concealed s) := by
  have hframe : concealFrame (onSite (pace w b) s) = concealFrame s := rfl
  unfold concealed
  rw [hframe, onSite_pace (f := frameMissed) fun _ => rfl, appendFrame_pace, onSite_pace (f := lossCounted) fun _ => rfl]

theorem missingOnce_pace : missingOnce (onSite (pace w b) s) = onSite (pace w b) (missingOnce s) := by
  by_cases h : s.site.state = .locking ∨ s.site.state = .feeding
  · refine (missingOnce_conceals (s := onSite (pace w b) s) h).trans ?_
    rw [missingOnce_conceals h, concealed_pace, loseFeed_pace]
  · refine (missingOnce_else (s := onSite (pace w b) s) h).trans ?_
    rw [missingOnce_else h, onSite_pace (f := frameMissed) fun _ => rfl]

theorem missingTimes_pace (n : Nat) : missingTimes n (onSite (pace w b) s) = onSite (pace w b) (missingTimes n s) := by
  induction n generalizing s with
  | zero => rfl
  | succ n ih => rw [missingTimes, missingTimes, missingOnce_pace, ih]

/-! ## A frame taken (R170, R172) -/

/-- What a frame tells, taken (R170). -/
def forwardRead (f : ForwardFrame) (x : SiteEnd) : SiteEnd := { x with
  expected := f.count + 1, gapWait := 0
  reportAlert := f.alert, reportClass := f.cls, reportFiller := f.filler, reportLineUp := f.lineUp }

/-- What a frame in the buffer leaves beside it (R170, R178). -/
def frameTaken (f : ForwardFrame) (levels : List Bool) (x : SiteEnd) : SiteEnd := { x with
  lastFrame := block48 f.samples, lossRun := 0, levels := f.levels, status := sampled levels x.status }

theorem frameTaken_apart (f : ForwardFrame) (levels : List Bool) : CutApart (frameTaken f levels) :=
  ⟨fun _ => rfl, fun _ => rfl, fun _ _ _ => rfl⟩

/-- LOCKING begins with an empty buffer (R172). -/
def lockingBegun (origin : SiteState) (x : SiteEnd) : SiteEnd := { x with
  lockingOrigin := origin, buffer := [], lossRun := 0 }

/-- A good frame counted in FILLING (R172). -/
def runCounted (x : SiteEnd) : SiteEnd := { x with validRun := bump 256 x.validRun }

section
variable {f : ForwardFrame} {levels : List Bool}

theorem takeIntoBuffer_eq (f : ForwardFrame) (levels : List Bool) (s : State) :
    takeIntoBuffer f levels s = onSite (frameTaken f levels) (appendFrame f.samples s) := sampleStatus_eq ..

theorem enterLocking_eq (origin : SiteState) (c : FeedCause) (f : ForwardFrame) (levels : List Bool) (s : State) :
    enterLocking origin c f levels s
      = takeIntoBuffer f levels (setSiteState .locking c (onSite (lockingBegun origin) s)) := rfl

theorem takeForward_noFeed (h : s.site.state = .noFeed) : takeForward f levels s
    = enterLocking .noFeed .validFrame f levels (onSite (forwardRead f) s) := by
  unfold takeForward
  dsimp only
  split
  case h_1 => rfl
  case h_2 k | h_3 k | h_4 k => exact nomatch h.symm.trans k

theorem takeForward_buffers (h : s.site.state = .locking ∨ s.site.state = .feeding) : takeForward f levels s
    = takeIntoBuffer f levels (onSite (forwardRead f) s) := by
  unfold takeForward
  dsimp only
  split
  case h_1 k | h_4 k => exact h.elim (fun h => nomatch h.symm.trans k) fun h => nomatch h.symm.trans k
  case h_2 | h_3 => rfl

theorem takeForward_filling (h : s.site.state = .filling) : takeForward f levels s
    = relock f levels (onSite runCounted (onSite (forwardRead f) s)) := by
  unfold takeForward
  dsimp only
  split
  case h_1 k | h_2 k | h_3 k => exact nomatch h.symm.trans k
  case h_4 => rfl

theorem takeIntoBuffer_pace :
    takeIntoBuffer f levels (onSite (pace w b) s) = onSite (pace w b) (takeIntoBuffer f levels s) := by
  rw [takeIntoBuffer_eq, takeIntoBuffer_eq, appendFrame_pace, onSite_pace (f := frameTaken f levels) fun _ => rfl]

theorem enterLocking_pace (origin : SiteState) (c : FeedCause) :
    enterLocking origin c f levels (onSite (pace w b) s) = onSite (pace w b) (enterLocking origin c f levels s) := by
  rw [enterLocking_eq, enterLocking_eq, onSite_pace (f := lockingBegun origin) fun _ => rfl, setSiteState_pace,
    takeIntoBuffer_pace]

theorem relock_pace : relock f levels (onSite (pace w b) s) = onSite (pace w b) (relock f levels s) := by
  by_cases h : s.site.state = .filling ∧ 256 ≤ s.site.validRun
  · exact (if_pos h).trans ((enterLocking_pace ..).trans (congrArg _ (if_pos h).symm))
  · exact (if_neg h).trans (congrArg _ (if_neg h).symm)

theorem forwardRead_pace : onSite (forwardRead f) (onSite (pace w b) s) = onSite (pace 0 b) (onSite (forwardRead f) s) := rfl

theorem siteState_cases (x : SiteState) : x = .noFeed ∨ (x = .locking ∨ x = .feeding) ∨ x = .filling := by
  cases x <;> simp

/-- A frame taken sets the gap wait to 0 and leaves the back count (R170, R171). -/
theorem takeForward_pace : takeForward f levels (onSite (pace w b) s) = onSite (pace 0 b) (takeForward f levels s) := by
  rcases siteState_cases s.site.state with h | h | h
  · refine (takeForward_noFeed (s := onSite (pace w b) s) h).trans ?_
    rw [takeForward_noFeed h, forwardRead_pace, enterLocking_pace]
  · refine (takeForward_buffers (s := onSite (pace w b) s) h).trans ?_
    rw [takeForward_buffers h, forwardRead_pace, takeIntoBuffer_pace]
  · refine (takeForward_filling (s := onSite (pace w b) s) h).trans ?_
    rw [takeForward_filling h, forwardRead_pace, onSite_pace (f := runCounted) fun _ => rfl, relock_pace]

/-- The back count put in place. -/
def backed (b : Nat) (x : SiteEnd) : SiteEnd := { x with backCount := b }

theorem missingTimes_backed (n : Nat) : missingTimes n (onSite (backed b) s) = onSite (backed b) (missingTimes n s) := by
  have hself : missingTimes n s = onSite (pace s.site.gapWait s.site.backCount) (missingTimes n s) := missingTimes_pace n
  have hgap : (missingTimes n s).site.gapWait = s.site.gapWait := by
    rw [hself]
    rfl
  refine (missingTimes_pace (w := s.site.gapWait) n).trans ?_
  rw [← hgap]
  rfl

theorem takeForward_backed : takeForward f levels (onSite (backed b) s) = onSite (backed b) (takeForward f levels s) := by
  have hself : takeForward f levels s = onSite (pace 0 s.site.backCount) (takeForward f levels s) :=
    takeForward_pace (w := s.site.gapWait)
  have hgap : (takeForward f levels s).site.gapWait = 0 := congrArg (fun t : State => t.site.gapWait) hself
  refine (takeForward_pace (w := s.site.gapWait)).trans ?_
  generalize takeForward f levels s = t at *
  exact congrArg (fun n => onSite (pace n b) t) hgap.symm

/-- The distance of a frame from the next expected one (R170). -/
def ahead (f : ForwardFrame) (s : State) : Nat := (f.count - s.site.expected).toNat

theorem compareForward_next (h : s.site.state = .noFeed ∨ ahead f s = 0) :
    compareForward f levels s = takeForward f levels s := if_pos h

theorem compareForward_lost (hst : s.site.state ≠ .noFeed) (h1 : 1 ≤ ahead f s) (h32 : ahead f s ≤ 32) :
    compareForward f levels s = takeForward f levels (missingTimes (ahead f s) s) :=
  (if_neg fun h => h.elim hst fun k : ahead f s = 0 => by omega).trans (if_pos h32)

theorem compareForward_late (hst : s.site.state ≠ .noFeed) (h : 65472 ≤ ahead f s) : compareForward f levels s
    = onSite (fun x => { x with lates := bump 65535 x.lates }) s :=
  (if_neg fun k => k.elim hst fun k : ahead f s = 0 => by omega).trans ((if_neg fun k : ahead f s ≤ 32 => by omega).trans (if_pos h))

theorem compareForward_breaks (hst : s.site.state ≠ .noFeed) (h : 32 < ahead f s) (hlate : ahead f s < 65472) :
    compareForward f levels s
      = takeForward f levels (onSite (fun x => { x with breaks := bump 65535 x.breaks }) s) :=
  (if_neg fun k => k.elim hst fun k : ahead f s = 0 => by omega).trans ((if_neg fun k : ahead f s ≤ 32 => by omega).trans
    (if_neg fun k : 65472 ≤ ahead f s => by omega))

theorem compareForward_backed :
    compareForward f levels (onSite (backed b) s) = onSite (backed b) (compareForward f levels s) := by
  by_cases hnext : s.site.state = .noFeed ∨ ahead f s = 0
  · refine (compareForward_next (s := onSite (backed b) s) hnext).trans ?_
    rw [compareForward_next hnext, takeForward_backed]
  obtain ⟨hst, hd⟩ := not_or.1 hnext
  by_cases h32 : ahead f s ≤ 32
  · refine (compareForward_lost (s := onSite (backed b) s) hst (Nat.one_le_iff_ne_zero.2 hd) h32).trans ?_
    rw [compareForward_lost hst (Nat.one_le_iff_ne_zero.2 hd) h32, ← takeForward_backed, ← missingTimes_backed]
    rfl
  by_cases hlate : 65472 ≤ ahead f s
  · exact (compareForward_late (s := onSite (backed b) s) hst hlate).trans
      (congrArg (onSite (backed b)) (compareForward_late hst hlate)).symm
  · refine (compareForward_breaks (s := onSite (backed b) s) hst (Nat.lt_of_not_le h32) (Nat.lt_of_not_le hlate)).trans ?_
    rw [compareForward_breaks hst (by omega) (by omega), ← takeForward_backed]
    rfl

end

/-! ## Frames lost in LOCKING and FEEDING (R171) -/

/-- A frame at the end of the buffer. -/
def extended (c : Block) (x : SiteEnd) : SiteEnd := { x with buffer := x.buffer ++ block48 c }

theorem framed_fits {c : Block} {x : SiteEnd} (h : x.buffer.length ≤ 2000) : framed c x = extended c x := by
  have htake : (block48 c).take (2048 - x.buffer.length) = block48 c := by
    refine List.take_of_length_le ?_
    rw [length_block48]
    omega
  have hfull : decide (2048 - x.buffer.length < 48) = false := decide_eq_false (by omega)
  rw [framed, htake, hfull, Bool.or_false]
  rfl

theorem appended_fits {c : Block} (h : s.site.buffer.length ≤ 2000) : appended c s = onSite (extended c) s := by
  have hfull : decide (2048 - s.site.buffer.length < 48) = false := decide_eq_false (by omega)
  rw [appended, hfull]
  exact congrArg (fun x => ({ s with site := x } : State)) (framed_fits h)

section
variable {c : Block}

theorem length_extended (c : Block) (x : SiteEnd) : (extended c x).buffer.length = x.buffer.length + 48 := by
  rw [extended, List.length_append, length_block48]

theorem appendFrame_fits (h : s.site.buffer.length ≤ 2000)
    (hno : ¬ (s.site.state = .locking ∧ s.settings.targetDepth ≤ s.site.buffer.length + 48)) :
    appendFrame c s = onSite (extended c) s := by
  rw [appendFrame_eq, appended_fits h]
  refine if_neg fun ⟨hst, ht⟩ => hno ⟨hst, ?_⟩
  rw [← length_extended c]
  exact ht

theorem appendFrame_feeds (h : s.site.buffer.length ≤ 2000) (hst : s.site.state = .locking)
    (ht : s.settings.targetDepth ≤ s.site.buffer.length + 48) :
    appendFrame c s = enterFeeding (onSite (extended c) s) := by
  rw [appendFrame_eq, appended_fits h]
  refine if_pos ⟨hst, ?_⟩
  rw [← length_extended c] at ht
  exact ht

theorem appendFrame_overflows (h : 2000 < s.site.buffer.length) (hst : s.site.state ≠ .locking)
    (hn : s.site.overflowTold = false) : appendFrame c s
      = { s with
        cp := s.cp.post ⟨.feedOverflow, s.clock.blockCount, []⟩
        site := { s.site with
          buffer := s.site.buffer ++ (block48 c).take (2048 - s.site.buffer.length)
          overflows := min 65535 (s.site.overflows + 1), overflowTold := true } } := by
  have hfull : decide (2048 - s.site.buffer.length < 48) = true := decide_eq_true (by omega)
  have happended : appended c s = { s with
      cp := s.cp.post ⟨.feedOverflow, s.clock.blockCount, []⟩
      site := { s.site with
        buffer := s.site.buffer ++ (block48 c).take (2048 - s.site.buffer.length)
        overflows := min 65535 (s.site.overflows + 1), overflowTold := true } } := by
    have hframed : framed c s.site = { s.site with
        buffer := s.site.buffer ++ (block48 c).take (2048 - s.site.buffer.length)
        overflows := min 65535 (s.site.overflows + 1), overflowTold := true } := by
      rw [framed, hfull, Bool.or_true]
      rfl
    rw [appended, hfull, hn, onSite, hframed]
    rfl
  rw [appendFrame_eq, happended]
  exact if_neg fun h => hst h.1

/-- The site after a missing event in LOCKING or FEEDING, the loss limit and the target depth apart (R171). -/
def missed (x : SiteEnd) : SiteEnd :=
  lossCounted (extended (if x.lossRun = 0 then x.lastFrame.map halve else silence) (frameMissed x))

theorem concealed_fits (h : s.site.buffer.length ≤ 2000)
    (hno : ¬ (s.site.state = .locking ∧ s.settings.targetDepth ≤ s.site.buffer.length + 48)) :
    concealed s = onSite missed s := by
  rw [concealed, appendFrame_fits (s := onSite frameMissed s) h hno]
  rfl

theorem missingOnce_fits (hst : s.site.state = .locking ∨ s.site.state = .feeding) (h : s.site.buffer.length ≤ 2000)
    (hno : ¬ (s.site.state = .locking ∧ s.settings.targetDepth ≤ s.site.buffer.length + 48)) :
    missingOnce s = loseFeed (onSite missed s) := by
  rw [missingOnce_conceals hst, concealed_fits h hno]

theorem missed_lossRun {x : SiteEnd} (h : x.lossRun < 32) : (missed x).lossRun = x.lossRun + 1 :=
  Nat.min_eq_right (Nat.succ_le_of_lt h)

theorem missed_length (x : SiteEnd) : (missed x).buffer.length = x.buffer.length + 48 := length_extended ..

/-- A run of missing events short of the loss limit, of a full buffer and of the target depth. -/
theorem missingTimes_fits (n : Nat) (hst : s.site.state = .locking ∨ s.site.state = .feeding)
    (hrun : s.site.lossRun + n < 32) (h : s.site.buffer.length + 48 * n ≤ 2048)
    (hno : ¬ (s.site.state = .locking ∧ s.settings.targetDepth ≤ s.site.buffer.length + 48 * n)) :
    missingTimes n s = onSite missed^[n] s := by
  induction n generalizing s with
  | zero => rfl
  | succ n ih =>
    have hlen := missed_length s.site
    have hloss := missed_lossRun (x := s.site) (by omega)
    have hone : missingOnce s = onSite missed s := by
      rw [missingOnce_fits hst (by omega) fun k => hno ⟨k.1, by omega⟩]
      exact loseFeed_waits (show (missed s.site).lossRun < 32 by omega)
    rw [missingTimes, hone, ih (s := onSite missed s) hst (show (missed s.site).lossRun + n < 32 by omega)
      (show (missed s.site).buffer.length + 48 * n ≤ 2048 by omega)
      fun k => hno ⟨k.1, by have := k.2; change s.settings.targetDepth ≤ (missed s.site).buffer.length + 48 * n at this; omega⟩]
    rfl

/-- What a run of missing events leaves but for the concealment (R171). -/
theorem missed_iterate (n : Nat) (x : SiteEnd) : missed^[n] x = { x with
    expected := (missed^[n] x).expected
    validRun := if n = 0 then x.validRun else 0
    lossRun := (missed^[n] x).lossRun
    buffer := (missed^[n] x).buffer } := by
  induction n generalizing x with
  | zero => rfl
  | succ n ih =>
    rw [Function.iterate_succ_apply, if_neg (Nat.succ_ne_zero n)]
    refine (ih (missed x)).trans ?_
    cases n <;> rfl

theorem missed_iterate_lossRun (n : Nat) {x : SiteEnd} (h : x.lossRun + n ≤ 32) :
    (missed^[n] x).lossRun = x.lossRun + n := by
  induction n generalizing x with
  | zero => rfl
  | succ n ih =>
    have hone := missed_lossRun (x := x) (by omega)
    rw [Function.iterate_succ_apply, ih (by omega), hone]
    omega

theorem missed_iterate_length (n : Nat) (x : SiteEnd) :
    (missed^[n] x).buffer.length = x.buffer.length + 48 * n := by
  induction n generalizing x with
  | zero => rfl
  | succ n ih =>
    rw [Function.iterate_succ_apply, ih, missed_length]
    omega

theorem block48_of_length {c : Block} (h : c.length = 48) : block48 c = c := by
  rw [block48, List.take_append_of_le_length (by omega), List.take_of_length_le (by omega)]

/-- After the first event of a loss run the concealment is silence (R171). -/
theorem missed_iterate_silent (n : Nat) {x : SiteEnd} (h : 1 ≤ x.lossRun) :
    (missed^[n] x).buffer = x.buffer ++ (List.replicate n silence).flatten := by
  induction n generalizing x with
  | zero => simp
  | succ n ih =>
    have hloss : 1 ≤ (missed x).lossRun := by
      show 1 ≤ min 32 (x.lossRun + 1)
      omega
    have hbuffer : (missed x).buffer = x.buffer ++ silence := by
      show x.buffer ++ block48 (if x.lossRun = 0 then _ else silence) = _
      rw [if_neg (by omega), block48_of_length (by rw [silence, List.length_replicate])]
    rw [Function.iterate_succ_apply, ih hloss, hbuffer, List.append_assoc, List.replicate_succ, List.flatten_cons]

/-- The first missing event of a run conceals with the last frame at half level (R171). -/
theorem missed_buffer {x : SiteEnd} (h : x.lastFrame.length = 48) : (missed x).buffer
    = x.buffer ++ if x.lossRun = 0 then x.lastFrame.map (fun p => (p.1 / 2, p.2 / 2)) else silence := by
  have hlen : (if x.lossRun = 0 then x.lastFrame.map halve else silence).length = 48 := by
    split
    · rw [List.length_map, h]
    · rw [silence, List.length_replicate]
  exact congrArg (x.buffer ++ ·) (block48_of_length hlen)

end

/-! ## The feed lost (R172) -/

/-- FEED_STATE told (R172). -/
def feedTold (a b c : Nat) (s : State) : ControlPort :=
  s.cp.post ⟨.feedState, s.clock.blockCount, [word a, word b, word c]⟩

/-- The site once its feed is lost in FEEDING, its filler apart (R172). -/
def feedLost (safe : Tab Nat 4) (x : SiteEnd) : SiteEnd := { x with
  state := .filling, buffer := [], validRun := 0, levels := safe
  alerts := x.alerts.map fun r => { r with aired := false } }

theorem loseFeed_feeding_on (h : 32 ≤ s.site.lossRun) (hst : s.site.state = .feeding) (hf : s.site.filler.state ≠ .off) :
    loseFeed s = { s with
      cp := feedTold 2 3 2 s
      site := { feedLost s.settings.safeLevels s.site with filler := fadedIn s.site.filler } } := by
  have hin : fillerIn .site (setSiteState .filling .lossRun (onSite feedEmptied s))
      = onSite fillerFaded (setSiteState .filling .lossRun (onSite feedEmptied s)) := if_neg hf
  have htold : (setSiteState .filling .lossRun (onSite feedEmptied s)).cp = feedTold 2 3 2 s := by
    show s.cp.post ⟨.feedState, s.clock.blockCount, [word s.site.state.ctorIdx, _, _]⟩ = _
    rw [hst]
    rfl
  rw [loseFeed_feeding h hst, hin, ← htold]
  rfl

theorem loseFeed_feeding_off (h : 32 ≤ s.site.lossRun) (hst : s.site.state = .feeding) (hf : s.site.filler.state = .off) :
    ∃ cp, Posted (feedTold 2 3 2 s) cp ∧ loseFeed s = { s with
      cp := cp
      site := { feedLost s.settings.safeLevels s.site with
        filler := { fadedIn s.site.filler with underrunTold := false } } } := by
  have hin : fillerIn .site (setSiteState .filling .lossRun (onSite feedEmptied s))
      = reportMissing (onSite fillerLeftOff (setSiteState .filling .lossRun (onSite feedEmptied s))) := if_pos hf
  have htold : (onSite fillerLeftOff (setSiteState .filling .lossRun (onSite feedEmptied s))).cp = feedTold 2 3 2 s := by
    show s.cp.post ⟨.feedState, s.clock.blockCount, [word s.site.state.ctorIdx, _, _]⟩ = _
    rw [hst]
    rfl
  have hposted := (reportMissing_steady (.refl (onSite fillerLeftOff
    (setSiteState .filling .lossRun (onSite feedEmptied s))))).posted
  obtain ⟨cp, hcp⟩ := postIf_eq
    (readyFiller (onSite fillerLeftOff (setSiteState .filling .lossRun (onSite feedEmptied s)))).isNone .fillerMissing []
    (onSite fillerLeftOff (setSiteState .filling .lossRun (onSite feedEmptied s)))
  rw [reportMissing, hcp, htold] at hposted
  refine ⟨cp, hposted, ?_⟩
  rw [loseFeed_feeding h hst, hin, reportMissing, hcp]
  rfl

/-- The feed lost in LOCKING goes back to where LOCKING came from (R172). -/
theorem loseFeed_locking_noFeed (h : 32 ≤ s.site.lossRun) (hst : s.site.state = .locking)
    (ho : s.site.lockingOrigin = .noFeed) : loseFeed s = { s with
      cp := feedTold 1 0 2 s
      site := { s.site with state := .noFeed, buffer := [], validRun := 0, levels := s.settings.safeLevels } } := by
  have hne : ¬ s.site.lockingOrigin = .filling := fun k => nomatch ho.symm.trans k
  have htold : (setSiteState s.site.lockingOrigin .lossRun (onSite feedEmptied s)).cp = feedTold 1 0 2 s := by
    show s.cp.post ⟨.feedState, s.clock.blockCount, [word s.site.state.ctorIdx, _, _]⟩ = _
    rw [hst, ho]
    rfl
  rw [loseFeed_locking h hst, if_neg hne, ← htold, ho]
  rfl

theorem loseFeed_locking_filling (h : 32 ≤ s.site.lossRun) (hst : s.site.state = .locking)
    (ho : s.site.lockingOrigin = .filling) : loseFeed s = { s with
      cp := feedTold 1 3 2 s, site := feedLost s.settings.safeLevels s.site } := by
  have htold : (setSiteState s.site.lockingOrigin .lossRun (onSite feedEmptied s)).cp = feedTold 1 3 2 s := by
    show s.cp.post ⟨.feedState, s.clock.blockCount, [word s.site.state.ctorIdx, _, _]⟩ = _
    rw [hst, ho]
    rfl
  rw [loseFeed_locking h hst, if_pos ho, ← htold, ho]
  rfl

/-! ## FEEDING entered (R172, R173) -/

/-- The site as FEEDING begins, a local airing's cut apart (R172, R173). -/
def feedingBegun (x : SiteEnd) : SiteEnd := { x with
  state := .feeding, overflowTold := false, underrunTold := false, lastDrawn := (0, 0)
  filler := { x.filler with state := .fadingOut, gain := x.filler.gain.giveEnvelope 0 16 } }

theorem enterFeeding_eq (hst : s.site.state = .locking) :
    enterFeeding s = cutSiteAiring { s with cp := feedTold 1 2 1 s, site := feedingBegun s.site } := by
  have htold : (setSiteState .feeding .depthReached s).cp = feedTold 1 2 1 s := by
    show s.cp.post ⟨.feedState, s.clock.blockCount, [word s.site.state.ctorIdx, _, _]⟩ = _
    rw [hst]
    rfl
  rw [← htold]
  rfl

/-! ## Missing events outside LOCKING and FEEDING (R171) -/

theorem frameMissed_iterate (n : Nat) (x : SiteEnd) : frameMissed^[n] x = { x with
    expected := (frameMissed^[n] x).expected, validRun := if n = 0 then x.validRun else 0 } := by
  induction n generalizing x with
  | zero => rfl
  | succ n ih =>
    rw [Function.iterate_succ_apply, if_neg (Nat.succ_ne_zero n)]
    refine (ih (frameMissed x)).trans ?_
    cases n <;> rfl

theorem missingTimes_else (n : Nat) (h : ¬ (s.site.state = .locking ∨ s.site.state = .feeding)) :
    missingTimes n s = onSite frameMissed^[n] s := by
  induction n generalizing s with
  | zero => rfl
  | succ n ih =>
    rw [missingTimes, missingOnce_else h, ih (s := onSite frameMissed s) h]
    rfl

theorem missingTimes_add (m n : Nat) (s : State) : missingTimes (m + n) s = missingTimes n (missingTimes m s) := by
  induction m generalizing s with
  | zero => rw [Nat.zero_add]; rfl
  | succ m ih => rw [Nat.succ_add, missingTimes, missingTimes, ih]

/-! ## What a missing event leaves (R171) -/

/-- What every step of a missing event keeps. -/
structure FeedKept (s t : State) : Prop where
  stream : t.site.stream = s.site.stream
  expected : t.site.expected = s.site.expected
  validRun : s.site.validRun = 0 → t.site.validRun = 0

theorem FeedKept.trans {a b c : State} (h : FeedKept a b) (k : FeedKept b c) : FeedKept a c :=
  ⟨k.stream.trans h.stream, k.expected.trans h.expected, fun hv => k.validRun (h.validRun hv)⟩

theorem feedKept_cut (s : State) : FeedKept s (cutSiteAiring s) := by
  have h := (siteCut s).frame
  generalize cutSiteAiring s = t at h
  rw [h]
  exact ⟨rfl, rfl, fun hv => hv⟩

theorem feedKept_postIf (c : Bool) (k : NoticeKind) (items : List Word) (s : State) : FeedKept s (postIf c k items s) := by
  obtain ⟨cp, h⟩ := postIf_eq c k items s
  rw [h]
  exact ⟨rfl, rfl, fun hv => hv⟩

theorem feedKept_if {a b : State} (p : Prop) [Decidable p] (h : FeedKept s a) (k : FeedKept s b) :
    FeedKept s (if p then a else b) := by
  split
  · exact h
  · exact k

theorem feedKept_fillerIn (s : State) : FeedKept s (fillerIn .site s) := by
  rw [siteFillerIn_eq]
  refine feedKept_if _ (.trans (b := onSite fillerLeftOff s) ⟨rfl, rfl, fun hv => hv⟩ (feedKept_postIf ..))
    ⟨rfl, rfl, fun hv => hv⟩

theorem feedKept_enter (s : State) : FeedKept s (enterFeeding s) := by
  have hcut (t : State) (h : FeedKept s t) : FeedKept s (cutSiteAiring t) := h.trans (feedKept_cut t)
  exact hcut (fillerOut .site { setSiteState .feeding .depthReached s with site := {
    (setSiteState .feeding .depthReached s).site with
      overflowTold := false, underrunTold := false, lastDrawn := (0, 0) } }) ⟨rfl, rfl, fun hv => hv⟩

theorem feedKept_append (c : Block) (s : State) : FeedKept s (appendFrame c s) := by
  have happended : FeedKept s (appended c s) :=
    .trans (b := onSite (framed c) s) ⟨rfl, rfl, fun hv => hv⟩ (feedKept_postIf ..)
  rw [appendFrame_eq]
  exact feedKept_if _ (happended.trans (feedKept_enter _)) happended

theorem feedKept_lose (s : State) : FeedKept s (loseFeed s) := by
  by_cases hrun : s.site.lossRun < 32
  · rw [loseFeed_waits hrun]
    exact ⟨rfl, rfl, fun hv => hv⟩
  by_cases hl : s.site.state = .locking
  · rw [loseFeed_locking (Nat.not_lt.1 hrun) hl]
    exact feedKept_if _ ⟨rfl, rfl, fun _ => rfl⟩ ⟨rfl, rfl, fun _ => rfl⟩
  by_cases hf : s.site.state = .feeding
  · rw [loseFeed_feeding (Nat.not_lt.1 hrun) hf]
    have hin := feedKept_fillerIn (setSiteState .filling .lossRun (onSite feedEmptied s))
    exact ⟨hin.stream, hin.expected, fun _ => hin.validRun rfl⟩
  · rw [loseFeed_else hl hf]
    exact ⟨rfl, rfl, fun hv => hv⟩

theorem missingOnce_kept (s : State) : FeedKept (onSite frameMissed s) (missingOnce s) := by
  by_cases h : s.site.state = .locking ∨ s.site.state = .feeding
  · rw [missingOnce_conceals h]
    refine .trans ?_ (feedKept_lose _)
    have happend := feedKept_append (concealFrame s) (onSite frameMissed s)
    exact ⟨happend.stream, happend.expected, happend.validRun⟩
  · rw [missingOnce_else h]
    exact ⟨rfl, rfl, fun hv => hv⟩

end

end Sys2Proof.Machine
end

section
/-! SUPPORT. Forward frames as they come on the stream (R170, R208), and the settling of O54. -/

namespace Sys2Proof.Machine

section
variable {s : State} {noise bytes : List Byte} {levels : List Bool} {f : ForwardFrame}

theorem parseForward_length (h : parseForward bytes = some f) : (halfAt bytes 0).toNat = 302 ∧ bytes.length = 304 := by
  obtain ⟨p, hp, -⟩ := Option.map_eq_some_iff.1 h
  exact linkPayload_length hp

/-! ## The forward stream (R208) -/

section
variable (hr : s.cp.device = .running) (hs : s.settings.roles.site = true)
include hr hs

theorem siteRow_taken (f : State → State) : siteRow f s = .next (f s) :=
  congrArg Host.Outcome.next (if_pos ((atSite_iff hr).trans hs))

variable (hhunt : s.site.stream = .hunt) (hnoise : ∀ b ∈ noise, b ≠ 0xA5#8)
include hhunt hnoise

/-- What a forward stream brings that hunts before it and after it. -/
theorem receiveForward_found {x : List LinkFound} (hx : linkScan 302 .hunt (onStream bytes) = (.hunt, x)) :
    exec (.forwardFrameReceived (noise ++ 0xA5#8 :: 0x5A#8 :: bytes) levels) s
      = .next (forEach x (forwardFound levels) s) := by
  refine (siteRow_taken hr hs _).trans (congrArg Host.Outcome.next ?_)
  have hscan : linkScan 302 s.site.stream (noise ++ 0xA5#8 :: 0x5A#8 :: bytes) = (.hunt, x) := by
    rw [hhunt, linkScan_noise 302 _ noise hnoise]
    exact hx
  have hsame : ({ s with site := { s.site with stream := .hunt } } : State) = s := by rw [← hhunt]
  refine (if_pos ((atSite_iff hr).trans hs)).trans ?_
  rw [hscan]
  dsimp only
  rw [hsame]

theorem receiveForward_frame (hlen : (halfAt bytes 0).toNat = 302 ∧ bytes.length = 304) :
    exec (.forwardFrameReceived (noise ++ 0xA5#8 :: 0x5A#8 :: bytes) levels) s
      = .next (forwardFound levels (.frame bytes) s) :=
  receiveForward_found hr hs hhunt hnoise (linkScan_frame 302 bytes hlen.1 (by decide) hlen.2)

theorem receiveForward_wrongLength {a b : Byte} (h : (a ++ b).toNat ≠ 302) :
    exec (.forwardFrameReceived (noise ++ 0xA5#8 :: 0x5A#8 :: [a, b]) levels) s = .next (forwardError s) :=
  receiveForward_found hr hs hhunt hnoise (linkScan_wrongLength 302 a b h [])

/-- A good frame counts toward the next back frame (R170, R175). -/
def backCounted (x : SiteEnd) : SiteEnd := { x with backCount := x.backCount + 1 }

theorem receiveForward_taken (hp : parseForward bytes = some f) :
    exec (.forwardFrameReceived (noise ++ 0xA5#8 :: 0x5A#8 :: bytes) levels) s
      = .next (sendBack (onSite backCounted (compareForward f levels s))) := by
  refine (receiveForward_frame hr hs hhunt hnoise (parseForward_length hp)).trans (congrArg Host.Outcome.next ?_)
  rw [forwardFound, hp]
  rfl

end

theorem compareForward_backCount : (compareForward f levels s).site.backCount = s.site.backCount := by
  have hself : compareForward f levels s = onSite (backed s.site.backCount) (compareForward f levels s) :=
    compareForward_backed
  rw [hself]
  rfl

/-- A frame that no back frame follows (R175). -/
theorem compareForward_counted :
    onSite backCounted (compareForward f levels s) = compareForward f levels (onSite (backed (s.site.backCount + 1)) s) := by
  rw [compareForward_backed]
  have hback := compareForward_backCount (f := f) (levels := levels) (s := s)
  generalize compareForward f levels s = t at *
  rw [← hback]
  rfl

theorem sendBack_waits (h : s.site.backCount < 4) : sendBack s = s := if_neg (Nat.not_le.2 h)

/-! ## A missing event (R171) -/

theorem missed_eq {x : SiteEnd} (h : x.lastFrame.length = 48) : missed x = { x with
    expected := x.expected + 1
    validRun := 0
    lossRun := min 32 (x.lossRun + 1)
    buffer := x.buffer ++ if x.lossRun = 0 then x.lastFrame.map (fun p => (p.1 / 2, p.2 / 2)) else silence } :=
  congrArg (fun c => ({ x with
    expected := x.expected + 1, validRun := 0, lossRun := min 32 (x.lossRun + 1), buffer := c } : SiteEnd)) (missed_buffer h)

theorem overdue_waits (h : s.site.state = .noFeed ∨ s.site.gapWait < 2) : overdue s = s :=
  if_neg fun ⟨hst, hw⟩ => h.elim (fun k => hst k) (Nat.not_lt.2 hw)

theorem overdue_due (hst : s.site.state ≠ .noFeed) (hw : 2 ≤ s.site.gapWait) :
    overdue s = missingOnce { s with site := { s.site with gapWait := 1 } } := if_pos ⟨hst, hw⟩

/-- A missing event that is due, short of a full buffer and of the target depth (R171). -/
theorem overdue_conceals (hw : 2 ≤ s.site.gapWait) (h : s.site.buffer.length ≤ 2000) (hlast : s.site.lastFrame.length = 48)
    (hst : s.site.state = .feeding
      ∨ (s.site.state = .locking ∧ s.site.buffer.length + 48 < s.settings.targetDepth)) :
    overdue s = loseFeed { s with site := { s.site with
      gapWait := 1, expected := s.site.expected + 1, validRun := 0, lossRun := min 32 (s.site.lossRun + 1)
      buffer := s.site.buffer
        ++ if s.site.lossRun = 0 then s.site.lastFrame.map (fun p => (p.1 / 2, p.2 / 2)) else silence } } := by
  have hne : s.site.state ≠ .noFeed := fun k =>
    hst.elim (fun h => nomatch h.symm.trans k) fun h => nomatch h.1.symm.trans k
  have hno : ¬ (s.site.state = .locking ∧ s.settings.targetDepth ≤ s.site.buffer.length + 48) := fun k =>
    hst.elim (fun h => nomatch h.symm.trans k.1) fun h => Nat.not_le.2 h.2 k.2
  rw [overdue_due hne hw, missingOnce_fits (s := { s with site := { s.site with gapWait := 1 } })
    (hst.elim .inr fun h => .inl h.1) h hno]
  exact congrArg (fun x => loseFeed { s with site := x }) (missed_eq (x := { s.site with gapWait := 1 }) hlast)

theorem lossCounted_apart : CutApart lossCounted := ⟨fun _ => rfl, fun _ => rfl, fun _ _ _ => rfl⟩

/-- A missing event whose concealment brings LOCKING to the target depth (R171, R172). -/
theorem missingOnce_feeds (hst : s.site.state = .locking) (h : s.site.buffer.length ≤ 2000)
    (ht : s.settings.targetDepth ≤ s.site.buffer.length + 48) : missingOnce s
      = loseFeed (cutSiteAiring { s with cp := feedTold 1 2 1 s, site := feedingBegun (missed s.site) }) := by
  rw [missingOnce_conceals (.inl hst), concealed, appendFrame_feeds (s := onSite frameMissed s) h hst ht,
    enterFeeding_eq (s := onSite (extended (concealFrame s)) (onSite frameMissed s)) hst,
    ← cutSiteAiring_apart lossCounted_apart]
  rfl

/-! ## A frame into the buffer (R170, R172) -/

theorem takeIntoBuffer_fits (h : s.site.buffer.length ≤ 2000)
    (hno : ¬ (s.site.state = .locking ∧ s.settings.targetDepth ≤ s.site.buffer.length + 48)) :
    takeIntoBuffer f levels s = onSite (frameTaken f levels) (onSite (extended f.samples) s) := by
  rw [takeIntoBuffer_eq, appendFrame_fits h hno]

/-- The append that enters FEEDING cuts a local airing with the frame's own effects in place (R172, R181). -/
theorem takeIntoBuffer_feeds (h : s.site.buffer.length ≤ 2000) (hst : s.site.state = .locking)
    (ht : s.settings.targetDepth ≤ s.site.buffer.length + 48) : takeIntoBuffer f levels s
      = cutSiteAiring { s with
        cp := feedTold 1 2 1 s, site := frameTaken f levels (feedingBegun (extended f.samples s.site)) } := by
  rw [takeIntoBuffer_eq, appendFrame_feeds h hst ht, enterFeeding_eq (s := onSite (extended f.samples) s) hst]
  exact (cutSiteAiring_apart (frameTaken_apart f levels)).symm

theorem enterLocking_fits {origin : SiteState} {c : FeedCause} (ht : 48 < s.settings.targetDepth) :
    enterLocking origin c f levels s = { s with
      cp := feedTold s.site.state.ctorIdx 1 c.ctorIdx s
      site := frameTaken f levels { s.site with
        state := .locking, lockingOrigin := origin, buffer := block48 f.samples } } := by
  rw [enterLocking_eq, takeIntoBuffer_fits (s := setSiteState .locking c (onSite (lockingBegun origin) s))
    (Nat.zero_le _) fun k => Nat.not_le.2 ht k.2]
  rfl

theorem relock_waits (h : s.site.state ≠ .filling ∨ s.site.validRun < 256) : relock f levels s = s :=
  if_neg fun ⟨hst, hv⟩ => h.elim (fun k => k hst) (Nat.not_lt.2 hv)

theorem relock_locks (hst : s.site.state = .filling) (hv : 256 ≤ s.site.validRun) (ht : 48 < s.settings.targetDepth) :
    relock f levels s = { s with
      cp := feedTold 3 1 3 s
      site := frameTaken f levels { s.site with
        state := .locking, lockingOrigin := .filling, buffer := block48 f.samples } } := by
  refine (if_pos ⟨hst, hv⟩).trans ((enterLocking_fits ht).trans ?_)
  rw [hst]
  rfl

/-! ## Frames lost before one (R170, R171) -/

/-- The gap wait that a frame finds makes no difference. -/
theorem takeForward_gap (w : Nat) (v : State) :
    takeForward f levels (onSite (pace w v.site.backCount) v) = takeForward f levels v := by
  have hself : takeForward f levels v = onSite (pace 0 v.site.backCount) (takeForward f levels v) :=
    takeForward_pace (w := v.site.gapWait)
  rw [takeForward_pace, ← hself]

/-- In NO_FEED missing events leave nothing that a frame does not set (R170, R171). -/
theorem takeForward_noFeed_missed {v : State} (n : Nat) (hst : v.site.state = .noFeed) (hv : v.site.validRun = 0) :
    takeForward f levels (missingTimes n v) = takeForward f levels v := by
  have hno : ¬ (v.site.state = .locking ∨ v.site.state = .feeding) := by
    rw [hst]
    exact fun k => k.elim nofun nofun
  have hsite : forwardRead f (frameMissed^[n] v.site) = forwardRead f v.site := by
    rw [frameMissed_iterate, hv, ite_self, ← hv]
    rfl
  have hmissed : (onSite frameMissed^[n] v).site.state = .noFeed := by
    show (frameMissed^[n] v.site).state = _
    rw [frameMissed_iterate]
    exact hst
  rw [missingTimes_else n hno, takeForward_noFeed hmissed, takeForward_noFeed hst]
  exact congrArg (fun x => enterLocking .noFeed .validFrame f levels { v with site := x }) hsite

/-- In FILLING missing events advance the count, and a valid run of 0 stays (R171). -/
theorem missingTimes_filling {v : State} (n : Nat) (hst : v.site.state = .filling) (hv : v.site.validRun = 0) :
    ∃ e, missingTimes n v = { v with site := { v.site with expected := e } } := by
  have hno : ¬ (v.site.state = .locking ∨ v.site.state = .feeding) := by
    rw [hst]
    exact fun k => k.elim nofun nofun
  have hrun : (if n = 0 then v.site.validRun else 0) = v.site.validRun := by rw [hv, ite_self]
  have hsite := frameMissed_iterate n v.site
  rw [hrun] at hsite
  exact ⟨_, (missingTimes_else n hno).trans (congrArg (fun x => ({ v with site := x } : State)) hsite)⟩

theorem missingOnce_backCount (s : State) : (missingOnce s).site.backCount = s.site.backCount := by
  have hself : missingOnce s = onSite (pace s.site.gapWait s.site.backCount) (missingOnce s) := missingOnce_pace
  rw [hself]
  rfl

/-- Of the frames lost before one, the first makes its missing event at once (R170, R171). -/
theorem compareForward_missed (w : Nat) (hst : s.site.state ≠ .noFeed) (h1 : 1 ≤ ahead f s) (h32 : ahead f s ≤ 32) :
    compareForward f levels s
      = compareForward f levels (onSite (pace w s.site.backCount) (missingOnce s)) := by
  obtain ⟨k, hk⟩ := Nat.exists_eq_add_of_le' h1
  have hkept := missingOnce_kept s
  rw [compareForward_lost hst h1 h32, hk, missingTimes, ← missingOnce_backCount s]
  have hahead : ahead f (missingOnce s) = k := by
    have hexp : (missingOnce s).site.expected = s.site.expected + 1 := hkept.expected
    unfold ahead at hk ⊢
    rw [hexp]
    bv_omega
  have hv : (missingOnce s).site.validRun = 0 := hkept.validRun rfl
  generalize missingOnce s = v at *
  by_cases hnext : v.site.state = .noFeed ∨ k = 0
  · rw [compareForward_next (s := onSite (pace w v.site.backCount) v) (hnext.imp_right fun h => hahead.trans h),
      takeForward_gap]
    rcases hnext with h | rfl
    · exact takeForward_noFeed_missed k h hv
    · rfl
  · obtain ⟨hv', hk'⟩ := not_or.1 hnext
    have hsame : ahead f (onSite (pace w v.site.backCount) v) = k := hahead
    have hback : (missingTimes k v).site.backCount = v.site.backCount := by
      have hself : missingTimes k v = onSite (pace v.site.gapWait v.site.backCount) (missingTimes k v) := missingTimes_pace k
      rw [hself]
      rfl
    rw [compareForward_lost (s := onSite (pace w v.site.backCount) v) hv' (by omega) (by omega), hsame,
      missingTimes_pace, ← hback, takeForward_gap]

/-! ## What a frame comes to, case by case (R170 to R172) -/

theorem compareForward_locks (hst : s.site.state = .noFeed) (ht : 48 < s.settings.targetDepth) :
    compareForward f levels s = { s with
      cp := feedTold 0 1 0 s
      site := frameTaken f levels { forwardRead f s.site with
        state := .locking, lockingOrigin := .noFeed, buffer := block48 f.samples } } := by
  rw [compareForward_next (.inl hst), takeForward_noFeed hst, enterLocking_fits (s := onSite (forwardRead f) s) ht]
  exact congrArg (fun k : SiteState => ({ s with
    cp := feedTold k.ctorIdx 1 0 s
    site := frameTaken f levels { forwardRead f s.site with
      state := .locking, lockingOrigin := .noFeed, buffer := block48 f.samples } } : State)) hst

/-- A frame in LOCKING or FEEDING joins the buffer. -/
theorem takeForward_fits (hst : s.site.state = .locking ∨ s.site.state = .feeding) (hlen : s.site.buffer.length ≤ 2000)
    (hno : ¬ (s.site.state = .locking ∧ s.settings.targetDepth ≤ s.site.buffer.length + 48)) :
    takeForward f levels s = { s with site := frameTaken f levels { forwardRead f s.site with
      buffer := s.site.buffer ++ block48 f.samples } } := by
  rw [takeForward_buffers hst, takeIntoBuffer_fits (s := onSite (forwardRead f) s) hlen hno]
  rfl

theorem takeForward_overflows (hst : s.site.state = .feeding) (hlen : 2000 < s.site.buffer.length)
    (hn : s.site.overflowTold = false) : takeForward f levels s = { s with
      cp := s.cp.post ⟨.feedOverflow, s.clock.blockCount, []⟩
      site := frameTaken f levels { forwardRead f s.site with
        buffer := s.site.buffer ++ (block48 f.samples).take (2048 - s.site.buffer.length)
        overflows := min 65535 (s.site.overflows + 1), overflowTold := true } } := by
  rw [takeForward_buffers (.inr hst), takeIntoBuffer_eq, appendFrame_overflows (s := onSite (forwardRead f) s) hlen
    (fun k => nomatch k.symm.trans hst) hn]
  rfl

theorem takeForward_feeds (hst : s.site.state = .locking) (hlen : s.site.buffer.length ≤ 2000)
    (ht : s.settings.targetDepth ≤ s.site.buffer.length + 48) : takeForward f levels s = cutSiteAiring { s with
      cp := feedTold 1 2 1 s
      site := frameTaken f levels (feedingBegun (extended f.samples (forwardRead f s.site))) } := by
  rw [takeForward_buffers (.inl hst), takeIntoBuffer_feeds (s := onSite (forwardRead f) s) hlen hst ht]
  rfl

/-- A frame in FILLING, short of the valid run that locks again. -/
theorem takeForward_fills (hst : s.site.state = .filling) (hv : s.site.validRun < 255) :
    takeForward f levels s = { s with site := { forwardRead f s.site with validRun := s.site.validRun + 1 } } := by
  have hrun : min 256 (s.site.validRun + 1) = s.site.validRun + 1 := by omega
  have hshort : (runCounted (forwardRead f s.site)).validRun < 256 := by
    show min 256 (s.site.validRun + 1) < 256
    omega
  rw [takeForward_filling hst, relock_waits (s := onSite runCounted (onSite (forwardRead f) s)) (.inr hshort)]
  exact congrArg (fun n => ({ s with site := { forwardRead f s.site with validRun := n } } : State)) hrun

theorem takeForward_relocks (hst : s.site.state = .filling) (hv : s.site.validRun = 255)
    (ht : 48 < s.settings.targetDepth) : takeForward f levels s = { s with
      cp := feedTold 3 1 3 s
      site := frameTaken f levels { forwardRead f s.site with
        validRun := 256, state := .locking, lockingOrigin := .filling, buffer := block48 f.samples } } := by
  have hrun : min 256 (s.site.validRun + 1) = 256 := by omega
  rw [takeForward_filling hst, relock_locks (s := onSite runCounted (onSite (forwardRead f) s)) hst (Nat.le_of_eq hrun.symm) ht]
  exact congrArg (fun n => ({ s with
    cp := feedTold 3 1 3 s
    site := frameTaken f levels { forwardRead f s.site with
      validRun := n, state := .locking, lockingOrigin := .filling, buffer := block48 f.samples } } : State)) hrun

/-- Frames lost in FILLING make one good frame of the run (R170, R172). -/
theorem compareForward_fills (hst : s.site.state = .filling) (h1 : 1 ≤ ahead f s) (h32 : ahead f s ≤ 32) :
    compareForward f levels s = { s with site := { forwardRead f s.site with validRun := 1 } } := by
  have hno : ¬ (s.site.state = .locking ∨ s.site.state = .feeding) := by
    rw [hst]
    exact fun k => k.elim nofun nofun
  have hsite : frameMissed^[ahead f s] s.site = { s.site with
      expected := (frameMissed^[ahead f s] s.site).expected, validRun := 0 } :=
    (frameMissed_iterate _ _).trans (by rw [if_neg (by omega)])
  have hstate : (onSite frameMissed^[ahead f s] s).site.state = .filling := by
    show (frameMissed^[ahead f s] s.site).state = _
    rw [hsite]
    exact hst
  have hrun : (onSite frameMissed^[ahead f s] s).site.validRun = 0 := by
    show (frameMissed^[ahead f s] s.site).validRun = _
    rw [hsite]
  rw [compareForward_lost (fun k => nomatch k.symm.trans hst) h1 h32, missingTimes_else _ hno,
    takeForward_fills hstate (by omega), hrun]
  refine congrArg (fun x => ({ s with site := { forwardRead f x with validRun := 0 + 1 } } : State)) hsite |>.trans ?_
  rfl

/-- Frames lost and concealed before one, short of the loss limit, of a full buffer and of the target depth. -/
theorem compareForward_conceals (h1 : 1 ≤ ahead f s) (h32 : ahead f s ≤ 32) (hrun : s.site.lossRun + ahead f s < 32)
    (hlen : s.site.buffer.length + 48 * (ahead f s + 1) ≤ 2048) (hlast : s.site.lastFrame.length = 48)
    (hst : s.site.state = .feeding
      ∨ (s.site.state = .locking ∧ s.site.buffer.length + 48 * (ahead f s + 1) < s.settings.targetDepth)) :
    compareForward f levels s = { s with site := frameTaken f levels { forwardRead f s.site with
      validRun := 0
      buffer := s.site.buffer
        ++ (if s.site.lossRun = 0 then s.site.lastFrame.map (fun p => (p.1 / 2, p.2 / 2)) else silence)
        ++ (List.replicate (ahead f s - 1) silence).flatten ++ block48 f.samples } } := by
  obtain ⟨k, hk⟩ := Nat.exists_eq_add_of_le' h1
  have hne : s.site.state ≠ .noFeed := fun k =>
    hst.elim (fun h => nomatch h.symm.trans k) fun h => nomatch h.1.symm.trans k
  have hopen : s.site.state = .locking ∨ s.site.state = .feeding := hst.elim .inr fun h => .inl h.1
  have hshort (n : Nat) (hn : n ≤ ahead f s + 1) :
      ¬ (s.site.state = .locking ∧ s.settings.targetDepth ≤ s.site.buffer.length + 48 * n) := fun ⟨hl, ht⟩ =>
    hst.elim (fun h => nomatch h.symm.trans hl) fun h => by
      have := h.2
      omega
  have hlength := missed_iterate_length (ahead f s) s.site
  have hsite := missed_iterate (ahead f s) s.site
  rw [if_neg (by omega)] at hsite
  have hbuffer : (missed^[ahead f s] s.site).buffer = s.site.buffer
      ++ (if s.site.lossRun = 0 then s.site.lastFrame.map (fun p => (p.1 / 2, p.2 / 2)) else silence)
      ++ (List.replicate (ahead f s - 1) silence).flatten := by
    have hone := missed_lossRun (x := s.site) (by omega)
    rw [hk, Function.iterate_succ_apply, missed_iterate_silent k (by omega), missed_buffer hlast, Nat.add_sub_cancel]
  rw [compareForward_lost hne h1 h32, missingTimes_fits _ hopen hrun (by omega) (hshort _ (Nat.le_succ _))]
  have hstate : (onSite missed^[ahead f s] s).site.state = s.site.state := by
    show (missed^[ahead f s] s.site).state = _
    rw [hsite]
  have hbelow : ¬ ((onSite missed^[ahead f s] s).site.state = .locking
      ∧ s.settings.targetDepth ≤ (missed^[ahead f s] s.site).buffer.length + 48) := fun ⟨hl, ht⟩ =>
    hshort _ (Nat.le_refl _) ⟨hstate.symm.trans hl, by omega⟩
  rw [takeForward_fits (s := onSite missed^[ahead f s] s) (by rw [hstate]; exact hopen)
    (show (missed^[ahead f s] s.site).buffer.length ≤ 2000 by omega) hbelow]
  refine (congrArg (fun x : SiteEnd => ({ s with site := frameTaken f levels { forwardRead f x with
    buffer := x.buffer ++ block48 f.samples } } : State)) hsite).trans ?_
  exact congrArg (fun c : Block => ({ s with site := frameTaken f levels { forwardRead f s.site with
    validRun := 0, buffer := c ++ block48 f.samples } } : State)) hbuffer

/-- Frames lost in FEEDING that bring the loss run to its limit (R171, R172). -/
theorem compareForward_loses (hst : s.site.state = .feeding) (h32 : ahead f s ≤ 32) (hrun : s.site.lossRun < 32)
    (hlast : 32 ≤ s.site.lossRun + ahead f s) (hlen : s.site.buffer.length + 48 * (32 - s.site.lossRun) ≤ 2048)
    (hoff : s.site.filler.state ≠ .off) : compareForward f levels s = { s with
      cp := feedTold 2 3 2 s
      site := { forwardRead f (feedLost s.settings.safeLevels s.site) with
        validRun := 1, lossRun := 32, filler := fadedIn s.site.filler } } := by
  obtain ⟨k, hk⟩ : ∃ k, 32 - s.site.lossRun = k + 1 := ⟨31 - s.site.lossRun, by omega⟩
  obtain ⟨m, hm⟩ : ∃ m, ahead f s = k + 1 + m := ⟨ahead f s - (k + 1), by omega⟩
  have hlength := missed_iterate_length k s.site
  have hloss := missed_iterate_lossRun (k + 1) (x := s.site) (by omega)
  have hsite := missed_iterate (k + 1) s.site
  rw [if_neg (Nat.succ_ne_zero k), hloss, show s.site.lossRun + (k + 1) = 32 by omega] at hsite
  have hfirst := missed_iterate k s.site
  have hstate : (onSite missed^[k] s).site.state = .feeding := by
    show (missed^[k] s.site).state = _
    rw [hfirst]
    exact hst
  have hlost : missingTimes (k + 1) s = { s with
      cp := feedTold 2 3 2 s
      site := { feedLost s.settings.safeLevels s.site with
        expected := (missed^[k + 1] s.site).expected, lossRun := 32, filler := fadedIn s.site.filler } } := by
    have hlast : missingTimes (k + 1) s = loseFeed (onSite missed^[k + 1] s) := by
      rw [missingTimes_add, missingTimes_fits k (.inr hst) (by omega) (by omega) fun h => nomatch hst.symm.trans h.1]
      refine (missingOnce_fits (.inr hstate) (show (missed^[k] s.site).buffer.length ≤ 2000 by omega)
        fun h => nomatch hstate.symm.trans h.1).trans ?_
      exact congrArg (fun x => loseFeed ({ s with site := x } : State)) (Function.iterate_succ_apply' missed k s.site).symm
    rw [hlast, onSite, hsite]
    exact loseFeed_feeding_on (Nat.le_refl 32) hst hoff
  obtain ⟨e, hmissed⟩ := missingTimes_filling m (v := missingTimes (k + 1) s) (by rw [hlost]; rfl) (by rw [hlost]; rfl)
  rw [← missingTimes_add, hlost] at hmissed
  rw [compareForward_lost (fun h => nomatch h.symm.trans hst) (by omega) h32, hm, hmissed]
  exact takeForward_fills rfl (Nat.zero_lt_succ 254)

end

/-- Settles O54. -/
theorem forwardFramesAndFeedLoss : Obligations.ForwardFramesAndFeedLoss := by
  refine ⟨fun noise bytes levels s hr hs hhunt hnoise => ?_, fun s hr hs => ?_⟩
  · intro received out x counted
    refine ⟨fun a b h => receiveForward_wrongLength hr hs hhunt hnoise h, fun hlen hhalf hp => ?_,
      fun f hp hst h1 h32 => ?lost, fun f hp hb => ?back, fun f hp hb => ?taken⟩
    · have hout : out = .next (forwardFound levels (.frame bytes) s) :=
        receiveForward_frame hr hs hhunt hnoise ⟨by rw [hhalf]; rfl, hlen⟩
      rw [hout, forwardFound, hp]
      rfl
    case lost =>
      have hd : ahead f s ≤ 32 := h32
      have hu : missingOnce (onSite (pace 1 x.backCount) s) = onSite (pace 1 x.backCount) (missingOnce s) := missingOnce_pace
      have hsteady := missingOnce_steady (.refl s)
      refine ⟨missingOnce (onSite (pace 1 x.backCount) s), ?_, ?_⟩
      · exact (siteRow_taken (s := { s with site := { x with gapWait := 2 } }) hr hs overdue).trans
          (congrArg _ (overdue_due (s := { s with site := { x with gapWait := 2 } }) hst (Nat.le_refl 2)))
      · rw [hu, show out = _ from receiveForward_taken hr hs hhunt hnoise hp, compareForward_missed 1 hst h1 hd]
        refine (receiveForward_taken ?_ ?_ ?_ hnoise hp).symm
        · show (missingOnce s).cp.device = _
          rw [hsteady.posted.same]
          exact hr
        · show (missingOnce s).settings.roles.site = _
          rw [hsteady.settings]
          exact hs
        · exact (missingOnce_kept s).stream.trans hhunt
    case back =>
      have hself : compareForward f levels (onSite (backed 0) s) = onSite (backed 0) (compareForward f levels s) :=
        compareForward_backed
      have hsteady := compareForward_steady f levels (.refl s)
      have hback := compareForward_backCount (f := f) (levels := levels) (s := s)
      refine ⟨onSite backCounted (onSite (backed 0) (compareForward f levels s)), ?_, ?_⟩
      · rw [← hself, receiveForward_taken (s := { s with site := { x with backCount := 0 } }) hr hs hhunt hnoise hp]
        refine congrArg Host.Outcome.next (sendBack_waits ?_)
        show (compareForward f levels (onSite (backed 0) s)).site.backCount + 1 < 4
        rw [compareForward_backCount]
        exact Nat.one_lt_succ_succ 2
      · rw [show out = _ from receiveForward_taken hr hs hhunt hnoise hp]
        generalize compareForward f levels s = t at *
        refine (congrArg (fun n => Host.Outcome.next (sendBack (onSite (backed (n + 1)) t))) hback).trans
          (siteRow_taken (s := onSite (backed (x.backCount + 1)) t) ?_ ?_ sendBack).symm
        · show t.cp.device = _
          rw [hsteady.posted.same]
          exact hr
        · show t.settings.roles.site = _
          rw [hsteady.settings]
          exact hs
    case taken =>
      intro d pairs y fed
      have hout : out = .next (compareForward f levels (onSite (backed (x.backCount + 1)) s)) := by
        refine (receiveForward_taken hr hs hhunt hnoise hp).trans (congrArg Host.Outcome.next ?_)
        rw [compareForward_counted, sendBack_waits]
        rw [compareForward_backCount]
        exact Nat.succ_lt_succ hb
      clear_value out
      obtain rfl := hout
      let b : State := onSite (backed (x.backCount + 1)) s
      refine ⟨fun hst ht => congrArg _ ?_, fun hst h => congrArg _ ?_, fun hst h0 hlen => congrArg _ ?_,
        fun h1 h32 hrun hlen hlast hst => congrArg _ ?_, fun hst h32 hrun hlast hlen hoff => congrArg _ ?_,
        fun hst h1 h32 => congrArg _ ?_, fun hst h hlate hlen => congrArg _ ?_, fun hst h0 hlen hn => congrArg _ ?_,
        fun hst h0 ht hlen => congrArg _ ?_, fun hst h0 ht hlen => ⟨_, rfl, ?_⟩, fun hst h0 hv => congrArg _ ?_,
        fun hst h0 hv ht => congrArg _ ?_⟩
      · exact compareForward_locks (s := b) hst ht
      · exact compareForward_late (s := b) hst h
      · exact (compareForward_next (s := b) (.inr h0)).trans
          (takeForward_fits (s := b) (.inr hst) hlen fun k => nomatch k.1.symm.trans hst)
      · exact compareForward_conceals (s := b) h1 h32 hrun hlen hlast hst
      · exact compareForward_loses (s := b) hst h32 hrun hlast hlen hoff
      · exact compareForward_fills (s := b) hst h1 h32
      · exact (compareForward_breaks (s := b) (fun k => nomatch k.symm.trans hst) h hlate).trans
          (takeForward_fits (s := onSite (fun x => { x with breaks := bump 65535 x.breaks }) b) (.inr hst) hlen
            fun k => nomatch k.1.symm.trans hst)
      · exact (compareForward_next (s := b) (.inr h0)).trans (takeForward_overflows (s := b) hst hlen hn)
      · exact (compareForward_next (s := b) (.inr h0)).trans
          (takeForward_fits (s := b) (.inl hst) hlen fun k => Nat.not_le.2 ht k.2)
      · have hfeeds := (compareForward_next (s := b) (.inr h0)).trans
          (takeForward_feeds (s := b) (f := f) (levels := levels) hst hlen ht)
        exact hfeeds ▸ siteCut _
      · exact (compareForward_next (s := b) (.inr h0)).trans (takeForward_fills (s := b) hst hv)
      · exact (compareForward_next (s := b) (.inr h0)).trans (takeForward_relocks (s := b) hst hv ht)
  · intro x told
    have hrow (f : State → State) : siteRow f s = .next (f s) := siteRow_taken hr hs f
    have hlose : exec .feedLossLimit s = .next (loseFeed s) := hrow _
    have hmiss : exec .missingEvent s = .next (overdue s) := hrow _
    refine ⟨fun h => hmiss.trans (congrArg _ (overdue_waits h)), fun h => if_pos h,
      fun h => (siteRow_taken (s := { s with site := { x with gapWait := min 2 (x.gapWait + 1) } }) hr hs overdue).trans
        (congrArg _ (if_neg h).symm), fun hst hw => ?_, fun hst hw hlen hrun hlast => ?_, ?_,
      fun h => hlose.trans (congrArg _ (loseFeed_waits h)),
      fun h hst hf => hlose.trans (congrArg _ (loseFeed_feeding_on h hst hf)), fun h hst hf => ?_,
      fun h hst ho => hlose.trans (congrArg _ (loseFeed_locking_noFeed h hst ho)),
      fun h hst ho => hlose.trans (congrArg _ (loseFeed_locking_filling h hst ho)),
      fun bytes levels => ⟨fun h => ?_, fun f hp hst hv ht => ?_⟩⟩
    · have hst : s.site.state = .filling := hst
      have hne : s.site.state ≠ .noFeed := fun k => nomatch hst.symm.trans k
      have hno : ¬ (s.site.state = .locking ∨ s.site.state = .feeding) := by
        rw [hst]
        exact fun k => k.elim nofun nofun
      rw [hmiss, overdue_due hne hw, missingOnce_else (s := { s with site := { s.site with gapWait := 1 } }) hno]
      rfl
    · have hst : s.site.state = .feeding := hst
      have hone : min 32 (x.lossRun + 1) = x.lossRun + 1 := by omega
      rw [hmiss, overdue_conceals hw hlen hlast (.inl hst), hone]
      exact congrArg Host.Outcome.next (loseFeed_waits (Nat.succ_lt_succ hrun))
    · intro lost hw hlen hlast
      refine ⟨fun hst => ?_, fun hst ht => ?_⟩
      · rw [hmiss, overdue_conceals hw hlen hlast hst]
        exact (siteRow_taken (s := { s with site := lost }) hr hs loseFeed).symm
      · have hst : s.site.state = .locking := hst
        have hne : s.site.state ≠ .noFeed := fun k => nomatch hst.symm.trans k
        have hmissed : missed { x with gapWait := 1 } = lost := missed_eq (x := { x with gapWait := 1 }) hlast
        refine ⟨_, siteCut _, ?_⟩
        rw [hmiss, overdue_due hne hw, missingOnce_feeds (s := { s with site := { s.site with gapWait := 1 } }) hst hlen ht]
        refine (congrArg Host.Outcome.next ?_).trans (siteRow_taken ?_ ?_ loseFeed).symm
        · exact congrArg (fun y => loseFeed (cutSiteAiring { s with cp := told 1 2 1, site := feedingBegun y })) hmissed
        · rw [(cutSiteAiring_steady (.refl _)).posted.same]
          exact (cp_post_device ..).trans hr
        · rw [(cutSiteAiring_steady (.refl _)).settings]
          exact hs
    · obtain ⟨cp, hposted, hlost⟩ := loseFeed_feeding_off h hst hf
      exact ⟨_, hlose.trans (congrArg _ hlost), hposted, rfl⟩
    · refine (hrow _).trans (congrArg _ ?_)
      unfold relockWith
      split
      case h_1 => exact relock_waits h
      case h_2 => rfl
    · refine (hrow _).trans (congrArg _ ?_)
      rw [relockWith, hp]
      exact relock_locks hst hv ht

end Sys2Proof.Machine
end

section
/-! SUPPORT. The site's back frame with the trim loop, the off-air peak and the status filters (R174, R175, R178, R180), and
the settling of O55. -/

namespace Sys2Proof.Machine

/-! ## The trim loop (R174) -/

section
variable {s : State}

/-- The trim that the loop leaves (R174). -/
def trimLeft (s : State) : Int := if s.site.state = .feeding then trimAfter s else s.site.trim

theorem natAbs_eq_limit {t : Int} {l : Nat} : t.natAbs = l ↔ t = l ∨ t = -(l : Int) := Int.natAbs_eq_iff

theorem trimLoop_slips (hst : s.site.state = .feeding) (ht : (trimAfter s).natAbs = s.settings.trimLimit)
    (he : s.settings.slipThreshold ≤ (trimError s).natAbs) : trimLoop s = { s with
      cp := s.cp.post ⟨.slip, s.clock.blockCount,
        [wordFlag (decide (trimError s < 0)), wordInt (trimError s), wordInt (trimAfter s)]⟩
      site := { s.site with
        trim := trimAfter s
        buffer := slipBuffer (trimError s) s.site.slips s.site.buffer
        slips := min 65535 (s.site.slips + 1) } } :=
  (if_pos hst).trans (if_pos ⟨ht, he⟩)

theorem trimLoop_stays (h : ¬ (s.site.state = .feeding ∧ (trimAfter s).natAbs = s.settings.trimLimit
    ∧ s.settings.slipThreshold ≤ (trimError s).natAbs)) :
    trimLoop s = { s with site := { s.site with trim := trimLeft s } } := by
  unfold trimLoop trimLeft
  by_cases hst : s.site.state = .feeding
  · rw [if_pos hst, if_pos hst]
    exact if_neg fun k => h ⟨hst, k⟩
  · rw [if_neg hst, if_neg hst]

/-! ## The back frame (R175, R180) -/

theorem sendBack_due (h : 4 ≤ s.site.backCount) : sendBack s = { trimLoop s with site := { (trimLoop s).site with
    backCount := 0, frameCount := (trimLoop s).site.frameCount + 1, forwardCrc := 0, offAirPeak := 0
    relay := relayAfter (trimLoop s).site.relay
    sent := onStream (backBytes (backFrameOf s.site.buffer.length (trimLoop s))) } } := if_pos h

theorem relayAfter_cons (e : SiteEvent) (rest : List SiteEvent) : relayAfter (e :: rest)
    = if e.sends < 3 then { e with sends := e.sends + 1 } :: rest else rest := by
  rw [relayAfter]
  by_cases h : e.sends < 3
  · rw [if_pos h, if_neg (by omega)]
  · rw [if_neg h, if_pos (by omega)]

theorem relayKind_eq (k : SiteEventKind) : relayKind k = if k = .start then 1 else 3 := by cases k <;> rfl

/-- A back frame's values, whatever the trim loop has done to the buffer (R175). -/
def backFrameSent (trim : Int) (x : SiteEnd) : BackFrame where
  count := x.frameCount
  state := x.state
  depth := x.buffer.length
  trim := trim
  levels := Tab.each x.status Filter.level
  event := x.relay.head?.map fun h => ⟨if h.kind = .start then 1 else 3, h.key, h.cls⟩
  echo := x.reportAlert
  crcCount := x.forwardCrc
  peak := x.offAirPeak

theorem backFrameOf_eq {trim : Int} {buffer : Block} {slips : Nat} {cp : ControlPort} :
    backFrameOf s.site.buffer.length { s with
      cp := cp, site := { s.site with trim := trim, buffer := buffer, slips := slips } } = backFrameSent trim s.site := by
  unfold backFrameOf backFrameSent
  simp only [relayKind_eq]

theorem slipBuffer_drops {e : Int} {n : Nat} {b : Block} (h : 0 < e) : slipBuffer e n b = b.drop 1 := if_pos h

theorem slipBuffer_repeats {e : Int} {n : Nat} {p : Pair} {rest : Block} (h : e ≤ 0) :
    slipBuffer e n (p :: rest) = p :: p :: rest := if_neg (by omega)

/-! ## The off-air peak (R175) -/

theorem foldl_peak (l : Block) (m : Nat) :
    m ≤ l.foldl (fun m p => max m (pairPeak p)) m
    ∧ (∀ p ∈ l, pairPeak p ≤ l.foldl (fun m p => max m (pairPeak p)) m)
    ∧ (l.foldl (fun m p => max m (pairPeak p)) m = m
      ∨ ∃ p ∈ l, l.foldl (fun m p => max m (pairPeak p)) m = pairPeak p) := by
  induction l generalizing m with
  | nil => exact ⟨Nat.le_refl m, nofun, .inl rfl⟩
  | cons q l ih =>
    obtain ⟨hm, hall, hone⟩ := ih (max m (pairPeak q))
    rw [List.foldl_cons]
    refine ⟨by omega, fun p hp => ?_, ?_⟩
    · rcases List.mem_cons.1 hp with rfl | hp
      · omega
      · exact hall p hp
    · rcases hone with h | ⟨p, hp, h⟩
      · rw [h]
        rcases Nat.le_total m (pairPeak q) with hle | hle
        · exact .inr ⟨q, List.mem_cons_self, Nat.max_eq_right hle⟩
        · exact .inl (Nat.max_eq_left hle)
      · exact .inr ⟨p, List.mem_cons_of_mem _ hp, h⟩

end

/-- Settles O55. -/
theorem siteReportsInBackFrames : Obligations.SiteReportsInBackFrames := by
  refine ⟨fun s hr hs => ?_, fun i s hr hs => ?_⟩
  · intro x L e trim slips
    have hrow : exec .backFrameSend s = .next (sendBack s) := siteRow_taken hr hs _
    have htrim : trim = trimLeft s := rfl
    have hslips : slips ↔ s.site.state = .feeding ∧ (trimAfter s).natAbs = s.settings.trimLimit
        ∧ s.settings.slipThreshold ≤ (trimError s).natAbs := by
      refine and_congr_right fun hst => ?_
      have ht : trim = trimAfter s := if_pos hst
      rw [ht, natAbs_eq_limit]
      exact and_congr_right fun _ => Int.ofNat_le
    refine ⟨fun h => hrow.trans (congrArg _ (sendBack_waits h)), fun h => ⟨_, hrow.trans (congrArg _ (sendBack_due h)), ?_⟩⟩
    have hloop : ∃ cp buffer n, trimLoop s = { s with
          cp := cp, site := { x with trim := trim, buffer := buffer, slips := n } }
        ∧ (¬ slips → buffer = x.buffer ∧ n = x.slips ∧ cp = s.cp)
        ∧ (slips → n = min 65535 (x.slips + 1)
          ∧ cp = s.cp.post ⟨.slip, s.clock.blockCount, [wordFlag (decide (e < 0)), wordInt e, wordInt trim]⟩
          ∧ (0 < e → buffer = x.buffer.drop 1)
          ∧ (∀ p rest, e ≤ 0 → x.buffer = p :: rest → buffer = p :: p :: rest)) := by
      by_cases hsl : slips
      · obtain ⟨hst, ht, he⟩ := hslips.1 hsl
        have htrim : trim = trimAfter s := if_pos hst
        rw [htrim]
        refine ⟨_, _, _, trimLoop_slips hst ht he, fun hno => absurd hsl hno, fun _ => ⟨rfl, rfl, slipBuffer_drops,
          fun p rest hle hb => ?_⟩⟩
        rw [show s.site.buffer = p :: rest from hb]
        exact slipBuffer_repeats hle
      · exact ⟨_, _, _, trimLoop_stays fun k => hsl (hslips.2 k), fun _ => ⟨rfl, rfl, rfl⟩, fun k => absurd k hsl⟩
    obtain ⟨cp, buffer, n, hloop, hstays, hslid⟩ := hloop
    rw [hloop]
    refine ⟨?_, congrArg (fun f => onStream (backBytes f)) backFrameOf_eq, hstays, hslid⟩
    refine congrArg (fun l => ({ s with
      cp := cp
      site := { x with
        trim := trim, backCount := 0, frameCount := x.frameCount + 1, forwardCrc := 0, offAirPeak := 0, relay := l
        buffer := buffer, slips := n, sent := onStream (backBytes (backFrameOf s.site.buffer.length { s with
          cp := cp, site := { x with trim := trim, buffer := buffer, slips := n } })) } } : State)) ?_
    generalize x.relay = l
    cases l with
    | nil => rfl
    | cons e rest => exact relayAfter_cons e rest
  · intro f
    have hrow : exec (.siteStatusAccepted i) s = .next (acceptStatus i s) := siteRow_taken hr hs _
    refine ⟨fun h => hrow.trans (congrArg _ ?_), fun h => hrow.trans (congrArg _ (if_neg (Nat.not_le.2 h))), contactFilter,
      fun levels => sampleStatus_eq levels s, fun input => rfl, fun input => ⟨_, rfl, Nat.le_max_left .., ?_, ?_⟩⟩
    · rw [acceptStatus_eq, Filter.settle, if_pos h]
    · intro p hp
      have hle : max p.1.natAbs p.2.natAbs ≤ blockPeak (tdmBlock input s.settings.offAirSlot) := (foldl_peak _ 0).2.1 p hp
      omega
    · rcases Nat.le_total (blockPeak (tdmBlock input s.settings.offAirSlot)) s.site.offAirPeak with hle | hle
      · exact .inl (Nat.max_eq_left hle)
      · rw [Nat.max_eq_right hle]
        rcases (foldl_peak (tdmBlock input s.settings.offAirSlot) 0).2.2 with h | ⟨p, hp, h⟩
        · refine .inl (Nat.le_antisymm ?_ hle)
          exact (Nat.le_of_eq h).trans (Nat.zero_le _)
        · refine .inr ⟨p, hp, ?_⟩
          rw [blockPeak, h, pairPeak]
          omega

end Sys2Proof.Machine
end

section
/-! SUPPORT. A filler player's block, the draw of the feed and the site's output (R165, R173, R176), and the settling of
O56. -/

namespace Sys2Proof.Machine

/-! ## A filler player's block (R165) -/

section
variable {e : FillerEnd} {s : State}

theorem produceFiller_off (h : (fillerAt e s).state = .off) : produceFiller e s = (s, silence) := if_pos h

theorem produceFiller_on (h : (fillerAt e s).state ≠ .off) : produceFiller e s
    = (postIf ((fillerAt e s).short && !(fillerAt e s).underrunTold) .fillerUnderrun []
        (setFiller e ((fillerAt e s).afterBlock (fillerLength s)) s), fillerBlock (fillerAt e s)) := if_neg h

theorem setFiller_self (e : FillerEnd) (s : State) : setFiller e (fillerAt e s) s = s := by cases e <;> rfl

theorem fillerAt_setFiller (e : FillerEnd) (x : Filler) (s : State) : fillerAt e (setFiller e x s) = x := by
  cases e <;> rfl

theorem fillerAt_postIf (c : Bool) (k : NoticeKind) (items : List Word) :
    fillerAt e (postIf c k items s) = fillerAt e s := by
  obtain ⟨cp, h⟩ := postIf_eq c k items s
  rw [h]
  cases e <;> rfl

theorem produceFiller_unprimed (h : (fillerAt e s).primed = false) : produceFiller e s = (s, silence) := by
  by_cases hoff : (fillerAt e s).state = .off
  · exact produceFiller_off hoff
  · have hno : ¬ (fillerAt e s).primed = true := Bool.eq_false_iff.1 h
    have hshort : (fillerAt e s).short = false := by rw [Filler.short, h, Bool.false_and]
    have hafter : (fillerAt e s).afterBlock (fillerLength s) = fillerAt e s := if_neg hno
    have hblock : fillerBlock (fillerAt e s) = silence := if_pos (.inr h)
    rw [produceFiller_on hoff, hshort, hafter, hblock, setFiller_self]
    rfl

/-- The filler player after its block. -/
theorem produceFiller_at (h : (fillerAt e s).state ≠ .off) :
    fillerAt e (produceFiller e s).1 = (fillerAt e s).afterBlock (fillerLength s) := by
  rw [produceFiller_on h]
  exact (fillerAt_postIf ..).trans (fillerAt_setFiller ..)

theorem setFiller_cp (e : FillerEnd) (x : Filler) (s : State) : (setFiller e x s).cp = s.cp := by cases e <;> rfl

theorem setFiller_clock (e : FillerEnd) (x : Filler) (s : State) : (setFiller e x s).clock = s.clock := by cases e <;> rfl

theorem produceFiller_told (h : (fillerAt e s).state ≠ .off) : (produceFiller e s).1.cp
    = if ((fillerAt e s).short && !(fillerAt e s).underrunTold) = true then
        s.cp.post ⟨.fillerUnderrun, s.clock.blockCount, []⟩ else s.cp := by
  rw [produceFiller_on h]
  unfold postIf
  split
  · show (setFiller ..).cp.post ⟨_, (setFiller ..).clock.blockCount, _⟩ = _
    rw [setFiller_cp, setFiller_clock]
  · exact setFiller_cp ..

/-- What a filler player's block changes at the site. -/
theorem produceFiller_site (s : State) : (produceFiller .site s).1 = { s with
    cp := (produceFiller .site s).1.cp, site := { s.site with filler := (produceFiller .site s).1.site.filler } } := by
  by_cases h : s.site.filler.state = .off
  · rw [produceFiller_off (e := .site) h]
  · rw [produceFiller_on (e := .site) h]
    obtain ⟨cp, hcp⟩ := postIf_eq ((fillerAt .site s).short && !(fillerAt .site s).underrunTold) .fillerUnderrun []
      (setFiller .site ((fillerAt .site s).afterBlock (fillerLength s)) s)
    rw [hcp]
    rfl

theorem afterBlock_keeps (x : Filler) (n : Nat) :
    (x.afterBlock n).state = x.state ∧ (x.afterBlock n).gain = x.gain ∧ (x.afterBlock n).envelope = x.envelope := by
  unfold Filler.afterBlock
  split <;> exact ⟨rfl, rfl, rfl⟩

theorem produceFiller_keeps (s : State) : (produceFiller .site s).1.site.filler.state = s.site.filler.state
    ∧ (produceFiller .site s).1.site.filler.gain = s.site.filler.gain
    ∧ (produceFiller .site s).1.site.filler.envelope = s.site.filler.envelope := by
  by_cases h : s.site.filler.state = .off
  · rw [produceFiller_off (e := .site) h]
    exact ⟨rfl, rfl, rfl⟩
  · have hat : (produceFiller .site s).1.site.filler = s.site.filler.afterBlock (fillerLength s) :=
      produceFiller_at (e := .site) h
    rw [hat]
    exact afterBlock_keeps ..

/-! ## The draw of the feed (R173) -/

theorem drawFeed_none {feeding : Bool} (h : feeding = false ∨ s.site.state ≠ .feeding) : drawFeed feeding s = (s, silence) := by
  refine if_neg fun ⟨hf, hst⟩ => ?_
  rcases h with h | h
  · exact Bool.false_ne_true (h.symm.trans hf)
  · exact h hst

/-- The feed block of a site block start that opened in FEEDING, its notice apart. -/
theorem drawFeed_draws (hst : s.site.state = .feeding) : drawFeed true s
    = (postIf (decide ((s.site.buffer.take 48).length < 48) && !s.site.underrunTold) .feedUnderrun []
        { s with site := { s.site with
          buffer := s.site.buffer.drop 48, lastDrawn := (s.site.buffer.take 48).getLastD s.site.lastDrawn
          underruns := if decide ((s.site.buffer.take 48).length < 48) then bump 65535 s.site.underruns else s.site.underruns
          underrunTold := s.site.underrunTold || decide ((s.site.buffer.take 48).length < 48) } },
      s.site.buffer.take 48 ++ List.replicate (48 - (s.site.buffer.take 48).length)
        ((s.site.buffer.take 48).getLastD s.site.lastDrawn)) := if_pos ⟨rfl, hst⟩

/-! ## The site's output (R176) -/

/-- The site once its output has been formed, a filler that comes to rest apart. -/
def outputFormed (feed alert : Block) (s : State) : State :=
  { (produceFiller .site s).1 with site := { (produceFiller .site s).1.site with
    playing := s.site.output
    output := ((crossfadeBlocks s.site.filler.gain feed
      (applyRamp s.site.filler.envelope (produceFiller .site s).2)).zip alert).map
        fun x => (sat24 (x.1.1 + x.2.1), sat24 (x.1.2 + x.2.2))
    filler := { (produceFiller .site s).1.site.filler with
      gain := s.site.filler.gain.advance, envelope := s.site.filler.envelope.advance } } }

theorem siteOutput_eq (feed alert : Block) (s : State) :
    siteOutput feed alert s = siteFillerRest (outputFormed feed alert s) := by
  obtain ⟨-, hgain, henv⟩ := produceFiller_keeps s
  have hplaying : (produceFiller .site s).1.site.output = s.site.output := by rw [produceFiller_site]
  unfold siteOutput outputFormed
  dsimp only
  rw [hgain, henv, hplaying]

theorem siteFillerRest_on (hst : s.site.filler.state = .fadingIn) (hr : s.site.filler.gain.atRest = true)
    (hc : s.site.filler.gain.current = 4096) :
    siteFillerRest s = { s with site := { s.site with filler := { s.site.filler with state := .on } } } := by
  unfold siteFillerRest
  dsimp only
  rw [if_pos hr]
  split
  case h_1 => exact if_pos hc
  case h_2 k => exact nomatch hst.symm.trans k
  case h_3 k _ => exact absurd hst k

theorem siteFillerRest_off (hst : s.site.filler.state = .fadingOut) (hr : s.site.filler.gain.atRest = true)
    (hc : s.site.filler.gain.current = 0) : siteFillerRest s = fillerStop .site s := by
  unfold siteFillerRest
  dsimp only
  rw [if_pos hr]
  split
  case h_1 k => exact nomatch hst.symm.trans k
  case h_2 => exact if_pos hc
  case h_3 _ k => exact absurd hst k

theorem siteFillerRest_goes
    (hin : ¬ (s.site.filler.state = .fadingIn ∧ s.site.filler.gain.atRest = true ∧ s.site.filler.gain.current = 4096))
    (hout : ¬ (s.site.filler.state = .fadingOut ∧ s.site.filler.gain.atRest = true ∧ s.site.filler.gain.current = 0)) :
    siteFillerRest s = s := by
  unfold siteFillerRest
  dsimp only
  split
  case isFalse => rfl
  case isTrue hr =>
    split
    case h_1 k => exact if_neg fun hc => hin ⟨k, hr, hc⟩
    case h_2 k => exact if_neg fun hc => hout ⟨k, hr, hc⟩
    case h_3 => rfl

end

/-- Settles O56. -/
theorem siteDrawsFeedAndFormsOutput : Obligations.SiteDrawsFeedAndFormsOutput := by
  refine ⟨fun e s => ?_, fun feeding s => ?_, fun feed alert s => ?_⟩
  · intro x r y len
    refine ⟨fun h => h.elim produceFiller_off produceFiller_unprimed, fun hst hp => ?_⟩
    have hx : (fillerAt e s).primed = true := hp
    have hy : y = x.afterBlock len := produceFiller_at hst
    have hblock : r.2 = fillerBlock x := congrArg Prod.snd (produceFiller_on hst)
    have htold : r.1.cp = if (x.short && !x.underrunTold) = true then
        s.cp.post ⟨.fillerUnderrun, s.clock.blockCount, []⟩ else s.cp := produceFiller_told hst
    have hshort : x.short = decide (x.buffer.length < 48) := by rw [Filler.short, hp, Bool.true_and]
    have hsamples : fillerBlock x = applyRamp (Ramp.rest x.trim) (block48 (x.buffer.take 48)) :=
      if_neg fun h => h.elim hst fun h => Bool.false_ne_true (h.symm.trans hp)
    rw [hblock, hsamples, htold, hy, Filler.afterBlock, if_pos hp, hshort]
    refine ⟨rfl, rfl, rfl, rfl, rfl, fun hlong => ?_, fun hlack => ?_⟩
    · rw [decide_eq_false (Nat.not_lt.2 hlong)]
      exact ⟨rfl, rfl, rfl⟩
    · rw [decide_eq_true hlack]
      refine ⟨rfl, rfl, Bool.or_true _, ?_⟩
      cases x.underrunTold <;> rfl
  · intro x held last
    refine ⟨drawFeed_none, fun hf hst => ?_⟩
    rw [hf, drawFeed_draws hst]
    refine ⟨fun hlong => ?_, fun hlack => ?_⟩
    · have hlen : (s.site.buffer.take 48).length = 48 := by
        rw [List.length_take]
        exact Nat.min_eq_left hlong
      rw [hlen, Nat.sub_self, List.replicate_zero, List.append_nil]
      have hno : decide (48 < 48) = false := rfl
      rw [hno, Bool.or_false]
      rfl
    · have htake : s.site.buffer.take 48 = s.site.buffer := List.take_of_length_le (Nat.le_of_lt hlack)
      have hdrop : s.site.buffer.drop 48 = [] := List.drop_of_length_le (Nat.le_of_lt hlack)
      have hlast : last = s.site.buffer.getLastD s.site.lastDrawn := congrArg (List.getLastD · s.site.lastDrawn) htake
      rw [htake, hdrop, decide_eq_true hlack, Bool.or_true, hlast]
      show (postIf (!s.site.underrunTold) _ _ _, _) = _
      cases s.site.underrunTold <;> rfl
  · intro f fill cross limit out y gain u t fadedIn fadedOut
    have hcross : crossfadeBlocks f.gain feed (applyRamp f.envelope fill.2)
        = (f.gain.gains.zip (feed.zip (applyRamp f.envelope fill.2))).map fun x =>
          (cross x.1 x.2.1.1 x.2.2.1, cross x.1 x.2.1.2 x.2.2.2) := rfl
    have hout : out = ((crossfadeBlocks f.gain feed (applyRamp f.envelope fill.2)).zip alert).map
        fun x => (sat24 (x.1.1 + x.2.1), sat24 (x.1.2 + x.2.2)) := by
      rw [hcross, List.zip_map_left, List.map_map]
      rfl
    have hu : u = outputFormed feed alert s := by
      unfold outputFormed
      rw [← hout]
    have ht : t = siteFillerRest u := (siteOutput_eq ..).trans (by rw [hu])
    have hstate : u.site.filler.state = f.state := (produceFiller_keeps s).1
    have hcs : u.cs = s.cs := by
      show (produceFiller .site s).1.cs = s.cs
      rw [produceFiller_site]
    refine ⟨fun slot => ⟨fun h => if_pos h, fun h => if_neg h⟩, fun ⟨hst, hr, hc⟩ => ?_, fun ⟨hst, hr, hc⟩ => ?_,
      fun hin hno => ?_⟩
    · exact ht.trans (siteFillerRest_on (hstate.trans hst) hr hc)
    · have hstop : t = fillerStop .site u := ht.trans (siteFillerRest_off (hstate.trans hst) hr hc)
      clear_value t
      obtain rfl := hstop
      rw [← hcs]
      exact ⟨rfl, disownFetch_waiting .siteFiller⟩
    · refine ht.trans (siteFillerRest_goes (fun h => hin ⟨hstate.symm.trans h.1, h.2⟩) fun h => hno ⟨hstate.symm.trans h.1, h.2⟩)

end Sys2Proof.Machine
end

section
/-! SUPPORT. The site's alert receiver and its records (R179, R180), and the settling of O57. -/

namespace Sys2Proof.Machine

section
variable {s : State} {key : Word} {r : SiteAlert} {c : AlertClass}

/-! ## The site's framer (R135, R179) -/

/-- The site with its framer in a state, the 16 blocks counted from 0. -/
def siteFramerAt (s : State) (f : Framer) : State := { s with site := { s.site with framer := f, framerBlocks := 0 } }

section
variable (hr : s.cp.device = .running) (hs : s.settings.roles.site = true) (hh : s.site.framer = .hunt)
include hr hs hh

theorem siteBytes_taken {t n sum : Byte} {body : List Byte} (hlen : body.length = n.toNat) :
    siteBytes (0x7E#8 :: t :: n :: (body ++ [sum])) s
      = siteMessage ⟨t, n, body, sum⟩ { s with site := { s.site with framerBlocks := 0 } } := by
  have hhunt : siteFramerAt s .hunt = { s with site := { s.site with framerBlocks := 0 } } := by
    rw [siteFramerAt, ← hh]
  rw [← hhunt]
  refine (if_pos ((atSite_iff hr).trans hs)).trans (framer_takesMessage (standing := siteFramerAt s) ?_ ?_ hlen ?_)
  · intro f f' b hf hstep
    have hblocks : (if f = .hunt then 0 else 0) = 0 := ite_self 0
    unfold siteByte
    have hfr : (siteFramerAt s f).site.framer = f := rfl
    rw [hfr, hstep]
    exact congrArg (fun k => { s with site := { s.site with framer := f', framerBlocks := k } }) hblocks
  · intro f f' b m hf hstep
    have hblocks : (if f = .hunt then 0 else 0) = 0 := ite_self 0
    unfold siteByte
    have hfr : (siteFramerAt s f).site.framer = f := rfl
    rw [hfr, hstep]
    exact congrArg (fun k => siteMessage m { s with site := { s.site with framer := f', framerBlocks := k } }) hblocks
  · unfold siteByte
    rw [hh]
    rfl

theorem siteFrame_taken {type : Byte} {body : List Byte} (hlen : body.length < 256) :
    siteBytes (receiverFrame type body) s
      = siteMessage (receiverMessage type body) { s with site := { s.site with framerBlocks := 0 } } := by
  refine siteBytes_taken hr hs hh ?_
  rw [BitVec.toNat_ofNat]
  exact (Nat.mod_eq_of_lt hlen).symm

end

theorem siteReceiverError_eq (s : State) : siteReceiverError s = { s with
    cp := if s.site.errorTold then s.cp else
      s.cp.post ⟨.receiverError, s.clock.blockCount, [word (min 65535 (s.site.errors + 1))]⟩
    site := { s.site with errors := min 65535 (s.site.errors + 1), errorTold := true } } := by
  unfold siteReceiverError
  cases s.site.errorTold <;> rfl

theorem siteMessage_discards {m : ReceiverMessage} (h : readMessage m = none) : siteMessage m s = siteReceiverError s := by
  rw [siteMessage, h]

theorem siteFramerTick_hunts (h : s.site.framer = .hunt) : siteFramerTick s = s := if_pos h

theorem siteFramerTick_counts (h : s.site.framer ≠ .hunt) (hn : s.site.framerBlocks < 15) :
    siteFramerTick s = { s with site := { s.site with framerBlocks := s.site.framerBlocks + 1 } } := by
  have hone : bump 16 s.site.framerBlocks = s.site.framerBlocks + 1 := Nat.min_eq_right (by omega)
  unfold siteFramerTick
  dsimp only
  rw [if_neg h, hone]
  exact if_neg (by omega)

theorem siteFramerTick_discards (h : s.site.framer ≠ .hunt) (hn : 15 ≤ s.site.framerBlocks) : siteFramerTick s
    = siteReceiverError { s with site := { s.site with framer := .hunt, framerBlocks := 0 } } := by
  have hlast : bump 16 s.site.framerBlocks = 16 := Nat.min_eq_left (by omega)
  unfold siteFramerTick
  dsimp only
  rw [if_neg h, hlast]
  exact if_pos (Nat.le_refl 16)

/-! ## Records leave the site's list (R179, R181) -/

theorem siteAlertOf_key (h : siteAlertOf s key = some r) : r.key = key ∧ r ∈ s.site.alerts :=
  ⟨by simpa using List.find?_some h, List.mem_of_find?_eq_some h⟩

theorem siteAlertOf_none (h : ∀ r ∈ s.site.alerts, r.key ≠ key) : siteAlertOf s key = none :=
  List.find?_eq_none.2 fun r hr hk => h r hr (beq_iff_eq.1 hk)

theorem siteAlertOf_some (h : ∃ r ∈ s.site.alerts, r.key = key) : (siteAlertOf s key).isSome = true := by
  obtain ⟨r, hr, hk⟩ := h
  exact List.find?_isSome.2 ⟨r, hr, beq_iff_eq.2 hk⟩

/-- The site's list without a record's key. -/
def siteListDropped (key : Word) (s : State) : State :=
  { s with site := { s.site with alerts := s.site.alerts.filter fun r => r.key != key } }

theorem siteAiring_iff : siteAiring key s = true ↔ s.site.player.state ≠ .idle ∧ s.site.player.key = some key := by
  rw [siteAiring, Bool.and_eq_true, bne_iff_ne, beq_iff_eq]

theorem dropSiteAlert_apart (h : s.site.player.key ≠ some key) : dropSiteAlert key s = siteListDropped key s :=
  dropSiteAlert_quiet (Bool.eq_false_iff.2 fun k => h (siteAiring_iff.1 k).2)

/-- The removal of the record whose key the player holds cuts its airing, of which an IDLE player has none. -/
theorem dropSiteAlert_cuts (h : s.site.player.key = some key) :
    dropSiteAlert key s = cutSiteAiring (siteListDropped key s) := by
  by_cases hi : s.site.player.state = .idle
  · have hquiet : siteAiring key s = false := Bool.eq_false_iff.2 fun k => (siteAiring_iff.1 k).1 hi
    rw [dropSiteAlert_quiet hquiet]
    exact (cutSiteAiring_left (s := siteListDropped key s) (.inl hi)).symm
  · exact if_pos (siteAiring_iff.2 ⟨hi, h⟩)

/-- The site with a record removed, its airing's cut and its notice apart (R179). -/
def siteRemoved (r : SiteAlert) (s : State) : State := { s with site := { s.site with
  alerts := s.site.alerts.filter fun y => y.key != r.key
  recent := (s.site.recent ++ [r.key]).drop (s.site.recent.length + 1 - 4) } }

theorem removeSiteAlert_eq (r : SiteAlert) (s : State) : removeSiteAlert r s = postSite r.key r.cls .removed
    (dropSiteAlert r.key { s with site := { s.site with
      recent := (s.site.recent ++ [r.key]).drop (s.site.recent.length + 1 - 4) } }) := by
  unfold removeSiteAlert
  dsimp only
  rw [List.length_append, List.length_singleton]

theorem removeSiteAlert_apart (h : s.site.player.key ≠ some r.key) :
    removeSiteAlert r s = postSite r.key r.cls .removed (siteRemoved r s) :=
  (removeSiteAlert_eq r s).trans (congrArg (postSite r.key r.cls .removed) (dropSiteAlert_apart h))

theorem removeSiteAlert_cuts (h : s.site.player.key = some r.key) :
    removeSiteAlert r s = postSite r.key r.cls .removed (cutSiteAiring (siteRemoved r s)) :=
  (removeSiteAlert_eq r s).trans (congrArg (postSite r.key r.cls .removed) (dropSiteAlert_cuts h))

theorem postSite_at {t : State} (k : SiteChange) (ht : t.clock = s.clock) : postSite key c k t
    = { t with cp := t.cp.post ⟨.siteAlert, s.clock.blockCount, [key, word c.ctorIdx, word k.ctorIdx]⟩ } := by
  rw [← ht]
  rfl

theorem expireSiteAlert_stays (hof : siteAlertOf s r.key = some r) (h : r.minuteCount < 60000 ∨ 1 < r.duration) :
    expireSiteAlert r.key s = s := by
  rw [expireSiteAlert, hof]
  exact if_neg fun k => by omega

theorem expireSiteAlert_ends (hof : siteAlertOf s r.key = some r) (hm : 60000 ≤ r.minuteCount) (hd : r.duration ≤ 1) :
    expireSiteAlert r.key s = removeSiteAlert r s := by
  rw [expireSiteAlert, hof]
  exact if_pos ⟨hm, hd⟩

theorem SiteAlert.tick_counts (h : r.minuteCount + 1 < 60000 ∨ r.duration ≤ 1) :
    r.tick = { r with age := min 4294967295 (r.age + 1), minuteCount := r.minuteCount + 1 } :=
  if_neg fun k : 60000 ≤ r.minuteCount + 1 ∧ 1 < r.duration => by omega

theorem SiteAlert.tick_minute (h : 60000 ≤ r.minuteCount + 1) (hd : 1 < r.duration) :
    r.tick = { r with age := min 4294967295 (r.age + 1), minuteCount := 0, duration := r.duration - 1 } :=
  if_pos ⟨h, hd⟩

theorem SiteAlert.tick_key (r : SiteAlert) : r.tick.key = r.key := by
  unfold SiteAlert.tick
  dsimp only
  split <;> rfl

theorem siteAlertTick_eq (s : State) : siteAlertTick s = forEach (s.site.alerts.map SiteAlert.key) expireSiteAlert
    { s with site := { s.site with alerts := s.site.alerts.map SiteAlert.tick } } := by
  have hkeys : (s.site.alerts.map SiteAlert.tick).map SiteAlert.key = s.site.alerts.map SiteAlert.key := by
    rw [List.map_map]
    exact List.map_congr_left fun r _ => r.tick_key
  rw [← hkeys]
  rfl

/-! ## Messages (R179, R180) -/

theorem relayEvent_room (k : SiteEventKind) (h : s.site.relay.length < 4) : relayEvent k key c s
    = { s with site := { s.site with relay := s.site.relay ++ [⟨k, key, c, 0⟩] } } := if_pos h

theorem relayEvent_full (k : SiteEventKind) (h : 4 ≤ s.site.relay.length) :
    relayEvent k key c s = postSite key c .relayDropped s := if_neg (Nat.not_lt.2 h)

theorem cancelSiteMessage_recent (h : key ∈ s.site.recent) : cancelSiteMessage key s = s :=
  if_pos (List.contains_iff_mem.2 h)

theorem cancelSiteMessage_known (hr : key ∉ s.site.recent) (hof : siteAlertOf s key = some r) :
    cancelSiteMessage key s = removeSiteAlert r (relayEvent .cancel key r.cls s) := by
  rw [cancelSiteMessage, if_neg fun h => hr (List.contains_iff_mem.1 h), hof]

theorem cancelSiteMessage_unknown (hr : key ∉ s.site.recent) (hof : siteAlertOf s key = none) :
    ∃ c, cancelSiteMessage key s = relayEvent .cancel key c s := by
  refine ⟨(classOf (Config.cancelClass key).val).getD .test, ?_⟩
  rw [cancelSiteMessage, if_neg fun h => hr (List.contains_iff_mem.1 h), hof]

theorem takeSiteMessage_known {d : Nat} (h : key ∈ s.site.recent ∨ ∃ r ∈ s.site.alerts, r.key = key) :
    takeSiteMessage key c d s = s := by
  refine if_pos (Bool.or_eq_true_iff.2 ?_)
  exact h.symm.imp siteAlertOf_some List.contains_iff_mem.2

theorem takeSiteMessage_new {d : Nat} (hr : key ∉ s.site.recent) (hnew : ∀ r ∈ s.site.alerts, r.key ≠ key) :
    takeSiteMessage key c d s = admitSiteAlert ⟨key, c, d, 0, 0, false⟩ (relayEvent .start key c s) := by
  refine if_neg fun h => ?_
  rcases Bool.or_eq_true_iff.1 h with h | h
  · rw [siteAlertOf_none hnew] at h
    exact Bool.false_ne_true h
  · exact hr (List.contains_iff_mem.1 h)

theorem admitSiteAlert_room (h : s.site.alerts.length < 4) : admitSiteAlert r s
    = postSite r.key r.cls .admitted { s with site := { s.site with alerts := s.site.alerts ++ [r] } } := if_pos h

theorem lowestSite_mem {l : List SiteAlert} {x : SiteAlert} (h : lowestSite l = some x) : x ∈ l := by
  cases l with
  | nil => exact nomatch h
  | cons a l =>
    obtain rfl := Option.some.inj h
    exact foldl_choice_mem (fun m b => SiteAlert.above m b) l a

/-- A full list that holds no record below the new one, or only the one on air, refuses it (R179). -/
theorem admitSiteAlert_refused (full : 4 ≤ s.site.alerts.length)
    (h : ∀ y ∈ s.site.alerts, siteAiring y.key s = false → r.above y = false) :
    admitSiteAlert r s = postSite r.key r.cls .refused s := by
  have hnone : ((lowestSite (s.site.alerts.filter fun x => !siteAiring x.key s)).filter fun x => r.above x) = none := by
    refine Option.filter_eq_none_iff.2 fun x hx => ?_
    obtain ⟨hmem, hair⟩ := List.mem_filter.1 (lowestSite_mem hx)
    rw [h x hmem (Bool.eq_false_of_not_eq_true' hair)]
    exact Bool.false_ne_true
  rw [admitSiteAlert, if_neg (Nat.not_lt.2 full), hnone]

end

/-- Settles O57. -/
theorem siteAlertsAdmittedAndRemoved : Obligations.SiteAlertsAdmittedAndRemoved := by
  refine ⟨fun key s hr hs hh hk => ?messages, fun type length sum body s hr hs hh hlen hbad => ?bad,
    fun r s hr hs hof => ?records⟩
  case bad =>
    intro n
    refine congrArg Host.Outcome.next ((siteBytes_taken hr hs hh hlen).trans ?_)
    rw [siteMessage_discards (readMessage_none (m := ⟨type, length, body, sum⟩) hbad), siteReceiverError_eq]
  case records =>
    intro u told
    have hrow : exec (.siteAlertExpiry r.key) s = .next (expireSiteAlert r.key s) := siteRow_taken hr hs _
    refine ⟨SiteAlert.above_iff, fun hm hd => ⟨fun hp => ?_, fun hp => ⟨_, siteCut u, ?_⟩⟩,
      fun h => hrow.trans (congrArg _ (expireSiteAlert_stays hof h)), hrow, siteAlertTick_eq s,
      ⟨fun h => SiteAlert.tick_counts h, fun h hd => SiteAlert.tick_minute h hd⟩, siteFramerTick_hunts,
      siteFramerTick_counts, fun hh hn => ?_⟩
    · rw [hrow, expireSiteAlert_ends hof hm hd, removeSiteAlert_apart hp]
      rfl
    · rw [hrow, expireSiteAlert_ends hof hm hd, removeSiteAlert_cuts hp]
      exact congrArg _ (postSite_at .removed (cutSiteAiring_steady (.refl u)).clock)
    · intro n
      rw [siteFramerTick_discards hh hn, siteReceiverError_eq]
  case messages =>
    intro x s' told cancel
    have hcancel : cancel = .next (cancelSiteMessage key s') := by
      refine congrArg Host.Outcome.next ((siteFrame_taken hr hs hh (by rw [be32_length]; omega)).trans ?_)
      rw [siteMessage, readMessage_cancels hk]
    clear_value cancel
    obtain rfl := hcancel
    refine ⟨congrArg Host.Outcome.next ((siteFrame_taken hr hs hh (by rw [be32_length]; omega)).trans ?_),
      fun h => congrArg _ (cancelSiteMessage_recent h), fun hrec hnew room => ?_, fun r hrec hof room => ?_,
      fun a duration repeats => ?_⟩
    · rw [siteMessage, readMessage_ends hk]
    · obtain ⟨c, hc⟩ := cancelSiteMessage_unknown (s := s') hrec (siteAlertOf_none hnew)
      exact ⟨c, congrArg _ (hc.trans (relayEvent_room .cancel room))⟩
    · intro u
      obtain ⟨hkey, -⟩ := siteAlertOf_key hof
      have hknown : cancelSiteMessage key s' = removeSiteAlert r
          { s' with site := { s'.site with relay := s'.site.relay ++ [⟨.cancel, key, r.cls, 0⟩] } } :=
        (cancelSiteMessage_known (s := s') hrec hof).trans (congrArg _ (relayEvent_room .cancel room))
      rw [hknown]
      refine ⟨fun hp => congrArg _ ?_, fun hp => ⟨_, siteCut u, congrArg _ ?_⟩⟩
      · refine (removeSiteAlert_apart (by rw [hkey]; exact hp)).trans ?_
        rw [siteRemoved, hkey]
        rfl
      · refine (removeSiteAlert_cuts (by rw [hkey]; exact hp)).trans ?_
        rw [siteRemoved, hkey]
        exact postSite_at .removed (cutSiteAiring_steady (.refl u)).clock
    · intro begin' r
      have hbegin : begin' = .next (takeSiteMessage key a r.duration s') := by
        have hread := readMessage_begins hk a duration repeats
        refine congrArg Host.Outcome.next ((siteFrame_taken hr hs hh ?_).trans ?_)
        · show 8 < 256
          omega
        · rw [siteMessage]
          rw [beginBody] at hread
          rw [hread]
          rfl
      clear_value begin'
      obtain rfl := hbegin
      refine ⟨fun h => congrArg _ (takeSiteMessage_known h), fun hrec hnew room => ⟨fun hrelay => congrArg _ ?_,
        fun hrelay => congrArg _ ?_⟩, fun hrec hnew full hrelay => ?_⟩
      · refine (takeSiteMessage_new (s := s') hrec hnew).trans ?_
        rw [relayEvent_room (s := s') .start hrelay]
        exact admitSiteAlert_room room
      · refine (takeSiteMessage_new (s := s') hrec hnew).trans ?_
        rw [relayEvent_full (s := s') .start hrelay]
        exact admitSiteAlert_room (s := postSite key a .relayDropped s') room
      · intro airs
        have hadmit : takeSiteMessage key a r.duration s' = admitSiteAlert r
            { s' with site := { x with relay := x.relay ++ [⟨.start, key, a, 0⟩] } } :=
          (takeSiteMessage_new (s := s') hrec hnew).trans (congrArg _ (relayEvent_room .start hrelay))
        rw [hadmit]
        refine ⟨fun hlow => congrArg _ ?_, fun y hy hair hlow habove => congrArg _ ?_⟩
        · refine admitSiteAlert_refused full fun y hy hquiet => Bool.eq_false_iff.2 fun habove => ?_
          have hapart : ¬ airs y := fun k => Bool.eq_false_iff.1 hquiet (siteAiring_iff.2 k)
          have hranks := (SiteAlert.above_iff _ _).1 habove
          rcases hlow y hy with h | h | ⟨h, h'⟩
          · exact hapart h
          · rcases hranks with k | ⟨k, -⟩
            · exact absurd k (by dsimp only [r]; omega)
            · exact absurd (congrArg AlertClass.ctorIdx k) (by dsimp only [r]; omega)
          · rw [h] at hranks
            dsimp only [r] at hranks
            omega
        · refine admitSite_displaces full hy (Bool.eq_false_iff.2 fun k => hair (siteAiring_iff.1 k)) ?_ ?_
          · exact fun z hz hquiet => (hlow z hz).resolve_left
              fun k => Bool.eq_false_iff.1 hquiet (siteAiring_iff.2 k)
          · refine (SiteAlert.above_iff _ _).2 (habove.imp id fun ⟨hcls, hage, hlt⟩ => ⟨hcls.symm, .inr ⟨hage.symm, hlt⟩⟩)

end Sys2Proof.Machine
end

section
/-! SUPPORT. The site's local airing (R181), and the settling of O58. -/

namespace Sys2Proof.Machine

section
variable {s t : State} {key : Word} {c : Fin 256}

/-! ## The start of an airing (R181) -/

theorem highestSite_top {l : List SiteAlert} {r : SiteAlert} (h : highestSite l = some r) :
    r ∈ l ∧ ∀ x ∈ l, x.above r = false := by
  cases l with
  | nil => exact nomatch h
  | cons a l =>
    obtain rfl := Option.some.inj h
    exact ⟨foldl_choice_mem (fun m b => SiteAlert.above b m) l a,
      foldHighest_top SiteAlert.above_self SiteAlert.above_asymm SiteAlert.above_false_trans l a⟩

theorem highestSite_some {l : List SiteAlert} (h : l ≠ []) : ∃ r, highestSite l = some r := by
  cases l with
  | nil => exact absurd rfl h
  | cons a l => exact ⟨_, rfl⟩

theorem startSiteAlert_stays (h : s.site.state = .feeding ∨ s.site.player.state ≠ .idle
    ∨ ∀ r ∈ s.site.alerts, r.aired = true) : startSiteAlert s = s := by
  unfold startSiteAlert
  split
  case h_1 r hr =>
    obtain ⟨hmem, haired⟩ := List.mem_filter.1 (highestSite_top hr).1
    refine if_neg fun ⟨hfeed, hidle⟩ => ?_
    rcases h with h | h | h
    · exact hfeed h
    · exact h hidle
    · rw [h r hmem] at haired
      exact Bool.false_ne_true haired
  case h_2 => rfl

/-- The site with an airing of a record begun (R181). -/
def siteToneTaken (r : SiteAlert) (s : State) : State := { s with
  cp := s.cp.post ⟨.siteAlert, s.clock.blockCount, [r.key, word r.cls.ctorIdx, word 5]⟩
  site := { s.site with
    player := { SitePlayer.reset with state := .tone, key := some r.key, cls := r.cls }
    filler := { s.site.filler with envelope := s.site.filler.envelope.giveEnvelope 0 8 } }
  tg := { s.tg with voices := s.tg.voices.put 0 (grantedVoice .alertUnit true s.settings.attentionF1
    s.settings.attentionF2 s.settings.attentionLevel) } }

theorem startSiteAlert_starts (hf : s.site.state ≠ .feeding) (hi : s.site.player.state = .idle)
    (h : ∃ r ∈ s.site.alerts, r.aired = false) : ∃ r ∈ s.site.alerts, r.aired = false
      ∧ (∀ y ∈ s.site.alerts, y.aired = false → y.above r = false) ∧ startSiteAlert s = siteToneTaken r s := by
  have hopen : ∀ {r : SiteAlert}, r ∈ s.site.alerts.filter (fun r => !r.aired) ↔ r ∈ s.site.alerts ∧ r.aired = false :=
    fun {r} => by rw [List.mem_filter, Bool.not_eq_true']
  obtain ⟨x, hx, hxa⟩ := h
  obtain ⟨r, hr⟩ := highestSite_some (List.ne_nil_of_mem (hopen.2 ⟨hx, hxa⟩))
  obtain ⟨hmem, htop⟩ := highestSite_top hr
  obtain ⟨hrs, hra⟩ := hopen.1 hmem
  refine ⟨r, hrs, hra, fun y hy hya => htop y (hopen.2 ⟨hy, hya⟩), ?_⟩
  rw [startSiteAlert, hr]
  exact if_pos ⟨hf, hi⟩

/-! ## The phases of an airing (R147, R148, R181) -/

theorem endSiteAttention_ends (h : s.site.player.state = .tone)
    (hn : s.settings.attentionLength ≤ s.site.player.phaseCount) : endSiteAttention s
      = releaseAttentionVoice (setSitePlayer { s.site.player with
          state := .silent, phaseCount := 0, clip := siteMessageClip s, position := 0, fetchPosition := 0
          buffer := [] } (closeRequests s)) := if_pos ⟨h, hn⟩

theorem endSiteAttention_waits (hn : s.site.player.phaseCount < s.settings.attentionLength) : endSiteAttention s = s :=
  if_neg fun h => Nat.not_lt.2 h.2 hn

theorem endSiteGap_opens (h : s.site.player.state = .silent) (hn : 500 ≤ s.site.player.phaseCount)
    (hc : s.site.player.clip = some c) : endSiteGap s = setSitePlayer { s.site.player with
      state := .message, envelope := s.site.player.envelope.giveEnvelope 4096 0 } s :=
  (if_pos ⟨h, hn⟩).trans (if_pos (Option.isSome_iff_exists.2 ⟨c, hc⟩))

theorem endSiteGap_completes (h : s.site.player.state = .silent) (hn : 500 ≤ s.site.player.phaseCount)
    (hc : s.site.player.clip = none) : endSiteGap s = completeSiteAiring s :=
  (if_pos ⟨h, hn⟩).trans (if_neg fun k => by rw [hc] at k; exact Bool.false_ne_true k)

theorem endSiteGap_waits (hn : s.site.player.phaseCount < 500) : endSiteGap s = s :=
  if_neg fun h => Nat.not_lt.2 h.2 hn

theorem siteMessageClip_eq (s : State) : siteMessageClip s = s.settings.siteAlertClip.bind fun c =>
    if (clipAt s c).state = .ready ∧ 0 < (clipAt s c).length then some c else none := by
  unfold siteMessageClip
  cases s.settings.siteAlertClip with
  | none => rfl
  | some c =>
    by_cases h : (clipAt s c).state = .ready ∧ 0 < (clipAt s c).length
    · simp [Option.filter, h]
    · rw [Option.bind_some, if_neg h]
      refine Option.filter_some_neg (Bool.eq_false_iff.2 fun k => h ?_)
      simpa using k

/-! ## The end of an airing (R181) -/

/-- An airing of the site is over, told as a kind: the player is IDLE, voice 0 and the clip are given back. -/
def SiteAiringDone (key : Word) (a : AlertClass) (e : Ramp) (k : Nat) (s t : State) : Prop :=
  t = { s with
    cp := s.cp.post ⟨.siteAlert, s.clock.blockCount, [key, word a.ctorIdx, word k]⟩
    cs := { s.cs with port := t.cs.port, waiting := t.cs.waiting, asked := 0 }
    site := { s.site with
      alerts := t.site.alerts
      player := { SitePlayer.reset with envelope := e }
      filler := { s.site.filler with envelope := s.site.filler.envelope.giveEnvelope 4096 8 } }
    tg := { s.tg with voices := t.tg.voices } }
  ∧ (Tab.at t.tg.voices 0).holder ≠ some .alertUnit
  ∧ ∀ v, v ≠ 0 → Tab.at t.tg.voices v = Tab.at s.tg.voices v

theorem idleSitePlayer_done {x : SitePlayer} {l : List SiteAlert} (k : SiteChange) (hk : x.key = some key) :
    SiteAiringDone key x.cls x.envelope k.ctorIdx s
      (idleSitePlayer k { s with site := { s.site with alerts := l, player := x } })
    ∧ (idleSitePlayer k { s with site := { s.site with alerts := l, player := x } }).site.alerts = l := by
  have hkey : x.key.getD 0 = key := by rw [hk]; rfl
  rw [idleSitePlayer_leaves]
  dsimp only
  rw [hkey]
  refine ⟨⟨?_, ?_, fun v hv => ?_⟩, rfl⟩
  · split <;> rfl
  · split
    · simp [releaseAttentionVoice, Voice.release]
    · assumption
  · dsimp only
    split
    · simp [releaseAttentionVoice, Ne.symm hv]
    · rfl

/-- The site's records with those of a key aired. -/
def sitesAired (key : Word) (l : List SiteAlert) : List SiteAlert :=
  l.map fun r => if r.key = key then { r with aired := true } else r

theorem completeSiteAiring_done {x : SitePlayer} (hk : x.key = some key) :
    SiteAiringDone key x.cls x.envelope 6 s (completeSiteAiring (setSitePlayer x s))
    ∧ (completeSiteAiring (setSitePlayer x s)).site.alerts = sitesAired key s.site.alerts := by
  have hmarks : s.site.alerts.map (fun r => if some r.key = x.key then { r with aired := true } else r)
      = sitesAired key s.site.alerts := by
    rw [hk]
    simp only [Option.some_inj]
    rfl
  have hidle := idleSitePlayer_done (s := s) (l := sitesAired key s.site.alerts) .aired hk
  rw [← hmarks] at hidle ⊢
  exact hidle

/-- The site with its player's envelope one block on. -/
def siteAdvanced (s : State) : State :=
  setSitePlayer { s.site.player with envelope := s.site.player.envelope.advance } s

theorem SiteAiringDone.advanced {a : AlertClass} {e : Ramp} {k : Nat} (h : SiteAiringDone key a e k s t) :
    SiteAiringDone key a e.advance k s (siteAdvanced t) := by
  obtain ⟨hframe, hvoice, hvoices⟩ := h
  refine ⟨?_, hvoice, hvoices⟩
  rw [siteAdvanced]
  rw [hframe]
  rfl

/-! ## The cut (R150, R181) -/

theorem siteClipLength_some (h : s.site.player.clip = some c) : siteClipLength s = (clipAt s c).length := by
  rw [siteClipLength, h]
  rfl

theorem sitePlayedOut_iff : sitePlayedOut s = true ↔ s.site.player.handing = .message
    ∧ (siteClipLength s ≤ s.site.player.position ∨ (s.site.player.fetchedAll = true ∧ s.site.player.buffer = [])) := by
  rw [sitePlayedOut, Bool.and_eq_true, beq_iff_eq, Bool.or_eq_true, decide_eq_true_iff, Bool.and_eq_true,
    List.isEmpty_iff]

theorem SitePlayer.handing_fading {x : SitePlayer} (h : x.state = .fading) : x.handing = x.cutFrom := if_pos h

theorem sitePlayedOut_fading (hf : s.site.player.state = .fading) (hc : s.site.player.clip = some c) :
    sitePlayedOut s = true ↔ s.site.player.cutFrom = .message ∧ ((clipAt s c).length ≤ s.site.player.position
      ∨ (s.site.player.fetchedAll = true ∧ s.site.player.buffer = [])) := by
  rw [sitePlayedOut_iff, siteClipLength_some hc, SitePlayer.handing_fading hf]

theorem SitePlayer.handing_own {x : SitePlayer} (h : x.state ≠ .fading) : x.handing = x.state := if_neg h

theorem completeSiteCut_waits (h : s.site.player.state ≠ .fading) : completeSiteCut s = s := if_neg fun k => h k.1

/-! ## The player's block (R147, R148, R150, R181) -/

theorem applyRamp_sided {r : Ramp} {b : Block} (h : ∀ f ∈ b, f.1 = f.2) : ∀ f ∈ applyRamp r b, f.1 = f.2 := by
  intro f hf
  obtain ⟨gp, hgp, rfl⟩ := List.mem_map.1 hf
  exact congrArg (applyGain · gp.1) (h gp.2 (List.of_mem_zip hgp).2)

theorem block48_sided {b : Block} (h : ∀ f ∈ b, f.1 = f.2) : ∀ f ∈ block48 b, f.1 = f.2 := by
  intro f hf
  rcases List.mem_append.1 (List.mem_of_mem_take hf) with hf | hf
  · exact h f hf
  · rw [List.eq_of_mem_replicate hf]

theorem siteAlertBlock_tone (h : s.site.player.handing = .tone) :
    siteAlertBlock s = applyRamp s.site.player.envelope (voiceBlock 0 s) := by
  unfold siteAlertBlock
  dsimp only
  rw [h]

theorem siteAlertBlock_silent (h : s.site.player.handing = .silent) : siteAlertBlock s = silence := by
  unfold siteAlertBlock
  dsimp only
  rw [h]
  exact applyRamp_silence _

theorem siteAlertBlock_message (h : s.site.player.handing = .message) : siteAlertBlock s
    = applyRamp s.site.player.envelope
      ((block48 (s.site.player.buffer.take 48)).map fun p => (oneSample p, oneSample p)) := by
  unfold siteAlertBlock
  dsimp only
  rw [h]

theorem oneSample_sided {b : Block} (h : ∀ f ∈ b, f.1 = f.2) : b.map (fun p => (oneSample p, oneSample p)) = b := by
  refine (List.map_congr_left fun p hp => ?_).trans (List.map_id b)
  have hone : oneSample p = p.1 := if_pos (h p hp)
  rw [hone]
  exact Prod.ext rfl (h p hp)

theorem SitePlayer.afterBlock_eq (x : SitePlayer) (n : Nat) : x.afterBlock n = { x with
    buffer := x.buffer.drop 48
    position := min n (x.position + 48)
    fetchPosition := if x.buffer.length < 48 ∧ x.fetchedAll = false ∧ x.fetchPosition < n then
      max x.fetchPosition (min n (x.position + 48)) else x.fetchPosition } := by
  have hshort : x.short n = true ↔ x.buffer.length < 48 ∧ x.fetchedAll = false ∧ x.fetchPosition < n := by
    simp [SitePlayer.short, and_assoc]
  unfold SitePlayer.afterBlock
  simp only [hshort]

theorem produceSiteAlert_idle (h : s.site.player.state = .idle) : produceSiteAlert s = (s, silence) := if_pos h

theorem produceSiteAlert_busy (h : s.site.player.state ≠ .idle) :
    produceSiteAlert s = (completeSiteCut (siteAdvanced (afterSiteBlock s)), siteAlertBlock s) := if_neg h

theorem afterSiteBlock_tone (h : s.site.player.state = .tone) : afterSiteBlock s = endSiteAttention
    (setSitePlayer { s.site.player with handed := true, phaseCount := s.site.player.phaseCount + 1 } s) := by
  unfold afterSiteBlock
  simp [SitePlayer.handing, h]

theorem afterSiteBlock_silent (h : s.site.player.state = .silent) : afterSiteBlock s = endSiteGap
    (setSitePlayer { s.site.player with handed := true, phaseCount := s.site.player.phaseCount + 1 } s) := by
  unfold afterSiteBlock
  simp [SitePlayer.handing, h]

theorem endSiteAttention_goesOn (h : s.site.player.state = .tone) : (endSiteAttention s).site.player.state ≠ .fading := by
  unfold endSiteAttention
  dsimp only
  split
  · exact nofun
  · rw [h]
    exact nofun

theorem endSiteGap_goesOn (h : s.site.player.state = .silent) : (endSiteGap s).site.player.state ≠ .fading := by
  unfold endSiteGap
  dsimp only
  split
  · split
    · exact nofun
    · rw [completeSiteAiring, idleSitePlayer_leaves]
      exact nofun
  · rw [h]
    exact nofun

/-- The player after a block of a clip (R148, R89). -/
def SitePlayer.clipPlayed (x : SitePlayer) (n : Nat) : SitePlayer := { x with
  handed := true
  buffer := x.buffer.drop 48
  position := min n (x.position + 48)
  fetchPosition := if x.buffer.length < 48 ∧ x.fetchedAll = false ∧ x.fetchPosition < n then
    max x.fetchPosition (min n (x.position + 48)) else x.fetchPosition }

theorem afterSiteBlock_message (h : s.site.player.state = .message) (hc : s.site.player.clip = some c) :
    afterSiteBlock s =
      if sitePlayedOut (setSitePlayer (s.site.player.clipPlayed (clipAt s c).length) s) then
        completeSiteAiring (setSitePlayer (s.site.player.clipPlayed (clipAt s c).length) s)
      else setSitePlayer (s.site.player.clipPlayed (clipAt s c).length) s := by
  unfold afterSiteBlock
  simp [SitePlayer.handing, h, SitePlayer.afterBlock_eq, siteClipLength_some hc, SitePlayer.clipPlayed]

theorem afterSiteBlock_fading (h : s.site.player.state = .fading) (hc : s.site.player.cutFrom ≠ .message) :
    afterSiteBlock s = setSitePlayer { s.site.player with handed := true } s := by
  unfold afterSiteBlock
  simp [SitePlayer.handing, h, hc]

theorem afterSiteBlock_fadingClip (h : s.site.player.state = .fading) (hm : s.site.player.cutFrom = .message)
    (hc : s.site.player.clip = some c) :
    afterSiteBlock s = setSitePlayer (s.site.player.clipPlayed (clipAt s c).length) s := by
  unfold afterSiteBlock
  simp [SitePlayer.handing, h, hm, SitePlayer.afterBlock_eq, siteClipLength_some hc, SitePlayer.clipPlayed]

/-- The clip is out with a block where its frames, or those fetched of a clip cut short, end with it. -/
theorem sitePlayedOut_clipPlayed (h : s.site.player.state = .message) (hc : s.site.player.clip = some c) :
    sitePlayedOut (setSitePlayer (s.site.player.clipPlayed (clipAt s c).length) s) = true
      ↔ (clipAt s c).length ≤ s.site.player.position + 48
        ∨ (s.site.player.fetchedAll = true ∧ s.site.player.buffer.length ≤ 48) := by
  have hlen : siteClipLength (setSitePlayer (s.site.player.clipPlayed (clipAt s c).length) s) = (clipAt s c).length :=
    siteClipLength_some (s := setSitePlayer _ s) hc
  have hown : (s.site.player.clipPlayed (clipAt s c).length).handing = .message := by
    rw [SitePlayer.handing, SitePlayer.clipPlayed, h]
    rfl
  rw [sitePlayedOut_iff, hlen]
  refine (and_iff_right hown).trans (or_congr ?_ (and_congr_right fun _ => List.drop_eq_nil_iff))
  show (clipAt s c).length ≤ min (clipAt s c).length (s.site.player.position + 48) ↔ _
  omega

end

/-- Settles O58. -/
theorem siteAiringRunsThroughItsPhases : Obligations.SiteAiringRunsThroughItsPhases := by
  unfold Obligations.SiteAiringRunsThroughItsPhases
  intro s hr hs x p told made h runsOut out standing advanced played
  have hairing : exec .siteAlertAiring s = .next (startSiteAlert s) := siteRow_taken hr hs _
  have htone : ∀ y, exec .siteAttentionEnd (standing y) = .next (endSiteAttention (standing y)) :=
    fun y => siteRow_taken (s := standing y) hr hs _
  have hgap : ∀ y, exec .siteGapEnd (standing y) = .next (endSiteGap (standing y)) :=
    fun y => siteRow_taken (s := standing y) hr hs _
  have hcut : ∀ y, exec .siteAlertCutDone (standing y) = .next (completeSiteCut (standing y)) :=
    fun y => siteRow_taken (s := standing y) hr hs _
  have hbusy : p.state ≠ .idle → made = (completeSiteCut (siteAdvanced (afterSiteBlock s)), siteAlertBlock s) :=
    produceSiteAlert_busy
  have hsounds : h ≠ .idle → p.state ≠ .idle := fun hh k => hh (by dsimp only [h]; rw [k]; rfl)
  have hplayed : p.state = .fading → out → p.envelope.atRest = true ∨ sitePlayedOut s = true :=
    fun hf k => k.imp id fun ⟨hm, c, hc, hover⟩ => (sitePlayedOut_fading hf hc).2 ⟨hm, hover⟩
  have hout : p.state = .fading → (p.cutFrom = .message → p.clip ≠ none) →
      p.envelope.atRest = true ∨ sitePlayedOut s = true → out := fun hf hclip k => k.imp id fun hover => by
    have hm : p.cutFrom = .message := (SitePlayer.handing_fading hf).symm.trans (sitePlayedOut_iff.1 hover).1
    obtain ⟨c, hc⟩ := Option.ne_none_iff_exists'.1 (hclip hm)
    exact ⟨hm, c, hc, ((sitePlayedOut_fading hf hc).1 hover).2⟩
  refine ⟨siteCut s, fun k => hairing.trans (congrArg _ (startSiteAlert_stays k)), fun hf hi hx => ?start,
    fun ht hn => (htone p).trans (congrArg _ ((endSiteAttention_ends ht hn).trans ?attention)),
    fun _ hn => (htone p).trans (congrArg _ (endSiteAttention_waits hn)),
    fun c hst hn hc => (hgap p).trans (congrArg _ (endSiteGap_opens hst hn hc)),
    fun _ hn => (hgap p).trans (congrArg _ (endSiteGap_waits hn)), fun key hk => ?done,
    fun hf hno hm => (hcut p).trans (congrArg _ (if_neg fun k => hno (hout hf hm k.2))),
    fun hi => produceSiteAlert_idle hi, fun ht => ?toneBlock, fun hsil => ?silentBlock, fun hm => ?messageBlock,
    fun ht => ⟨_, htone _, ?toneTold⟩, fun hsil => ⟨_, hgap _, ?silentTold⟩, fun c hm hc hn => ?messageTold,
    fun hf hm => (hcut _).trans (congrArg _ ?fadingTold), fun c hf hm hc => (hcut _).trans (congrArg _ ?fadingClipTold)⟩
  case start => exact (startSiteAlert_starts hf hi hx).imp fun r ⟨hr, ha, htop, hstart⟩ =>
    ⟨hr, ha, htop, hairing.trans (congrArg _ hstart)⟩
  case attention =>
    rw [siteMessageClip_eq]
    cases s.settings.siteAlertClip <;> rfl
  case done =>
    intro done
    refine ⟨fun hsil hn hc => ⟨_, (hgap p).trans (congrArg _ (endSiteGap_completes hsil hn hc)),
      completeSiteAiring_done hk⟩, fun hf k => ?_, fun c hm hc hover => ?_⟩
    · obtain ⟨hdone, halerts⟩ := idleSitePlayer_done (s := s) (l := s.site.alerts) .cut hk
      exact ⟨_, (hcut p).trans (congrArg _ (if_pos ⟨hf, hplayed hf k⟩)), hdone, halerts⟩
    · obtain ⟨hdone, halerts⟩ := completeSiteAiring_done (s := s)
        (x := s.site.player.clipPlayed (clipAt s c).length) hk
      have hended : afterSiteBlock s
          = completeSiteAiring (setSitePlayer (s.site.player.clipPlayed (clipAt s c).length) s) :=
        (afterSiteBlock_message hm hc).trans (if_pos ((sitePlayedOut_clipPlayed hm hc).2 hover))
      have hmade : made.1 = siteAdvanced (completeSiteAiring
          (setSitePlayer (s.site.player.clipPlayed (clipAt s c).length) s)) := by
        rw [hbusy (by rw [hm]; exact nofun), hended]
        refine completeSiteCut_waits ?_
        rw [hdone.advanced.1]
        exact nofun
      rw [hmade]
      exact ⟨hdone.advanced, halerts⟩
  case toneBlock =>
    rw [hbusy (hsounds (by rw [ht]; exact nofun))]
    exact siteAlertBlock_tone ht
  case silentBlock =>
    rw [hbusy (hsounds (by rw [hsil]; exact nofun))]
    exact siteAlertBlock_silent hsil
  case messageBlock =>
    have hblock : made.2 = _ := (congrArg Prod.snd (hbusy (hsounds (by rw [hm]; exact nofun)))).trans
      (siteAlertBlock_message hm)
    rw [hblock]
    refine ⟨applyRamp_sided fun f hf => ?_, fun hsides => ?_⟩
    · obtain ⟨q, -, rfl⟩ := List.mem_map.1 hf
      rfl
    · rw [oneSample_sided (block48_sided hsides)]
  case toneTold =>
    rw [hbusy (by rw [ht]; exact nofun), afterSiteBlock_tone ht]
    exact completeSiteCut_waits (endSiteAttention_goesOn ht)
  case silentTold =>
    rw [hbusy (by rw [hsil]; exact nofun), afterSiteBlock_silent hsil]
    exact completeSiteCut_waits (endSiteGap_goesOn hsil)
  case messageTold =>
    have hgoes : afterSiteBlock s = setSitePlayer (s.site.player.clipPlayed (clipAt s c).length) s :=
      (afterSiteBlock_message hm hc).trans (if_neg fun k => hn ((sitePlayedOut_clipPlayed hm hc).1 k))
    rw [hbusy (by rw [hm]; exact nofun), hgoes]
    refine completeSiteCut_waits (?_ : s.site.player.state ≠ .fading)
    rw [hm]
    exact nofun
  case fadingTold =>
    rw [hbusy (by rw [hf]; exact nofun), afterSiteBlock_fading hf hm]
    rfl
  case fadingClipTold =>
    rw [hbusy (by rw [hf]; exact nofun), afterSiteBlock_fadingClip hf hm hc]
    rfl

end Sys2Proof.Machine
end

section
/-! SUPPORT. Voices, the sine table and lamps (R177, R183, R184, R188), and the settling of O59. -/

namespace Sys2Proof.Machine

/-! ## Voices (R183, R184) -/

section
variable {v : Voice}

theorem Voice.form_free (h : v.holder = none) : v.form = { v with block := [] } := by
  rw [Voice.form, h]

theorem Voice.form_held (h : v.holder ≠ none) : v.form = { v with
    block := (List.range 48).map v.sample
    p1 := phaseAfter v.p1 v.i1 48
    p2 := if v.dual then phaseAfter v.p2 v.i2 48 else v.p2 } := by
  obtain ⟨x, hx⟩ := Option.ne_none_iff_exists'.1 h
  rw [Voice.form, hx]

end

theorem phaseIncrement_eq (f : Nat) : phaseIncrement f = (f * 8589934592 + 48000) / 96000 := by
  rw [phaseIncrement, Nat.mul_assoc]

/-- The table value at a phase after some additions, the sum taken modulo 2³² once. -/
theorem toneAt_phaseAfter (p : Word) (i k : Nat) :
    toneAt (phaseAfter p i k) = sineEntry ((p.toNat + k * i) % 4294967296 / 16777216) := by
  rw [toneAt, phaseAfter, BitVec.toNat_add, BitVec.toNat_ofNat, Nat.add_mod_mod]

theorem getElem_blockOf {α : Type} {f : Nat → α} {k : Nat} (h : k < 48) : ((List.range 48).map f)[k]? = some (f k) := by
  rw [List.getElem?_map, List.getElem?_range h]
  rfl

/-! ## The sine table (R183) -/

theorem sineEntry_half : ∀ i, i < 128 → sineEntry (i + 128) = -sineEntry i := by decide

theorem sineEntry_mirror : ∀ i, i ≤ 64 → sineEntry (128 - i) = sineEntry i := by decide

theorem sineEntry_rises : ∀ i, i < 64 → sineEntry i < sineEntry (i + 1) := by decide

/-! ## Lamps (R177, R188) -/

section
variable {s : State}

theorem lampOutput_site (i : Fin 4) (k : Nat) (h : atSite s = true) :
    lampOutput i k s = decide (k < Tab.at s.site.levels i * 48 / 255) := if_pos h

theorem lampOutput_studio (i : Fin 4) (k : Nat) (h : atSite s = false) :
    lampOutput i k s = (Tab.at s.tg.lamps i).lit := if_neg fun hs => Bool.false_ne_true (h.symm.trans hs)

theorem localOnAir_iff (slot : Fin 8) : localOnAir slot s = true ↔ ∃ e, findEntry s.settings.nodeId slot s.cu.table = some e
    ∧ e.own = true ∧ e.air = true ∧ (e.presence = .present ∨ e.presence = .concealed) := by
  have hpresence : ∀ p : Presence, (p != .stale) = true ↔ p = .present ∨ p = .concealed := fun p => by
    cases p <;> decide
  unfold localOnAir
  split
  case h_1 e he =>
    rw [Bool.and_eq_true, Bool.and_eq_true, hpresence, and_assoc]
    exact ⟨fun h => ⟨e, he, h⟩, fun ⟨_, he', h⟩ => Option.some.inj (he.symm.trans he') ▸ h⟩
  case h_2 he => exact ⟨nofun, fun ⟨_, he', _⟩ => nomatch he.symm.trans he'⟩

theorem micLive_iff : micLive s = true ↔ s.cu.inForce = some .live
    ∧ ((localOnAir 0 s = true ∧ s.tg.lineUp ≠ .on) ∨ localOnAir 1 s = true) := by
  have hoff : (!lineUpOn s) = true ↔ s.tg.lineUp ≠ .on := by
    rw [Bool.not_eq_true', Bool.eq_false_iff, ne_eq, lineUpOn_iff]
  rw [micLive, Bool.and_eq_true, beq_iff_eq, Bool.or_eq_true, Bool.and_eq_true, hoff]

theorem peerLinkFault_iff (p : Peer) : peerLinkFault p = true ↔ p.roles.link = true
    ∧ (p.state = .lost ∨ (p.state = .present ∧ p.body.map AnnounceBody.link ≠ some .up)) := by
  rw [peerLinkFault, Bool.and_eq_true, Bool.or_eq_true, beq_iff_eq, Bool.and_eq_true, beq_iff_eq, bne_iff_ne]

theorem linkFault_iff : linkFault s = true ↔ (s.settings.roles.link = true ∧ s.link.state ≠ .up)
    ∨ (s.settings.roles.link = false ∧ ∃ k, (Tab.at s.peers k).roles.link = true ∧
      ((Tab.at s.peers k).state = .lost ∨ ((Tab.at s.peers k).state = .present
        ∧ (Tab.at s.peers k).body.map AnnounceBody.link ≠ some .up))) := by
  cases h : s.settings.roles.link with
  | true => simp [linkFault, h]
  | false =>
    have hpeers : s.peers.toList.any peerLinkFault = true ↔ ∃ k, peerLinkFault (Tab.at s.peers k) = true := by
      rw [toList_eq_finRange, List.any_map, List.any_eq_true]
      exact ⟨fun ⟨k, _, hk⟩ => ⟨k, hk⟩, fun ⟨k, hk⟩ => ⟨k, List.mem_finRange k, hk⟩⟩
    rw [linkFault, if_neg (Bool.eq_false_iff.1 h), hpeers]
    simp only [peerLinkFault_iff]
    exact ⟨fun hk => .inr ⟨trivial, hk⟩, fun hk => hk.elim (fun ⟨hl, _⟩ => nomatch hl) And.right⟩

theorem notEmpty_iff {α : Type} {l : List α} : (!l.isEmpty) = true ↔ l ≠ [] := by
  rw [Bool.not_eq_true', List.isEmpty_eq_false_iff]

theorem airingHere_iff : airingHere s = true ↔ ∃ r ∈ s.au.table, r.state = .airing := by
  simp [airingHere]

theorem updateLamps_at (i : Fin 4) : Tab.at (updateLamps s).tg.lamps i = (Tab.at s.tg.lamps i).update
    (Tab.at s.settings.lamps i) (LampCondition.holds (Tab.at s.settings.lamps i).condition s) (airingHere s) :=
  Tab.at_ofFn _ _

end

section
variable {x : Lamp} {a : LampAssign} {airing : Bool}

theorem Lamp.update_dark : x.update a false airing = ⟨false, 0⟩ := rfl

theorem Lamp.update_blinks {h : Nat} (ha : a.mode = .blink h) : x.update a true airing
    = ⟨decide (x.blink < h), if x.blink + 1 < 2 * h then x.blink + 1 else 0⟩ := by
  simp [Lamp.update, lampBlinks, halfPeriod, ha]

theorem Lamp.update_steady (ha : a.mode = .steady) : x.update a true airing
    = ⟨!(a.condition == .alertHeld && airing) || decide (x.blink < 128),
      if x.blink + 1 < 256 then x.blink + 1 else 0⟩ := by
  simp [Lamp.update, lampBlinks, halfPeriod, ha]

end

/-- Settles O59. -/
theorem tonesAndLampsAtBlockStart : Obligations.TonesAndLampsAtBlockStart := by
  refine ⟨fun v s => ?voices, fun h dual f1 f2 level => ?grants,
    ⟨by decide, by decide, by decide, sineEntry_half, sineEntry_mirror, sineEntry_rises, sineEntry_nearest⟩,
    fun i k s => ⟨fun hr hs => ?outputs, fun h => ?lit⟩, fun i s => ?lamps⟩
  case voices =>
    intro x t y entry raw
    have hy : y = x.form := Tab.at_each _ _ _
    refine ⟨rfl, fun h => hy.trans (Voice.form_free h), fun h => ?_⟩
    have hform := hy.trans (Voice.form_held h)
    rw [hform]
    refine ⟨by simp, fun k hk => ?_, rfl⟩
    refine (getElem_blockOf hk).trans (congrArg some ?_)
    rw [Voice.sample]
    rw [toneAt_phaseAfter, toneAt_phaseAfter]
    rfl
  case grants =>
    intro v
    exact ⟨rfl, rfl, rfl, rfl, rfl, rfl, rfl, phaseIncrement_eq _, fun hd => (if_pos hd).trans (phaseIncrement_eq _)⟩
  case outputs =>
    intro v
    have hsite : atSite s = true := (atSite_iff hr).trans hs
    rw [lampOutput_site i k hsite, decide_eq_true_iff, decide_eq_false_iff_not]
    exact ⟨Iff.rfl, fun (h : Tab.at s.site.levels i = 0) => by omega, fun (h : Tab.at s.site.levels i = 255) hk => by omega⟩
  case lit =>
    refine lampOutput_studio i k (Bool.and_eq_false_iff.2 (h.imp (fun hr => ?_) id))
    exact beq_eq_false_iff_ne.2 hr
  case lamps =>
    intro a x t y onAir holds airing
    have hholds : LampCondition.holds a.condition s = true ↔ holds := by
      dsimp only [holds, onAir]
      cases a.condition with
      | none => exact ⟨nofun, nofun⟩
      | micLive => exact micLive_iff.trans (and_congr_right fun _ =>
          or_congr (and_congr_left fun _ => localOnAir_iff 0) (localOnAir_iff 1))
      | callerWaiting => exact notEmpty_iff
      | alertHeld => exact notEmpty_iff
      | linkFault => exact linkFault_iff
      | seatHolding => exact beq_iff_eq
    have hy : y = x.update a (LampCondition.holds a.condition s) (airingHere s) := updateLamps_at i
    refine ⟨rfl, fun hn => ?_, fun h hp ha => ?_, fun hp ha => ?_⟩
    · rw [hy, Bool.eq_false_iff.2 fun k => hn (hholds.1 k), Lamp.update_dark]
    · rw [hy, hholds.2 hp, Lamp.update_blinks ha]
    · rw [hy, hholds.2 hp, Lamp.update_steady ha]
      refine ⟨rfl, fun hc hair => ?_, fun h => ?_⟩
      · rw [hc, airingHere_iff.2 hair]
        rfl
      · have hshines : (a.condition == .alertHeld && airingHere s) = false :=
          Bool.and_eq_false_iff.2 (h.imp beq_eq_false_iff_ne.2 fun k => Bool.eq_false_iff.2 fun k' => k (airingHere_iff.1 k'))
        rw [hshines]
        rfl

end Sys2Proof.Machine
end

section
/-! SUPPORT. The pool and the line-up tone (R186, R187), status inputs and their actions (R189, R190), and the settling of
O60. -/

namespace Sys2Proof.Machine

section
variable {s : State} {v : Fin 4} {r : Route}

/-! ## The pool (R186) -/

theorem mem_poolVoices : v ∈ poolVoices ↔ 1 ≤ v.val := by
  revert v
  decide

theorem poolVoices_lowest {p : Fin 4 → Bool} (hv : 1 ≤ v.val) (hp : p v = true)
    (hlow : ∀ u : Fin 4, 1 ≤ u.val → u < v → p u = false) : poolVoices.find? p = some v := by
  have hpasses : ∀ u : Fin 4, 1 ≤ u.val → u < v → ¬ p u = true := fun u hu hlt => Bool.eq_false_iff.1 (hlow u hu hlt)
  have hmem : v = 1 ∨ v = 2 ∨ v = 3 := by simpa [poolVoices] using mem_poolVoices.2 hv
  rcases hmem with rfl | rfl | rfl
  · exact List.find?_cons_of_pos hp
  · exact (List.find?_cons_of_neg (hpasses 1 (by decide) (by decide))).trans (List.find?_cons_of_pos hp)
  · exact (List.find?_cons_of_neg (hpasses 1 (by decide) (by decide))).trans
      ((List.find?_cons_of_neg (hpasses 2 (by decide) (by decide))).trans (List.find?_cons_of_pos hp))

theorem freePoolVoice_lowest (hv : 1 ≤ v.val) (hfree : (Tab.at s.tg.voices v).holder = none)
    (hlow : ∀ u : Fin 4, 1 ≤ u.val → u < v → (Tab.at s.tg.voices u).holder ≠ none) : freePoolVoice s = some v :=
  poolVoices_lowest hv (beq_iff_eq.2 hfree) fun u hu hlt => beq_eq_false_iff_ne.2 (hlow u hu hlt)

theorem freePoolVoice_none (h : ∀ u : Fin 4, 1 ≤ u.val → (Tab.at s.tg.voices u).holder ≠ none) : freePoolVoice s = none :=
  List.find?_eq_none.2 fun u hu hfree => h u (mem_poolVoices.1 hu) (beq_iff_eq.1 hfree)

theorem lineUpVoice_lowest (hv : 1 ≤ v.val) (hheld : (Tab.at s.tg.voices v).holder = some .lineUp)
    (hlow : ∀ u : Fin 4, 1 ≤ u.val → u < v → (Tab.at s.tg.voices u).holder ≠ some .lineUp) : lineUpVoice s = some v :=
  poolVoices_lowest hv (beq_iff_eq.2 hheld) fun u hu hlt => beq_eq_false_iff_ne.2 (hlow u hu hlt)

theorem giveBackVoice_free (h : s.tg.waitList = []) : giveBackVoice v s
    = { s with tg := { s.tg with voices := s.tg.voices.put v (Tab.at s.tg.voices v).release } } := by
  rw [giveBackVoice, h]

theorem giveBackVoice_line {l : Fin 3} {rest : List Holder} (h : s.tg.waitList = .line l :: rest) : giveBackVoice v s
    = { s with
        tg := { s.tg with
          waitList := rest
          voices := s.tg.voices.put v
            (grantedVoice (.line l) false s.settings.checkFrequency 20 s.settings.checkLevel) }
        ku := { s.ku with lines := s.ku.lines.put l { lineAt s l with voice := .held v } } } := by
  rw [giveBackVoice, h]
  dsimp only [grantVoice]
  rw [Tab.put_put]
  rfl

/-! ## The line-up tone (R187) -/

theorem routeOf_none {n : Nat} (h : 2 ≤ n) : routeOf n = none := by
  obtain ⟨k, rfl⟩ := Nat.exists_eq_add_of_le' h
  rfl

theorem routeOf_code (r : Route) : routeOf r.ctorIdx = some r := by cases r <;> rfl

theorem startLineUp_site (w : Word) (h : atSite s = true) : startLineUp w s = refuse .notRole s := if_pos h

theorem startLineUp_badRoute {w : Word} (hs : s.settings.roles.site = false) (h : 2 ≤ w.toNat) :
    startLineUp w s = refuse .badParam s := by
  rw [startLineUp, if_neg (Bool.eq_false_iff.1 (atSite_studio hs)), routeOf_none h]

/-- The state with line-up's route. -/
def routed (r : Route) (s : State) : State := { s with tg := { s.tg with route := r } }

section
variable {w : Word} (hs : s.settings.roles.site = false) (h : w.toNat = r.ctorIdx)
include hs h

theorem startLineUp_reply {t : State} (ht : (if s.tg.lineUp = .off then
      requestVoice .lineUp { routed r s with tg := { (routed r s).tg with lineUp := .waiting } } else routed r s) = t)
    (hroute : t.tg.route = r) : startLineUp w s = (t, .okWith [word t.tg.lineUp.ctorIdx, w]) := by
  have hw : word t.tg.route.ctorIdx = w := by
    rw [hroute, ← h, word, BitVec.ofNat_toNat, BitVec.setWidth_eq]
  rw [startLineUp, if_neg (Bool.eq_false_iff.1 (atSite_studio hs)), h, routeOf_code]
  refine Prod.ext ht ?_
  dsimp only
  refine (congrArg lineUpReply ht).trans ?_
  rw [lineUpReply, hw]

theorem startLineUp_stands (hl : s.tg.lineUp ≠ .off) : startLineUp w s
    = (routed r s, .okWith [word s.tg.lineUp.ctorIdx, w]) := startLineUp_reply hs h (if_neg hl) rfl

theorem startLineUp_granted (hl : s.tg.lineUp = .off) (hw : s.tg.waitList = []) (hv : freePoolVoice s = some v) :
    startLineUp w s = ({ s with tg := { s.tg with
        route := r, lineUp := .on, voices := s.tg.voices.put v (grantedVoice .lineUp false 1000 20 516) } },
      .okWith [word 2, w]) :=
  startLineUp_reply hs h ((if_pos hl).trans (requestVoice_granted .lineUp hw hv)) rfl

theorem startLineUp_waits (hl : s.tg.lineUp = .off) (hw : s.tg.waitList ≠ [] ∨ freePoolVoice s = none) : startLineUp w s
    = ({ s with tg := { s.tg with route := r, lineUp := .waiting, waitList := s.tg.waitList ++ [.lineUp] } },
      .okWith [word 1, w]) := startLineUp_reply hs h ((if_pos hl).trans (requestVoice_waits .lineUp hw)) rfl

end

theorem stopLineUp_site (h : atSite s = true) : stopLineUp s = refuse .notRole s := if_pos h

section
variable (hs : s.settings.roles.site = false)
include hs

theorem stopLineUp_reply {t : State} (ht : (if s.tg.lineUp = .on then noteStop 0 (endLineUp s) else endLineUp s) = t) :
    stopLineUp s = (t, lineUpReply t) :=
  (if_neg (Bool.eq_false_iff.1 (atSite_studio hs))).trans (congrArg (fun t => (t, lineUpReply t)) ht)

theorem stopLineUp_off (h : s.tg.lineUp = .off) :
    stopLineUp s = (s, .okWith [word 0, word s.tg.route.ctorIdx]) := by
  have hend : endLineUp s = s := by rw [endLineUp, h]
  have ht := stopLineUp_reply hs ((if_neg (by rw [h]; exact nofun)).trans hend)
  rw [ht, lineUpReply, h]
  rfl

theorem stopLineUp_waiting (h : s.tg.lineUp = .waiting) : stopLineUp s
    = ({ s with tg := { s.tg with lineUp := .off, waitList := s.tg.waitList.filter fun h => h != .lineUp } },
      .okWith [word 0, word s.tg.route.ctorIdx]) := by
  have hend : endLineUp s
      = { s with tg := { s.tg with lineUp := .off, waitList := s.tg.waitList.filter fun h => h != .lineUp } } := by
    rw [endLineUp, h]
    rfl
  exact stopLineUp_reply hs ((if_neg (by rw [h]; exact nofun)).trans hend)

theorem stopLineUp_on {t : State} (h : s.tg.lineUp = .on) (hv : lineUpVoice s = some v)
    (ht : noteStop 0 (giveBackVoice v { s with tg := { s.tg with lineUp := .off } }) = t) :
    stopLineUp s = (t, lineUpReply t) := by
  have hend : endLineUp s = giveBackVoice v { s with tg := { s.tg with lineUp := .off } } := by
    rw [endLineUp, h, hv]
  exact stopLineUp_reply hs ((if_pos h).trans ((congrArg (noteStop 0) hend).trans ht))

end

/-- A slot 0 without line-up that produced and no longer produces owes its END block (R48). -/
theorem noteStop_desk (h : s.tg.lineUp ≠ .on) : noteStop 0 s = { s with me := { s.me with
    endOwed := if Tab.at s.me.produced 0 && !(s.settings.roles.desk
      && ((Tab.at s.me.desk 0).air || (Tab.at s.me.desk 0).cue)) then s.me.endOwed.put 0 true else s.me.endOwed } } := by
  have hstops : (Tab.at s.me.produced 0 = true ∧ slotFlags 0 s = none)
      ↔ (Tab.at s.me.produced 0 && !(s.settings.roles.desk
        && ((Tab.at s.me.desk 0).air || (Tab.at s.me.desk 0).cue))) = true := by
    rw [slotFlags_desk (d := 0) rfl h, ← Option.isNone_iff_eq_none, isNone_ite, Bool.and_eq_true]
  unfold noteStop
  simp only [hstops]
  split <;> rfl

/-! ## Status inputs (R189, R190) -/

/-- The state in which an input's accepted level is told, before its action (R189). -/
def inputTold (i : Fin 4) (s : State) : State :=
  let f := Tab.at s.tg.inputs i
  { s with
    cp := s.cp.post ⟨.inputChange, s.clock.blockCount,
      [word (i.val + 1), wordName (!f.level), word (actionCode (Tab.at s.settings.inputs i))]⟩
    tg := { s.tg with inputs := s.tg.inputs.put i ⟨!f.level, 0, 64⟩ } }

theorem acceptInput_waits {i : Fin 4} (h : (Tab.at s.tg.inputs i).run < 3) : acceptInput i s = s :=
  if_neg (Nat.not_le.2 h)

theorem acceptInput_accepts {i : Fin 4} (h : 3 ≤ (Tab.at s.tg.inputs i).run) : acceptInput i s
    = applyAction (Tab.at s.settings.inputs i) (!(Tab.at s.tg.inputs i).level) (inputTold i s) := by
  refine (if_pos h).trans ?_
  rw [Filter.settle_accepts h]
  rfl

section
variable {d : Fin 2}

/-- The state with a desk input's cough count. -/
def coughCounted (d : Fin 2) (n : Nat) (s : State) : State := { s with tg := { s.tg with coughs := s.tg.coughs.put d n } }

theorem coughEdge_first (h : Tab.at s.tg.coughs d = 0) : coughEdge d true s = setDesk d { Tab.at s.me.desk d with
    cough := true, gain := (Tab.at s.me.desk d).gain.giveGain 0 2 } (coughCounted d 1 s) := by
  unfold coughEdge
  dsimp only
  rw [h]
  rfl

theorem coughEdge_more (h : 0 < Tab.at s.tg.coughs d) :
    coughEdge d true s = coughCounted d (Tab.at s.tg.coughs d + 1) s :=
  (if_neg fun k => Nat.ne_of_gt h k.2).trans (if_neg fun k : true = false ∧ _ => Bool.false_ne_true k.1.symm)

theorem coughEdge_last (h : Tab.at s.tg.coughs d = 1) : coughEdge d false s = setDesk d { Tab.at s.me.desk d with
    cough := false, gain := (Tab.at s.me.desk d).gain.giveGain (Tab.at s.me.desk d).level 2 } (coughCounted d 0 s) := by
  unfold coughEdge
  dsimp only
  rw [h]
  rfl

theorem coughEdge_fewer (h : 1 < Tab.at s.tg.coughs d) :
    coughEdge d false s = coughCounted d (Tab.at s.tg.coughs d - 1) s := by
  unfold coughEdge
  dsimp only
  rw [if_neg fun k => Bool.false_ne_true k.1]
  exact if_neg fun k : false = false ∧ Tab.at s.tg.coughs d - 1 = 0 => Nat.sub_ne_zero_of_lt h k.2

end

theorem toggleAir_leaves (d : Fin 2) (s : State) : toggleAir d s = { s with me := { s.me with
    desk := s.me.desk.put d { Tab.at s.me.desk d with air := !(Tab.at s.me.desk d).air }
    endOwed := (toggleAir d s).me.endOwed } } := noteStop_leaves _ _

theorem toggleAir_owes (d : Fin 2) (s : State) (k : Fin 8) : Tab.at (toggleAir d s).me.endOwed k = true
    ↔ Tab.at s.me.endOwed k = true ∨ (k.val = d.val ∧ Tab.at s.me.produced k = true ∧ slotFlags k (toggleAir d s) = none) := by
  let u : State := setDesk d { Tab.at s.me.desk d with air := !(Tab.at s.me.desk d).air } s
  have howed : Tab.at (toggleAir d s).me.endOwed k = _ := noteStop_at (deskSlot d) k u
  have hflags : slotFlags k (toggleAir d s) = slotFlags k u := by
    rw [toggleAir_leaves]
    rfl
  rw [howed, hflags]
  by_cases hk : k = deskSlot d
  · have hval : k.val = d.val := congrArg Fin.val hk
    rw [if_pos hk, ← hk, Bool.or_eq_true, Bool.and_eq_true, Option.isNone_iff_eq_none]
    exact or_congr_right (and_iff_right hval).symm
  · rw [if_neg hk]
    exact (or_iff_left fun h => hk (Fin.ext h.1)).symm

theorem remoteStart_ignored (h : firstToPlay s = none ∨ s.settings.roles.playout = false) :
    remoteStart s = { s with cp := s.cp.post ⟨.startIgnored, s.clock.blockCount, []⟩ } := by
  unfold remoteStart
  split
  case h_1 e he => exact if_neg fun k => h.elim (fun hn => nomatch hn.symm.trans he) fun hp => Bool.false_ne_true (hp.symm.trans k)
  case h_2 => rfl

theorem remoteStart_due {e : CueEntry} (h : firstToPlay s = some e) (hp : s.settings.roles.playout = true) :
    remoteStart s = makeDue e.tag s := by
  rw [remoteStart, h]
  exact if_pos hp

end

/-- Settles O60. -/
theorem lineUpAndInputs : Obligations.LineUpAndInputs := by
  refine ⟨⟨fun w m s h => ⟨fun hs => ?onSite, fun hs => ⟨fun hw => ?onRoute, fun r hw => ⟨fun hl => ?onStands,
    fun v hl hn hv hf hlow => ?onGranted, fun hl hw' => ?onWaits⟩⟩⟩, fun m s h => ⟨fun hs => ?offSite, fun hs => ?off⟩⟩,
    fun i s hr hs => ?inputs, fun input s => rfl, contactFilter⟩
  case onSite => exact hostRow_act h (startLineUp_site w ((atSite_iff h.running).trans hs))
  case onRoute => exact hostRow_act h (startLineUp_badRoute hs hw)
  case onStands => exact hostRow_act h (startLineUp_stands hs hw hl)
  case onGranted => exact hostRow_act h (startLineUp_granted hs hw hl hn (freePoolVoice_lowest hv hf hlow))
  case onWaits => exact hostRow_act h (startLineUp_waits hs hw hl (hw'.imp id freePoolVoice_none))
  case offSite => exact hostRow_act h (stopLineUp_site ((atSite_iff h.running).trans hs))
  case off =>
    intro data
    refine ⟨fun hl => hostRow_act h (stopLineUp_off hs hl), fun hl => hostRow_act h (stopLineUp_waiting hs hl),
      fun v hl hv hheld hlow => ?_⟩
    intro x stops me
    let silenced : State := { s with tg := { s.tg with lineUp := .off } }
    have hvoice := lineUpVoice_lowest hv hheld hlow
    exact ⟨fun hw => hostRow_act h (stopLineUp_on hs hl hvoice
        ((congrArg (noteStop 0) (giveBackVoice_free (s := silenced) hw)).trans (noteStop_desk nofun))),
      fun l rest hw => hostRow_act h (stopLineUp_on hs hl hvoice
        ((congrArg (noteStop 0) (giveBackVoice_line (s := silenced) hw)).trans (noteStop_desk nofun)))⟩
  case inputs =>
    intro f code a s' out
    have hout : out = .next (acceptInput i s) := congrArg Host.Outcome.next (if_pos (onLine_running hr hs))
    have hcode : ∀ b, actionCode b = code b := fun b => by cases b <;> rfl
    have htold : inputTold i s = s' := congrArg (fun k : Nat => ({ s with
      cp := s.cp.post ⟨.inputChange, s.clock.blockCount, [word (i.val + 1), wordName (!f.level), word k]⟩
      tg := { s.tg with inputs := s.tg.inputs.put i ⟨!f.level, 0, 64⟩ } } : State)) (hcode a)
    refine ⟨fun hn => hout.trans (congrArg _ (acceptInput_waits hn)), fun hn => ?_, hout⟩
    have hact : out = .next (applyAction a (!f.level) s') :=
      hout.trans (congrArg _ ((acceptInput_accepts hn).trans (congrArg _ htold)))
    refine ⟨fun ha => ?_, fun d ha => ?_, fun d ha => ?_, fun ha => ?_⟩
    · rw [hact, ha]
      rfl
    · have hcough := hact
      rw [ha] at hcough
      intro n x counted
      refine ⟨fun hd => hcough.trans (congrArg _ (if_neg (Bool.eq_false_iff.1 hd))), fun hd => ?_⟩
      have hedge : out = .next (coughEdge d (!f.level) s') := hcough.trans (congrArg _ (if_pos hd))
      refine ⟨fun hf h0 => ?_, fun hf h0 => ?_, fun hf h1 => ?_, fun hf h1 => ?_⟩
      · rw [hf] at hedge
        exact hedge.trans (congrArg _ (coughEdge_first (s := s') h0))
      · rw [hf] at hedge
        exact hedge.trans (congrArg _ (coughEdge_more (s := s') h0))
      · rw [hf] at hedge
        exact hedge.trans (congrArg _ (coughEdge_last (s := s') h1))
      · rw [hf] at hedge
        exact hedge.trans (congrArg _ (coughEdge_fewer (s := s') h1))
    · rw [ha] at hact
      refine ⟨fun h => hact.trans (congrArg _ (if_neg (Bool.eq_false_iff.1 (Bool.and_eq_false_iff.2 (h.imp id ?_))))),
        fun hd hf => ⟨toggleAir d s', hact.trans (congrArg _ (if_pos (Bool.and_eq_true_iff.2 ⟨hd, ?_⟩))),
          toggleAir_leaves d s', toggleAir_owes d s'⟩⟩
      · exact congrArg Bool.not
      · exact congrArg Bool.not hf
    · rw [ha] at hact
      refine ⟨fun hf => hact.trans (congrArg _ (if_neg (by rw [hf]; exact Bool.false_ne_true))), fun hf => ?_⟩
      intro waits
      have hstart : out = .next (remoteStart s') := hact.trans (congrArg _ (if_pos (by rw [hf]; rfl)))
      exact ⟨firstToPlay_none s, firstToPlay_some s, fun h => hstart.trans (congrArg _ (remoteStart_ignored (s := s') h)),
        fun e he hp => ⟨_, hstart.trans (congrArg _ (remoteStart_due (s := s') he hp)), makeDue_comesDue e.tag s'⟩⟩

end Sys2Proof.Machine
end
